-- ==== Sys2Proof/Word.lean ====
section
/-! DEFINITION. The word types of the device: bytes, 32-bit and 64-bit words, and their plainest
arithmetic. -/

namespace Sys2Proof

/-- A byte. -/
abbrev Byte := BitVec 8

/-- A 64-bit word: a general register (R122), a register of BAR0 (R6), device time (R598). -/
abbrev Word := BitVec 64

/-- The 64-bit word of a truth value. -/
def Word.ofBool (b : Bool) : Word := if b then 1 else 0

end Sys2Proof
end

