-- ==== Sys2Proof/Syntax.lean ====
section
/-! DEFINITION. The commands the device takes, one constructor of `Instr` for each row of the opcode
table, and the types of their operands. -/

namespace Sys2Proof

/-- A function of the PCI Express endpoint: PF0-PF3 or VF 1-63 of PF1 (R490, R502). -/
inductive Fn
  | pf (i : Fin 4)
  | vf (v : Fin 64)
  deriving DecidableEq, Repr

/-- The BARs a function implements (R491). -/
inductive Bar
  | bar0 | bar2 | bar4
  deriving DecidableEq, Repr

/-- Who makes a register access: the host, through a BAR of a function, or the management cores,
which reach BAR0 at the same offsets (R518). -/
inductive Requester
  | host (fn : Fn) (bar : Bar)
  | mgmt
  deriving DecidableEq, Repr

/-- One register access: its maker and the offset within the BAR. -/
structure Access where
  who : Requester
  off : BitVec 28
  deriving DecidableEq, Repr

/-- What a device-issued read of host memory returned: its bytes, or a completion status other than
success (R489, R498). -/
inductive DmaRead
  | data (bytes : List Byte)
  | failed (status : BitVec 8)
  deriving DecidableEq, Repr

/-- What a failing device read was for (R498): a descriptor of the ring, the buffer of a punt or
inject descriptor, or a transaction batch. -/
inductive DmaUse
  | descriptor | buffer | batch
  deriving DecidableEq, Repr

/-- A control signal of the die-to-die link (R16). -/
inductive D2dSignal
  | whistle
  | timeAdjust (at' : Word) (step : BitVec 48)
  | reset
  deriving DecidableEq, Repr

/-- A copy of a control signal (R16): the module whose flit carries it in its control slot, whether that flit's CRC is
good, the signal's number and the signal. -/
structure D2dCopy where
  m : Fin 40
  crcOk : Bool
  n : Nat
  sig : D2dSignal
  deriving DecidableEq, Repr

/-- A direction of the die-to-die link (R17). -/
inductive D2dDir
  | toShoilany | toPyrlys
  deriving DecidableEq, Repr

/-- What started a device reset from outside the management firmware or from it (R615, R617): the
RESET_N pin with the filtered cycles it stayed low (R633), or another cause. -/
inductive ResetSource
  | pin (lowCycles : Nat)
  | restart | resetCtrl | watchdog
  deriving DecidableEq, Repr

/-- What the boot ROM and the firmware find in an image slot (R521, R522, R525, R527, R562): whether signature and
digest hold, its security version, the settings schema it writes, the schema majors it reads, the
majors whose migration yields only valid records, the engine versions it provides, and whether the flash could be
read. -/
structure ImageInfo where
  sigOk : Bool
  secver : Fin 64
  schema : BitVec 16
  reads : List Nat
  migrates : List Nat
  engines : List (BitVec 32) := []
  readOk : Bool := true
  deriving DecidableEq, Repr

/-- A program image of one cluster (R116): the words of its instruction memory from word 0, the words at which
packet threads and resident threads begin, and the contents of shared memory, CHAN_CFG, EVT_CFG and
RESIDENT. -/
structure CoreProgram where
  cluster : Fin 32
  words : List (BitVec 32)
  entry : Fin 131072
  residentEntry : Fin 131072
  shared : List (BitVec 8)
  chanCfg : List Word
  evtCfg : List Word
  resident0 : Word
  resident1 : Word
  deriving DecidableEq, Repr

/-- What the firmware reads in a playbook (R525, R527, R452): the verdict of its signature, its step_id and the
step_ids compatible with it, its fallback, the registers it loads, its core programs, its base-table operations
(64-byte records), the engine versions it requires, and whether the flash could be read. -/
structure PlaybookInfo where
  sigOk : Bool
  stepId : Word
  compatible : List Word
  fallback : Option (Fin 4)
  regs : List (BitVec 28 × Word)
  programs : List CoreProgram
  baseOps : List (List Byte)
  engines : List (BitVec 32) := []
  readOk : Bool := true
  deriving DecidableEq, Repr

/-- A mailbox or update command's 64-byte descriptor after its opcode (R530): the tag, the host buffer
and its length, argument bytes 20-31, and whether every other byte is zero. -/
structure MboxDesc where
  tag : BitVec 32
  buf : Word
  len : BitVec 32
  args : BitVec 96
  restZero : Bool
  deriving DecidableEq, Repr

/-- What the fetch and the reads of one instruction meet in the cluster memories (R120): nothing; a corrected or an
uncorrectable error in instruction SRAM; a parity error of the instruction cache; a corrected or an uncorrectable error
in the register file; a corrected or an uncorrectable error, or a parity error of the data cache, in the memory that the
instruction reads. -/
inductive CoreErr
  | clean | fetchFixed | fetchBad | icache | regFixed | regBad | memFixed | memBad
  deriving DecidableEq, Repr

/-- What a lookup meets in its table's memories (R170, R274): nothing; an uncorrectable error in a lookup pipe's or in a
TCAM block's memory; or one in an HBM read of stacks 4-5, with its channel of the 64, its granule and the syndrome. -/
inductive LookupError
  | clean
  | pipe (k : Fin 24)
  | tcam (b : Fin 64)
  | hbm (k : Fin 64) (granule : Fin 12582912) (syndrome : BitVec 32)
  deriving DecidableEq, Repr

/-- What the reads of a cluster's DMA meet (R120, R141): nothing; an uncorrectable error in the shared-memory word of
this number; one in an HBM read of the program-data window, as for a lookup; or a corrected error in shared memory. -/
inductive DmaError
  | clean
  | shared (word : Fin 131072)
  | hbm (k : Fin 64) (granule : Fin 12582912) (syndrome : BitVec 32)
  | sharedFixed
  deriving DecidableEq, Repr

/-- What a stack reports through its IEEE 1500 port (R406, R423): its identity, its mode registers, its lane repairs as
(channel, failed lane, spare lane), and the activation threshold of refresh management (R422). -/
structure HbmStack where
  ident : List (BitVec 8) := []
  mode : List (BitVec 8) := []
  repairs : List (Nat × Nat × Nat) := []
  rfm : Nat := 0
  deriving DecidableEq, Repr

/-- An uncorrectable 32-byte burst of a read (R418): its place in the request and its syndrome. -/
structure HbmUe where
  burst : Nat
  syndrome : BitVec 32
  deriving DecidableEq, Repr

/-- A bit of a TCAM row that a soft error has turned over (R260): its block, whether it belongs to the care bits, and its
place in the 160 bits of the row. -/
structure TcamFlip where
  block : Fin 64
  care : Bool
  bit : Fin 160
  deriving DecidableEq, Repr

/-- What a scrub access found: nothing, a corrected error, or an uncorrectable one, with the location
word of R22. -/
inductive ScrubFinding
  | clean
  | corrected (loc : Word)
  | uncorrectable (loc : Word)
  deriving DecidableEq, Repr


/-- What a check of a buffer cell finds as the cell is read (R281, R284): the cell, and whether the error is
uncorrectable. -/
structure CellFind where
  cell : Fin 786432
  bad : Bool
  deriving DecidableEq, Repr

/-- What a rally lane's own logic finds (R450, R396): signal, equalisers and codewords done; HELLO due; 10 ms in HELLO
without a completed exchange; more than one uncorrectable codeword in 10⁶ over 10 ms. -/
inductive RallyEvent
  | signalDone | helloDue | helloTimeout | errorRetrain
  deriving DecidableEq, Repr

/-- A frame from the umpire (R470): type byte, message and CRC-8. -/
structure UmpireFrame where
  type : BitVec 8
  msg : BitVec 32
  crc : BitVec 8
  deriving DecidableEq, Repr


/-- The commands of the device: one constructor for each row of the opcode table. -/
inductive Instr
  /-- A host or management write to a register that has no behaviour of its own stores or
  discards bits according to the field types (R9). -/
  | registerWrite (a : Access) (v : Word)
  /-- A read of a register with RC fields returns the current values and then clears those
  fields (R9). -/
  | readClearAccess (a : Access)
  /-- A narrow or unaligned register access returns all-ones or is discarded, and is recorded as
  an access error (R7). -/
  | narrowUnalignedAccess (a : Access) (write : Bool) (data : BitVec 32 := 0)
  /-- A poisoned write from the host is discarded and recorded as an access error (R489). -/
  | poisonedWrite (a : Access)
  /-- A die-to-die flit arrives; a bad CRC triggers a replay, and a good flit is restored to
  order by sequence number (R16). -/
  | d2dFlitReceive (m : Fin 40) (dir : D2dDir) (crcOk : Bool) (seqNo : Nat)
  /-- A whistle, time adjustment or reset carried in a flit's control slot takes effect on both
  dies at the same tick after 10 CLK_CORE cycles (R16). -/
  | d2dControlSignal (sig : D2dCopy)
  /-- At the end of a 10 ms window a module whose replay rate exceeded one in 10^6 starts
  retraining (R17). -/
  | d2dReplayWindow (m : Fin 40) (inFlight : List Nat := [])
  /-- A module loses a lane; it moves to a spare lane or, with none left in that direction,
  retrains (R17). -/
  | d2dLaneLoss (m : Fin 40) (dir : D2dDir) (inFlight : List Nat := [])
  /-- A module's training ends; it enters UP, or after three failures in succession it is
  retired and entered in the lifetime record (R17). -/
  | d2dModuleTrainDone (m : Fin 40) (ok : Bool)
  /-- The first byte of a frame reaches a line MAC; the frame is dropped whole if receive-FIFO
  space is below rx_max, and otherwise reserves rx_max bytes (R364). -/
  | rxFrameStart (m : Fin 256) (frame : List Byte)
  /-- A frame's last byte and FCS have been received; runts, oversize and FCS failures are
  handled and counted, and the frame is timestamped (R363). -/
  | rxFrameEnd (m : Fin 256) (fcsOk : Bool) (corrected uncorrectable : Nat)
  /-- Half the quanta time has elapsed while the level stays above xon, so the pause frame is
  sent again (R367). -/
  | pauseRefresh (m : Fin 256) (c : Fin 9)
  /-- A good PAUSE frame is received and, with rx_en, stops the whole port node for the quanta
  time (R366). -/
  | pauseReceive (m : Fin 256)
  /-- A good PFC frame is received and, with rx_en, stops the queues of each enabled class for
  its quanta time (R366). -/
  | pfcReceive (m : Fin 256)
  /-- The pause time of a port or class runs out and selection of its queues resumes (R366). -/
  | pauseExpiry (m : Fin 256) (c : Fin 9)
  /-- A frame whose first beat is present takes a pipe entry slot, receives its sequence number,
  is tested for tagging and starts its parse walk (R646). -/
  | parserEntry (m : Fin 256) (beats : Nat) (d2dFull : Bool) (ue : List (Fin 1024)) (ce : Nat)
  /-- A packet set aside in its MAC's wait slot resumes through the resume path once the node it
  waits on is settled (R36). -/
  | parseResume (m : Fin 256) (beats : Nat) (d2dFull : Bool) (ue : List (Fin 1024)) (ce : Nat)
  /-- The groundskeeper finishes rewriting a node that had an uncorrectable parse-memory error
  from another pipe's replica (R57). -/
  | parseNodeRewrite (pipe : Fin 16) (node : Fin 1024)
  /-- A position is released or vacated below the outstanding limit, so the packet waiting at
  the end of its pipe's fast-break stage takes its position (R81). -/
  | orderPositionFree (pipe : Fin 16)
  /-- A committed packet is released to the editor once every earlier position of its domain is
  released, vacated or skipped (R80). -/
  | orderRelease (domain : Fin 4096)
  /-- The oldest unskipped position of a domain exceeds skip_timeout, so it is skipped and later
  committed packets are released (R82). -/
  | orderSkip (domain : Fin 4096)
  /-- The dispatcher chooses a cluster and thread for a core-path packet, fills its header
  window and metadata, binds parked results and makes the thread READY (R75). -/
  | dispatch (pipe : Fin 16)
  /-- A packet waiting in a cluster's input queue is dispatched when an eligible packet thread
  becomes IDLE (R74). -/
  | inputQueueDispatch (c : Fin 32)
  /-- A program-data line missing the data cache arrives, and the waiting thread becomes READY
  (R86). -/
  | dcacheLineFill (c : Fin 32) (line : BitVec 27) (way : Fin 8)
  /-- An engine returns a lookup result, which is written to its l register, parked, or
  discarded if it was squashed (R162). -/
  | lookupResult (id : Nat) (err : LookupError) (misses parity : Nat := 0)
  /-- A ROSTER write takes effect at the core's next switch, or is refused if it leaves a busy
  or resident thread without a slot (R89). -/
  | rosterWrite (c : Fin 32) (k : Fin 16) (w : Word)
  /-- rd = ra + rb (R138). -/
  | add (c : Fin 32) (t : Fin 128) (rd ra rb : BitVec 5) (err : CoreErr := .clean)
  /-- rd = ra - rb (R138). -/
  | sub (c : Fin 32) (t : Fin 128) (rd ra rb : BitVec 5) (err : CoreErr := .clean)
  /-- rd = ra and rb (R138). -/
  | and (c : Fin 32) (t : Fin 128) (rd ra rb : BitVec 5) (err : CoreErr := .clean)
  /-- rd = ra or rb (R138). -/
  | or (c : Fin 32) (t : Fin 128) (rd ra rb : BitVec 5) (err : CoreErr := .clean)
  /-- rd = ra xor rb (R138). -/
  | xor (c : Fin 32) (t : Fin 128) (rd ra rb : BitVec 5) (err : CoreErr := .clean)
  /-- rd = ra shifted left by rb[5:0] (R138). -/
  | shl (c : Fin 32) (t : Fin 128) (rd ra rb : BitVec 5) (err : CoreErr := .clean)
  /-- Logical right shift of ra by rb[5:0] (R138). -/
  | shr (c : Fin 32) (t : Fin 128) (rd ra rb : BitVec 5) (err : CoreErr := .clean)
  /-- Arithmetic right shift of ra by rb[5:0] (R138). -/
  | sar (c : Fin 32) (t : Fin 128) (rd ra rb : BitVec 5) (err : CoreErr := .clean)
  /-- Rotate ra right by rb[5:0] (R138). -/
  | rotr (c : Fin 32) (t : Fin 128) (rd ra rb : BitVec 5) (err : CoreErr := .clean)
  /-- rd = 1 if ra < rb signed, else 0 (R138). -/
  | slt (c : Fin 32) (t : Fin 128) (rd ra rb : BitVec 5) (err : CoreErr := .clean)
  /-- rd = 1 if ra < rb unsigned, else 0 (R138). -/
  | sltu (c : Fin 32) (t : Fin 128) (rd ra rb : BitVec 5) (err : CoreErr := .clean)
  /-- rd = unsigned minimum of ra and rb (R138). -/
  | minu (c : Fin 32) (t : Fin 128) (rd ra rb : BitVec 5) (err : CoreErr := .clean)
  /-- rd = unsigned maximum of ra and rb (R138). -/
  | maxu (c : Fin 32) (t : Fin 128) (rd ra rb : BitVec 5) (err : CoreErr := .clean)
  /-- rd = low 64 bits of ra x rb (R138). -/
  | mul (c : Fin 32) (t : Fin 128) (rd ra rb : BitVec 5) (err : CoreErr := .clean)
  /-- rd = high 64 bits of the unsigned 128-bit product (R138). -/
  | mulhu (c : Fin 32) (t : Fin 128) (rd ra rb : BitVec 5) (err : CoreErr := .clean)
  /-- rd = 16-bit ones' complement sum of ra[15:0] and rb[15:0] (R138). -/
  | csum (c : Fin 32) (t : Fin 128) (rd ra rb : BitVec 5) (err : CoreErr := .clean)
  /-- rd = number of ones in ra (R138). -/
  | popc (c : Fin 32) (t : Fin 128) (rd ra : BitVec 5) (err : CoreErr := .clean)
  /-- rd = leading zeros of ra, 64 when ra is 0 (R138). -/
  | clz (c : Fin 32) (t : Fin 128) (rd ra : BitVec 5) (err : CoreErr := .clean)
  /-- Reverse the 8 bytes of ra (R138). -/
  | bswap (c : Fin 32) (t : Fin 128) (rd ra : BitVec 5) (err : CoreErr := .clean)
  /-- Reverse the bytes of ra[31:0], upper half zero (R138). -/
  | bswap32 (c : Fin 32) (t : Fin 128) (rd ra : BitVec 5) (err : CoreErr := .clean)
  /-- Reverse the bytes of ra[15:0], upper bits zero (R138). -/
  | bswap16 (c : Fin 32) (t : Fin 128) (rd ra : BitVec 5) (err : CoreErr := .clean)
  /-- rd = ra + sign-extended immediate (R139). -/
  | addi (c : Fin 32) (t : Fin 128) (rd ra : BitVec 5) (imm : BitVec 16) (err : CoreErr := .clean)
  /-- rd = ra and zero-extended immediate (R139). -/
  | andi (c : Fin 32) (t : Fin 128) (rd ra : BitVec 5) (imm : BitVec 16) (err : CoreErr := .clean)
  /-- rd = ra or zero-extended immediate (R139). -/
  | ori (c : Fin 32) (t : Fin 128) (rd ra : BitVec 5) (imm : BitVec 16) (err : CoreErr := .clean)
  /-- rd = ra xor zero-extended immediate (R139). -/
  | xori (c : Fin 32) (t : Fin 128) (rd ra : BitVec 5) (imm : BitVec 16) (err : CoreErr := .clean)
  /-- Shift or rotate ra by an immediate amount, the kind chosen by imm[7:6] (R139). -/
  | shi (c : Fin 32) (t : Fin 128) (kind : BitVec 2) (rd ra : BitVec 5) (amt : BitVec 6) (err : CoreErr := .clean)
  /-- rd = zero-extended immediate shifted left 16 (R139). -/
  | lui (c : Fin 32) (t : Fin 128) (rd : BitVec 5) (imm : BitVec 16) (err : CoreErr := .clean)
  /-- rd = 1 if ra < sign-extended immediate, signed (R139). -/
  | slti (c : Fin 32) (t : Fin 128) (rd ra : BitVec 5) (imm : BitVec 16) (err : CoreErr := .clean)
  /-- rd = 1 if ra < sign-extended immediate, unsigned (R139). -/
  | sltiu (c : Fin 32) (t : Fin 128) (rd ra : BitVec 5) (imm : BitVec 16) (err : CoreErr := .clean)
  /-- rd = zero-extended bit field of ra (R139). -/
  | ext (c : Fin 32) (t : Fin 128) (rd ra : BitVec 5) (pos wm1 : BitVec 6) (err : CoreErr := .clean)
  /-- rd = sign-extended bit field of ra (R139). -/
  | exts (c : Fin 32) (t : Fin 128) (rd ra : BitVec 5) (pos wm1 : BitVec 6) (err : CoreErr := .clean)
  /-- Insert ra's low bits into a bit field of rd (R139). -/
  | ins (c : Fin 32) (t : Fin 128) (rd ra : BitVec 5) (pos wm1 : BitVec 6) (err : CoreErr := .clean)
  /-- rd = ones in a bit field, zero elsewhere (R139). -/
  | mask (c : Fin 32) (t : Fin 128) (rd ra : BitVec 5) (pos wm1 : BitVec 6) (err : CoreErr := .clean)
  /-- Conditional branch on the cond field, with hint-dependent bubble cycles (R139). -/
  | bcc (c : Fin 32) (t : Fin 128) (cond : BitVec 3) (ra rb : BitVec 5) (hint : Bool) (off : BitVec 12) (err : CoreErr := .clean)
  /-- Jump to an absolute word index (R139). -/
  | j (c : Fin 32) (t : Fin 128) (target : BitVec 17) (err : CoreErr := .clean)
  /-- Jump and write the link into g31 (R139). -/
  | jal (c : Fin 32) (t : Fin 128) (target : BitVec 17) (err : CoreErr := .clean)
  /-- Jump to ra[16:0] (R139). -/
  | jr (c : Fin 32) (t : Fin 128) (ra : BitVec 5) (err : CoreErr := .clean)
  /-- Load big-endian bytes from the header window (R140). -/
  | hld (c : Fin 32) (t : Fin 128) (rd ra : BitVec 5) (off : BitVec 9) (size : BitVec 2) (sx : Bool) (err : CoreErr := .clean)
  /-- Store bytes into the header window (R140). -/
  | hst (c : Fin 32) (t : Fin 128) (rd ra : BitVec 5) (off : BitVec 9) (size : BitVec 2) (err : CoreErr := .clean)
  /-- rd = zero-extended metadata field (R140). -/
  | movmg (c : Fin 32) (t : Fin 128) (rd : BitVec 5) (idx : BitVec 6) (err : CoreErr := .clean)
  /-- Write rd[31:0] to an RW metadata field, or raise META_RO (R140). -/
  | movgm (c : Fin 32) (t : Fin 128) (rd : BitVec 5) (idx : BitVec 6) (err : CoreErr := .clean)
  /-- Read one half of a waited-on lookup result into rd (R140). -/
  | lread (c : Fin 32) (t : Fin 128) (rd : BitVec 5) (hi : Bool) (l : BitVec 3) (err : CoreErr := .clean)
  /-- Load from scratch, key bundle, prepend area, shared memory or the program-data window
  (R140). -/
  | ld (c : Fin 32) (t : Fin 128) (rd ra : BitVec 5) (off : BitVec 12) (size : BitVec 2) (sx : Bool) (err : CoreErr)
  /-- Store to a core-local region or a reserved channel slot (R140). -/
  | st (c : Fin 32) (t : Fin 128) (rd ra : BitVec 5) (off : BitVec 12) (size : BitVec 2) (err : CoreErr := .clean)
  /-- Atomic add on a shared-memory word, returning the old value (R140). -/
  | amoAdd (c : Fin 32) (t : Fin 128) (rd ra rb : BitVec 5) (err : CoreErr)
  /-- Atomic and on a shared-memory word (R140). -/
  | amoAnd (c : Fin 32) (t : Fin 128) (rd ra rb : BitVec 5) (err : CoreErr)
  /-- Atomic or on a shared-memory word (R140). -/
  | amoOr (c : Fin 32) (t : Fin 128) (rd ra rb : BitVec 5) (err : CoreErr)
  /-- Atomic xor on a shared-memory word (R140). -/
  | amoXor (c : Fin 32) (t : Fin 128) (rd ra rb : BitVec 5) (err : CoreErr)
  /-- Atomic swap on a shared-memory word (R140). -/
  | amoSwap (c : Fin 32) (t : Fin 128) (rd ra rb : BitVec 5) (err : CoreErr)
  /-- Atomic unsigned maximum on a shared-memory word (R140). -/
  | amoMaxu (c : Fin 32) (t : Fin 128) (rd ra rb : BitVec 5) (err : CoreErr)
  /-- Atomic unsigned minimum on a shared-memory word (R140). -/
  | amoMinu (c : Fin 32) (t : Fin 128) (rd ra rb : BitVec 5) (err : CoreErr)
  /-- Atomic compare-and-swap on a shared-memory word (R140). -/
  | amoCas (c : Fin 32) (t : Fin 128) (rd ra rb : BitVec 5) (err : CoreErr)
  /-- Wait until every earlier store and atomic of the thread has completed (R131). -/
  | fence (c : Fin 32) (t : Fin 128) (err : CoreErr := .clean)
  /-- Invalidate the data-cache line holding an address (R131). -/
  | cinv (c : Fin 32) (t : Fin 128) (ra : BitVec 5) (err : CoreErr := .clean)
  /-- Start a copy between shared memory and the program-data window, completing to a DMA
  channel or flag (R141). -/
  | dma (c : Fin 32) (t : Fin 128) (ra rb rc : BitVec 5) (err : CoreErr := .clean)
  /-- A DMA finishes and the engine commits a completion record or signals the flag (R141). -/
  | dmaComplete (id : Nat) (err : DmaError)
  /-- Take a matching parked lookup or issue a fresh lookup into a table (R144). -/
  | lkp (c : Fin 32) (t : Fin 128) (l : BitVec 3) (table : BitVec 8) (ks : Bool) (koff : BitVec 7) (err : CoreErr := .clean)
  /-- Wait for an l register's result, stalling long if it has not returned, and mark it
  consumed (R145). -/
  | lkw (c : Fin 32) (t : Fin 128) (l : BitVec 3) (err : CoreErr := .clean)
  /-- Reserve the tail slot of a channel, stalling when all 32 are occupied (R91). -/
  | passRes (c : Fin 32) (t : Fin 128) (rd : BitVec 5) (ch : BitVec 6) (rmt : Bool) (cl : BitVec 5) (err : CoreErr := .clean)
  /-- Mark a reserved slot COMMITTED, waking a waiting reader (R92). -/
  | passCommit (c : Fin 32) (t : Fin 128) (rd : BitVec 5) (err : CoreErr := .clean)
  /-- Receive the head slot of a channel in ring order, skipping VOID slots and waiting on EMPTY
  or RESERVED ones (R93). -/
  | passRecv (c : Fin 32) (t : Fin 128) (ch : BitVec 6) (soff : BitVec 3) (rmt : Bool) (err : CoreErr)
  /-- Signal an event flag, releasing the first waiter or setting the flag (R95). -/
  | signal (c : Fin 32) (t : Fin 128) (flag : BitVec 6) (rmt : Bool) (cl : BitVec 5) (err : CoreErr := .clean)
  /-- Wait on an event flag, clearing it if set or stalling if clear (R95). -/
  | wait (c : Fin 32) (t : Fin 128) (flag : BitVec 6) (rmt : Bool) (err : CoreErr := .clean)
  /-- A remote PASS.COMMIT or SIGNAL takes effect at the target cluster 24 cycles after issue
  (R142). -/
  | remoteOpArrive
  /-- No operation (R142). -/
  | nop (c : Fin 32) (t : Fin 128) (err : CoreErr := .clean)
  /-- The thread gives up the core and stays READY (R86). -/
  | yield (c : Fin 32) (t : Fin 128) (err : CoreErr := .clean)
  /-- A resident thread commits its deferred updates and becomes IDLE until the cluster next
  starts (R85). -/
  | halt (c : Fin 32) (t : Fin 128) (err : CoreErr := .clean)
  /-- rd = next SplitMix generator value (R127). -/
  | rnd (c : Fin 32) (t : Fin 128) (rd : BitVec 5) (err : CoreErr := .clean)
  /-- rd = a counter value from the latest completed sweep, or all-ones if not permitted (R143).
  -/
  | score (c : Fin 32) (t : Fin 128) (rd ra : BitVec 5) (err : CoreErr := .clean)
  /-- Record a deferred counter increment of one packet and rb bytes (R146). -/
  | cntAdd (c : Fin 32) (t : Fin 128) (ra rb : BitVec 5) (err : CoreErr := .clean)
  /-- Record a deferred counter increment of rb packets and rc bytes (R146). -/
  | cntAddn (c : Fin 32) (t : Fin 128) (ra rb rc : BitVec 5) (err : CoreErr := .clean)
  /-- Record a deferred data-policer charge (R146). -/
  | polChg (c : Fin 32) (t : Fin 128) (ra rb : BitVec 5) (err : CoreErr := .clean)
  /-- Record a deferred learn event from a scratch record (R146). -/
  | lrn (c : Fin 32) (t : Fin 128) (ra : BitVec 5) (err : CoreErr := .clean)
  /-- A resident thread commits its deferred buffer now (R146). -/
  | dcmt (c : Fin 32) (t : Fin 128) (err : CoreErr := .clean)
  /-- Dispose of the packet to a VOQ with a drop precedence; the thread becomes IDLE and commit
  begins (R150). -/
  | emit (c : Fin 32) (t : Fin 128) (ra : BitVec 5) (err : CoreErr := .clean)
  /-- Discard the packet with a program drop reason and vacate its order position (R150). -/
  | drop (c : Fin 32) (t : Fin 128) (imm8 : BitVec 8) (err : CoreErr := .clean)
  /-- Send the output packet to a punt ring after an exception-policer charge at commit (R150).
  -/
  | punt (c : Fin 32) (t : Fin 128) (ra : BitVec 5) (err : CoreErr := .clean)
  /-- Create at commit a copy of the frame as received for a VOQ; the thread continues (R150).
  -/
  | mirror (c : Fin 32) (t : Fin 128) (ra : BitVec 5) (err : CoreErr := .clean)
  /-- Every deferred entry of a disposition has been accepted by its unit, making counters,
  charges, learns, stamps and mirrors real (R147). -/
  | commitComplete
  /-- A data-policer charge reaches the POL block, refills lazily by timestamp and colours the
  packet (R341). -/
  | policerCharge
  /-- A running core fails: it stops, its packets are dropped, its index reads absent, and a
  cluster below 12 usable cores is retired (R26). -/
  | coreFail (c : Fin 32) (p : Fin 17)
  /-- A cluster's dead-ball condition holds for window cycles; it fires and auto-aborts or
  holds, or reports HALTED_DEP if a thread is halted (R104). -/
  | deadBall (c : Fin 32)
  /-- Writing db_resume performs the auto-abort steps on a cluster held by a dead ball (R118).
  -/
  | dbResume (c : Fin 32)
  /-- A thread has been in WAIT longer than the watch threshold, so LONG_WAIT is raised once
  (R106). -/
  | longWait (c : Fin 32) (t : Fin 128)
  /-- The debugger halts a thread at its next instruction boundary (R111). -/
  | dbgHalt (c : Fin 32) (t : Fin 128)
  /-- The debugger returns a halted thread to READY or WAIT (R111). -/
  | dbgResume (c : Fin 32) (t : Fin 128)
  /-- The debugger runs one instruction of a halted thread and halts it again (R111). -/
  | dbgStep (c : Fin 32) (t : Fin 128) (err : CoreErr)
  /-- The debugger makes a RESERVED channel slot VOID (R113). -/
  | releaseSlot (c : Fin 32) (ch : Fin 64) (i : Fin 32)
  /-- A write to CL_CTRL.enable requests a cluster start or stop under the lifecycle rule
  (R116). -/
  | clusterEnable (c : Fin 32) (on : Bool)
  /-- Self-test, core map, program load and zeroing complete, resident threads start and the
  cluster is ON (R116). -/
  | clusterStartDone (c : Fin 32) (failed : List (Fin 17))
  /-- drain_limit expires in STOPPING, and every packet still held is dropped with reason drain-
  abort (R116). -/
  | clusterDrainLimit (c : Fin 32)
  /-- Outstanding responses are completed, clocks are gated and the cluster is OFF (R116). -/
  | clusterStopDone (c : Fin 32)
  /-- The transaction engine takes the next batch in round-robin order, reading and checking its
  header (R217). -/
  | txnBatchTake (desc header records : DmaRead)
  /-- Stage a route on die or in the HBM extension of its slice (R189). -/
  | lpmInsert (ue : Bool)
  /-- Stage the deletion of a route, freeing its units (R189). -/
  | lpmDelete (ue : Bool)
  /-- Stage new data for an existing route (R221). -/
  | lpmModify (ue : Bool)
  /-- Stage an exact-match entry with cuckoo kicks and the table's eviction mode (R195). -/
  | exmInsert (ue : Bool)
  /-- Stage the deletion of an exact-match key (R222). -/
  | exmDelete (ue : Bool)
  /-- Stage new data for an existing exact-match key (R221). -/
  | exmModify (ue : Bool)
  /-- Stage a fast-break table entry in REFUSE mode (R173). -/
  | fbkInsert (ue : Bool)
  /-- Stage the deletion of a fast-break entry (R221). -/
  | fbkDelete (ue : Bool)
  /-- Stage a new action for a fast-break entry (R221). -/
  | fbkModify (ue : Bool)
  /-- Stage a fast-break template word after its range checks (R185). -/
  | fbkTemplateWrite (ue : Bool)
  /-- Stage a parse-graph register write into the inactive bank using the pipes' fourth entry
  slot (R55). -/
  | parseWrite (ue : Bool)
  /-- Stage next-hop data at an index (R205). -/
  | nhopWrite (ue : Bool)
  /-- Stage an ECMP or LAG group descriptor, checking the base alignment (R207). -/
  | groupDescWrite (ue : Bool)
  /-- Stage an ECMP or LAG pool slot (R207). -/
  | poolSlotWrite (ue : Bool)
  /-- Stage every slot of a group with its members in turn (R207). -/
  | groupFill (ue : Bool)
  /-- Stage a table's default action data (R188). -/
  | defaultDataWrite (ue : Bool)
  /-- Stage V, C, P and D at a TCAM position, with an optional order check (R255). -/
  | tcamWrite (ue : Bool)
  /-- Mark a LIVE TCAM entry LIVE_DEL, or free a STAGED one of the same batch (R255). -/
  | tcamDelete (ue : Bool)
  /-- Place a TCAM entry in priority order, shifting neighbours into a free position (R257). -/
  | tcamInsert (ue : Bool)
  /-- Make the lowest free slot of a leaf ADD_PEND for a rule (R272). -/
  | dtcInsert (ue : Bool)
  /-- Make a leaf slot DEL_PEND (R272). -/
  | dtcDelete (ue : Bool)
  /-- Write half a node line at staging (R272). -/
  | dtcNodeWrite (ue : Bool)
  /-- Write a quarter of a rule body at staging (R272). -/
  | dtcRuleWrite (ue : Bool)
  /-- Stage a tree root that takes effect at S (R272). -/
  | dtcRootWrite (ue : Bool)
  /-- Stage a queue's configuration, including an enable that requests start or flush (R300). -/
  | queueWrite (ue : Bool)
  /-- Stage an egress hierarchy node's configuration (R324). -/
  | schedWrite (ue : Bool)
  /-- Stage a shaper's configuration, applied at a refill boundary (R336). -/
  | shaperWrite (ue : Bool)
  /-- Stage a data policer's configuration (R343). -/
  | policerWrite (ue : Bool)
  /-- Stage an exception policer's configuration (R348). -/
  | excPolicerWrite (ue : Bool)
  /-- Write an administrative gate-list entry of a port (R356). -/
  | gateEntryWrite (ue : Bool)
  /-- Write a port's gate control record, with request copying entries to the pending list
  (R356). -/
  | gateControlWrite (ue : Bool)
  /-- Zero a range of counters (R208). -/
  | counterClear (ue : Bool)
  /-- Stage a write to a runtime-tunable register of the unit's range at a sequence point
  (R229). -/
  | txnRegWrite (ue : Bool)
  /-- Advance the age epoch at its sequence point and start aged-entry walks (R198). -/
  | ageTick (ue : Bool)
  /-- Read an entry, counter or register as of the operation's sequence point (R228). -/
  | txnRead (ue : Bool)
  /-- The coordinator chooses S and commits staged operations on both dies, or aborts, and posts
  results and completion (R223). -/
  | txnCommit
  /-- The earlier state an entry held is released, so a commit waiting in COMMIT_WAIT proceeds
  (R226). -/
  | commitWaitEnd
  /-- COMMIT_WAIT or unanswered staging exceeds wait_limit; an atomic batch aborts or the
  operation fails with TIMEOUT (R226). -/
  | txnWaitTimeout
  /-- No packet numbered below an entry's S can reach its unit, so the earlier state is released
  (R226). -/
  | entryStateRelease
  /-- When the die-to-die link is next UP, held Shoilany commits are delivered in sequence-point
  order ahead of every packet (R227). -/
  | heldCommitDeliver
  /-- An age walk reaches an entry and posts an AGED record if its age is at least age_limit
  (R199). -/
  | ageWalkStep (i : Fin 64)
  /-- At each interval an enabled shadow audit compares the next records with the unit,
  reporting and optionally repairing mismatches (R237). -/
  | auditStep (a : Fin 64) (header records again : DmaRead)
  /-- The scrub reads a row of every block and kills a row whose parity mismatches the shadow
  (R260). -/
  | tcamScrub (flips : List TcamFlip)
  /-- A packet reaching the queue manager is admitted to its queue or dropped under the first
  cause met (R297). -/
  | admission
  /-- Each cycle a spilling queue writes a tail block, reads a middle block, moves tail cells to
  the head or frees its context as conditions allow (R292). -/
  | spillStep (q : Fin 589824) (found : List CellFind)
  /-- A block write completes, freeing its on-die cells and adding the block to the middle in
  order (R293). -/
  | spillWriteDone (q : Fin 589824) (i : Nat)
  /-- A refill read returns cells and the record, which enter the head in block order, or is
  unreadable (R293). -/
  | refillReadDone (q : Fin 589824) (i : Nat) (ok : Bool) (found : List CellFind := [])
  /-- A mirror record read for a lost block shows void, normal or unreadable, and packets are
  skipped, dropped or resynchronised (R295). -/
  | mirrorRecordReadDone (q : Fin 589824) (ue : Bool) (found : List CellFind := [])
  /-- A queue's state is cleared and it becomes ON (R301). -/
  | queueStartDone (q : Fin 589824)
  /-- A stopping queue has discarded its packets and freed its cells, blocks and context, and is
  OFF (R301). -/
  | queueFlushDone (q : Fin 589824)
  /-- When the previous frame's last byte reaches the MAC, the port node selects the next frame
  through the hierarchy, charging deficits and shapers (R328). -/
  | portSelection (p : Fin 256) (found : List CellFind)
  /-- At each fabric-transmit slot the ingress scheduler selects a VOQ holding credit and sends
  its packet as cells (R331). -/
  | ingressSelection (found : List CellFind)
  /-- A VOQ empty for credit_hold with a positive balance releases its balance (R332). -/
  | creditHoldExpiry (q : Fin 524288)
  /-- At each refill boundary every enabled shaper's levels are refilled and pending changes
  applied (R335). -/
  | shaperRefill
  /-- At switch tick T a port's pending gate list becomes operational (R357). -/
  | gateListSwitch (p : Fin 256)
  /-- A frame leaves the final edit for the line; oversize or link-down frames are discarded,
  others protected and timestamped (R365). -/
  | txFrame (m : Fin 256)
  /-- A read of TS_FIFO pops one timestamp entry (R375). -/
  | tsFifoPop (m : Fin 256)
  /-- A write to PORT_CTRL.enable requests a port start or stop (R370). -/
  | portEnable (m : Fin 256) (v : Word)
  /-- SerDes settings are loaded, blocks released from reset and the port is ON (R370). -/
  | portStartDone (m : Fin 256)
  /-- Negotiation, training or adaptation completes and FEC and PCS lock (R370). -/
  | linkUp (m : Fin 256)
  /-- A port's link goes down; down_mode decides discard or hold (R365). -/
  | linkDown (m : Fin 256)
  /-- Receive and transmit stop at frame boundaries, lanes power down and the port is OFF
  (R370). -/
  | portStopDone (m : Fin 256)
  /-- An accepted data cell joins its reassembly context, and a completed packet goes to
  admission or is discarded (R397). -/
  | dataCellReceive
  /-- A fabric cell arrives; bad hcrc cells and misrouted cells are discarded, others passed on
  by type (R388). -/
  | fabricCellReceive (l : Fin 320) (header : BitVec 128) (payload : List Byte)
  /-- A REQUEST sets or creates the flow's estimate in the egress flow table (R392). -/
  | fabricRequest
  /-- A GRANT from the mapped source adds credit to its VOQ (R391). -/
  | fabricGrant
  /-- A port's grant budget holds a quantum, so a flow of the best class receives credit in a
  GRANT (R392). -/
  | grantIssue (p : Fin 256)
  /-- A flow entry whose estimate has been zero for 10 x req_interval is freed (R392). -/
  | flowEntryExpiry (src : Fin 1024) (sys : Fin 65536) (cls : Fin 8)
  /-- Every req_interval a non-empty VOQ without credit sends a REQUEST (R391). -/
  | requestInterval (q : Fin 524288)
  /-- ctrl_flush after its first message, a partly filled control cell is sent (R390). -/
  | ctrlFlush (dst : Fin 1024) (pair : Bool)
  /-- A waiting cell is handed to the first eligible lane after the previous cell's lane (R393).
  -/
  | cellHandoff
  /-- A reassembly context not complete after reasm_timeout is discarded with its cells (R397).
  -/
  | reasmTimeout (src : Fin 1024) (pkt : BitVec 23)
  /-- A HELLO link message is received and checked for validity and acknowledgement (R396). -/
  | linkHello (l : Fin 320)
  /-- A REACH chunk updates the lane's reach mask (R394). -/
  | linkReach (l : Fin 320)
  /-- A SYNC message lets the receiver free credit for cells it never received (R395). -/
  | linkSync (l : Fin 320)
  /-- A CREDIT message updates the sender's link credit (R395). -/
  | linkCredit (l : Fin 320)
  /-- At least every 1 microsecond an UP lane sends SYNC and CREDIT for both priorities (R395).
  -/
  | linkStatusSend (l : Fin 320)
  /-- Every 1 ms a lane sends all 32 REACH chunks (R395). -/
  | reachRefresh (l : Fin 320)
  /-- A write to LANE_EN requests fabric lanes ON or OFF (R401). -/
  | laneEnable (i : Fin 5) (v : Word)
  /-- Signal, equalisers and FEC lock are reached and the lane moves to ALIGN (R396). -/
  | laneSignalDone (l : Fin 320)
  /-- A lane still in SIGNAL after 100 ms posts FAB_LANE once (R396). -/
  | laneSignalTimeout (l : Fin 320)
  /-- In HELLO state the lane sends HELLO every 1 microsecond (R396). -/
  | laneHelloSend (l : Fin 320)
  /-- A lane without a completed HELLO exchange for 10 ms returns to SIGNAL (R396). -/
  | laneHelloTimeout (l : Fin 320)
  /-- An UP lane with too many uncorrectable codewords over 10 ms returns to SIGNAL (R396). -/
  | laneErrorRetrain (l : Fin 320) (corrected uncorrectable codewords : Nat)
  /-- A stopping lane sends its last cells and powers down (R396). -/
  | laneStopDone (l : Fin 320)
  /-- A granule request enters a controller's pending queue or waits at its input (R413). -/
  | hbmRequest (k : Fin 192) (tag : Nat) (cls : Fin 4) (gran : Fin 12582912) (wdata : Option (List Byte)) (more : Fin 64 := 0)
  /-- Each controller cycle the controller chooses the request whose commands it issues next
  (R414). -/
  | hbmSchedule (k : Fin 192)
  /-- A request waits its class's age limit and is promoted (R414). -/
  | hbmPromotion (k : Fin 192)
  /-- Read data return with ECC correction, or an uncorrectable error freezes the controller
  (R418). -/
  | hbmReadDone (k : Fin 192) (corrected : Nat) (ue : List HbmUe)
  /-- A write is acknowledged (R417). -/
  | hbmWriteDone (k : Fin 192)
  /-- A row open without access for idle_timer cycles is precharged (R420). -/
  | rowIdleTimeout (k : Fin 192) (bank : Fin 96)
  /-- A bank's refresh interval expires and it is refreshed or postponed up to 8 intervals
  (R421). -/
  | hbmRefresh (k : Fin 192) (bank : Fin 96) (postpone : Bool) (all : Bool := false)
  /-- The stack signals a command/address parity error, freezing the controller (R427). -/
  | caParityError (k : Fin 192) (cmd : Fin 64) (vector : BitVec 32)
  /-- A read of CAP_INFO while frozen sets capture_read (R442). -/
  | capInfoRead (k : Fin 192)
  /-- A write of release to a frozen channel with capture_read starts STOPPING, or is refused
  (R430). -/
  | channelRelease (k : Fin 192)
  /-- The pending queue is discarded and rows closed, and the channel is OFF (R430). -/
  | channelStopDone (k : Fin 192)
  /-- Retraining completes and the channel is ON, or returns to OFF with training_failed (R430).
  -/
  | channelStartDone (k : Fin 192) (failed : Bool) (temp : Int)
  /-- Write a training pattern to the training area (R440). -/
  | writePattern (k : Fin 192) (pc : Fin 2) (pattern : Fin 16) (bursts : BitVec 16) (saveUe : Nat)
  /-- Read the training area back and compare with the pattern (R440). -/
  | readCompare (k : Fin 192) (pc : Fin 2) (pattern : Fin 16) (bursts : BitVec 16)
  /-- Run command/address loopback training (R440). -/
  | caLoopback (k : Fin 192)
  /-- Set a lane's read delay tap (R440). -/
  | setRdDelay (k : Fin 192) (pc : Fin 2) (lane value : BitVec 8)
  /-- Set a lane's write delay tap (R440). -/
  | setWrDelay (k : Fin 192) (pc : Fin 2) (lane value : BitVec 8)
  /-- Set the reference voltage code (R440). -/
  | setVref (k : Fin 192) (pc : Fin 2) (lane value : BitVec 8)
  /-- Set the command/address delay (R440). -/
  | setCaDelay (k : Fin 192) (pc : Fin 2) (lane value : BitVec 8)
  /-- A training command completes, setting done and its error results (R441). -/
  | trainCommandDone (k : Fin 192) (errCount : Nat) (errMask : BitVec 36) (saveUe : Nat := 0)
  /-- Every osc_interval the WDQS oscillator check pauses a channel briefly (R426). -/
  | oscCheck (k : Fin 192)
  /-- A stack temperature change of retrain_delta starts retraining its channels one at a time
  (R426). -/
  | tempRetrain (k : Fin 192) (temp : Int)
  /-- A rally frame arrives; bad CRC and duplicates are discarded, data frames delivered in fseq
  order (R453). -/
  | rallyFrameReceive (i : Fin 8) (header : BitVec 128) (payload : List Byte)
  /-- ack has not advanced for 2 microseconds, so every frame after ack is resent (R453). -/
  | rallyResend
  /-- No good frame on any lane for 2 microseconds: the rally link is lost and step ends (R453).
  -/
  | rallyLost
  /-- A rally lane changes state; fewer than min_lanes UP ends step with RALLY_DEGRADED (R450).
  -/
  | rallyLaneState (i : Fin 8) (ev : RallyEvent)
  /-- A rally HELLO is received and the pair checks of grade, step_id, TWIN_ID and dev_id are
  made (R452). -/
  | rallyHello (i : Fin 8)
  /-- The follower takes each PKT entry, checks its head frame and enters it with the logged
  number and timestamp, or ends step (R456). -/
  | rallyPkt (beats : Nat) (d2dFull : Bool) (ue : List (Fin 1024)) (ce : Nat) (fcsDisagree : Bool)
  /-- The follower stages a forwarded batch and reports STAGED records (R461). -/
  | rallyTxn
  /-- The follower commits a forwarded batch at S before packet S (R462). -/
  | rallyCommit
  /-- The follower discards what it staged for an aborted batch (R461). -/
  | rallyAbort
  /-- The source receives the follower's staging outcome; a failure ends step with STAGE_FAIL
  (R461). -/
  | rallyStaged
  /-- No STAGED record arrives within stage_limit, ending step (R461). -/
  | stageTimeout
  /-- The follower posts a forwarded learn event or AGED record to its ring (R458). -/
  | rallyEvent
  /-- The follower holds a forwarded injected packet for its INJECT entry (R454). -/
  | rallyInject
  /-- The follower echoes a TIME record and steers device time from the round trip (R459). -/
  | rallyTimeSend (delay : Nat)
  /-- The source receives a TIME echo (R459). -/
  | rallyTimeEcho
  /-- The follower compares the source's window fold with its own, ending step on mismatch
  (R463). -/
  | rallyCheck
  /-- A window closes once no position in it is outstanding, and its fold is formed (R463). -/
  | foldWindowClose
  /-- The follower applies copied committed entries in stream order (R467). -/
  | rallyCopy
  /-- The source reads entries and sends COPY records at copy_rate (R467). -/
  | resyncCopySend
  /-- The follower stops discarding, holds its line input and returns HOLDING (R468). -/
  | copyDone
  /-- The source sets T_join, chooses J and sends JOIN before the PKT record beginning at J
  (R468). -/
  | holding
  /-- The follower discards or skips frames before T_join and enters ON (R468). -/
  | join
  /-- A LEAVE record ends in-step operation with cause PEER (R465). -/
  | leave
  /-- A HANDOVER record names H, from which the device gaining the serve becomes source (R469).
  -/
  | handover
  /-- A write to in_step_en requests entering or leaving step under the lifecycle rule (R466).
  -/
  | inStepEnable (on : Bool)
  /-- Writing relinquish on the serving source stops intake, places HANDOVER and releases the
  serve (R469). -/
  | relinquish
  /-- Neither device gains the serve within handover_limit, ending step (R469). -/
  | handoverTimeout
  /-- A GRANT from the umpire takes or renews the serve, or is ignored against the highest epoch
  (R473). -/
  | umpireGrant (f : UmpireFrame)
  /-- A PEER message records the partner's epoch for shadow scheduling (R477). -/
  | umpirePeer (f : UmpireFrame)
  /-- Every 4 microseconds the device sends HEARTBEAT and HEALTH to the umpire (R471). -/
  | heartbeatSend
  /-- The lease counter reaches zero, the serve is released, and a source without handover
  leaves step (R473). -/
  | leaseExpiry
  /-- A PIDX write to a host-posted ring hands descriptors to the device, or sets OVERRUN
  (R497). -/
  | ringDoorbell (r : Fin 2112) (pidx : BitVec 32)
  /-- A CIDX write to a device-written ring frees entries, or sets OVERRUN (R497). -/
  | ringCidxWrite (r : Fin 2112) (cidx : BitVec 32)
  /-- A RING_CFG or RING_BASE write is applied, or discarded while the ring runs if it changes
  fixed fields; enable requests start or stop (R500). -/
  | ringCfgWrite (r : Fin 2112) (isBase : Bool) (v : Word)
  /-- A ring's indices are zeroed, err_code cleared and it is ON (R503). -/
  | ringStartDone (r : Fin 2112)
  /-- A stopping ring finishes descriptors or records already taken, writes back and is OFF
  (R503). -/
  | ringStopDone (r : Fin 2112)
  /-- A device read completes with an error, failing a descriptor or stopping the ring and
  posting DMA_ERR (R498). -/
  | dmaReadError (r : Fin 2112) (use : DmaUse) (status : BitVec 8)
  /-- coal_timer after the first unsignalled entry, the ring sends its MSI-X message (R499). -/
  | coalesceTimer (r : Fin 2112)
  /-- A VF_RINGS write assigns rings to a VF, or is discarded as an access error (R502). -/
  | vfRingsWrite (v : Fin 63) (w : Word)
  /-- A Function Level Reset stops every ring of the function with err_code FLR (R504). -/
  | flr (fn : Fn)
  /-- PERST_N resets the endpoint and every ring, and nothing else (R504). -/
  | perst
  /-- A punt leaves the punt FIFO and is written to the next descriptor of its ring, or dropped
  (R514). -/
  | puntDeliver (descs : List DmaRead)
  /-- An inject ring's turn comes, its descriptor is checked and its packet read (R516). -/
  | injectDescriptor (desc : DmaRead) (buf : DmaRead)
  /-- An injected packet takes its sequence number at parser entry and the descriptor completes
  SENT (R516). -/
  | injectEntry (r : Fin 1024) (d2dFull : Bool) (ue : List (Fin 1024)) (ce : Nat)
  /-- PWRGOOD is asserted and the root PLL begins to lock (R595). -/
  | powerGood
  /-- The root PLL locks and the internal clocks start (R595). -/
  | pllLock
  /-- The root PLL loses lock and a device reset is held until lock returns (R597). -/
  | pllLockLoss
  /-- PWRGOOD low resets everything, forcing every function OFF (R615). -/
  | powerOnReset
  /-- RESET_N held low for 100 filtered cycles, RESTART, RESET_CTRL or a second watchdog expiry
  resets both dies (R615). -/
  | deviceReset (cause : ResetSource)
  /-- A write of 0xD1CE to RESET_CTRL begins a device reset; other values are refused (R618). -/
  | resetKeyWrite (key : BitVec 16)
  /-- A reset is released, straps are sampled and start-up begins in the boot ROM stage (R521).
  -/
  | resetRelease (twinId : Bool) (sel : Fin 4)
  /-- The boot ROM chooses a slot, verifies and loads its image, or stays in stage 0 with
  NO_IMAGE (R522). -/
  | stageImageLoad (a b : ImageInfo)
  /-- The firmware reads settings, chooses and verifies the playbook and checks it against the
  image (R524). -/
  | stagePlaybookRead (pb : PlaybookInfo)
  /-- All channels of all stacks are trained, failing channels marked training_failed (R423). -/
  | stageHbmTraining (failed : List (Fin 192)) (idFail : List (Fin 6)) (reports : List HbmStack := [])
  /-- Firmware, microcode and programs are loaded, registers set and clusters, queue manager and
  parser started (R521). -/
  | stageEngineLoad
  /-- The playbook's base tables are applied as non-atomic transactions (R521). -/
  | stageBaseTables
  /-- Ports and lanes are requested ON, registers are sealed and ready is set (R526). -/
  | stagePortEnable
  /-- Start-up reaches stage 7, groundskeeper tasks start and update sessions resume (R521). -/
  | stageRunning
  /-- A start-up stage exceeds its maximum and fails with TIMEOUT (R521). -/
  | bootStageTimeout
  /-- After 60 s in stage 7 boot_fail_count clears, the slot becomes GOOD and migrated settings
  are written (R559). -/
  | slotAcceptance
  /-- Return BOOT_STATUS, slot digests and the playbook step_id (R530). -/
  | getInfo (d : MboxDesc)
  /-- Write the response, then begin a device reset or management restart with a chosen playbook
  (R531). -/
  | restart (d : MboxDesc)
  /-- Write or clear the next-boot override in both settings copies (R530). -/
  | setOverride (d : MboxDesc)
  /-- Set calendar time from TAI seconds (R539). -/
  | setTime (d : MboxDesc)
  /-- Copy log entries from the on-die or flash ring to the buffer (R530). -/
  | logRead (d : MboxDesc)
  /-- Copy the lifetime record to the buffer (R530). -/
  | lifeRead (d : MboxDesc)
  /-- Copy all sensor values to the buffer (R530). -/
  | sensorRead (d : MboxDesc)
  /-- A mailbox command with an unlisted opcode returns UNKNOWN (R530). -/
  | mailboxUnknownOpcode (opcode : BitVec 16) (d : MboxDesc)
  /-- The management cores restart into the active slot while the data path continues, resuming
  in stage 7 or falling back (R532). -/
  | mgmtRestart (image : ImageInfo) (compatible : Bool) (programs : Option (List CoreProgram))
  /-- The sequencer samples a sensor and the thermal state is re-evaluated (R533). -/
  | sensorSample (i : Fin 158) (v : BitVec 16)
  /-- A droop detector sees a supply drop, counting it and posting DROOP at most once per second
  (R534). -/
  | droopDetect (i : Fin 16) (drop : BitVec 16 := 0xFFFF) (ns : BitVec 16 := 0xFFFF)
  /-- A NOTICE-or-higher log entry is written to the flash ring, erasing its oldest sector when
  needed (R536). -/
  | logFlashWrite
  /-- Every 600 s the lifetime record is written to the alternate half (R538). -/
  | lifetimeWrite
  /-- Every hour the margins are read and the core supply target raised by 5 mV if below 40 ps
  (R540). -/
  | avsCheck (margins : List (BitVec 16)) (unheld : Option (BitVec 16))
  /-- A cluster below margin for 24 h at 0.80 V has its weakest core retired (R541). -/
  | avsLimit (c : Fin 32) (weakest : Fin 17)
  /-- The calendar month or 30 powered days pass, starting the monthly deep scrub (R539). -/
  | deepScrubStart
  /-- The calendar year or 365 powered days pass, starting sensor and SerDes recalibration
  (R539). -/
  | yearlyRecal
  /-- The groundskeeper scrubs the next SRAM accesses within its budget (R542). -/
  | sramScrubStep (found : List ScrubFinding) (overBudget lastOfPass : Bool) (deep : Bool := false)
  /-- The groundskeeper scrubs HBM granules with SC3 reads, writing corrected data back (R542).
  -/
  | hbmScrubStep (chan : Fin 192) (granule : Fin 12582912) (tag : Nat) (overBudget lastOfPass : Bool) (deep : Bool := false)
  /-- The groundskeeper adapts and calibrates one SerDes quad (R542). -/
  | serdesAdaptStep (quad : Fin 146) (margin : BitVec 16) (overBudget lastOfPass : Bool)
  /-- The groundskeeper erases one flash sector for wear rotation (R542). -/
  | nvmWearStep
  /-- A write to TASK_CFG.enable requests a groundskeeper task start or stop (R542). -/
  | taskEnable (t : Fin 16) (v : Word)
  /-- A groundskeeper task ends its current step and is OFF (R542). -/
  | taskStopDone (t : Fin 9)
  /-- A kick restarts the watchdog period (R619). -/
  | wdogKick
  /-- The watchdog expires, causing a management restart or, on the second stage, a device reset
  (R619). -/
  | wdogExpiry
  /-- Open, join or be refused an update session for a manifest (R550). -/
  | updOpen (src : Fin 6) (d : MboxDesc) (buf : DmaRead) (sigOk : Bool)
  /-- Stage an update piece after its digest check (R552). -/
  | updPiece (src : Fin 6) (d : MboxDesc) (buf : DmaRead)
  /-- Return the session state and counts (R552). -/
  | updStatus (src : Fin 6) (d : MboxDesc)
  /-- Copy the staging bitmap to the buffer (R552). -/
  | updBitmap (src : Fin 6) (d : MboxDesc)
  /-- End the session and discard its pieces (R552). -/
  | updCancel (src : Fin 6) (d : MboxDesc)
  /-- Start applying a complete session's delta into its destination (R556). -/
  | updApply (src : Fin 6) (d : MboxDesc)
  /-- An apply ends, marking the destination READY or EMPTY (R556). -/
  | updApplyDone (ownCheckOk : Bool) (flashError : Bool)
  /-- Write the header with the named slot active and end the session as a retained set (R559).
  -/
  | updActivate (src : Fin 6) (d : MboxDesc)
  /-- Blow fuses until the fused version equals the running image's secver (R560). -/
  | updCommitVersion (src : Fin 6) (d : MboxDesc) (cut : Option (Fin 64) := none)
  /-- In settings safe mode, erase and rewrite both settings copies and reset (R564). -/
  | settingsReset (src : Fin 6) (d : MboxDesc)
  /-- A session idle for 604,800 powered seconds expires as if cancelled (R551). -/
  | sessionExpiry
  /-- A partner's WANT is answered with the wanted pieces as DATA (R555). -/
  | pieceWant
  /-- A piece from the partner is staged as from source 5 and answered with RESULT (R555). -/
  | pieceData
  /-- The partner's answer to a DATA piece is received (R555). -/
  | pieceResult
  /-- A counter configuration change zeroes the counter and starts the new selection (R571). -/
  | cntCfgWrite (g : Fin 321) (k : Fin 8) (v : Word)
  /-- A write of go zeroes all 8 counters of a group (R588). -/
  | clearGroup (g : BitVec 9)
  /-- At each sweep tick the scorekeeper reads every group into the sweep page and pushes it
  when due (R572). -/
  | sweep (busy : Bool := false)
  /-- Software or firmware fires a whistle, latching every counter, or it is refused when the
  set is not IDLE (R575). -/
  | whistleFire
  /-- Device time reaches WHISTLE_AT while armed, firing the whistle and clearing arm (R575). -/
  | whistleAtReached
  /-- The scorekeeper writes the whistle page, posts WHISTLE_DONE and sets READY (R576). -/
  | whistleSetReady (busy : Bool := false)
  /-- Writing release returns the whistle set to IDLE (R576). -/
  | whistleRelease
  /-- A trace record open for timeout ms closes with flag timeout (R582). -/
  | traceTimeout (slot : Fin 64)
  /-- Clearing TRACE_CFG.enable closes open records as aborted (R593). -/
  | traceDisable
  /-- 1 ms after the first unsignalled trace record, PF2 vector 2 is sent (R579). -/
  | traceMsiTimer
  /-- Writing go schedules a time step at TIME_ADJ_AT, replacing any pending step (R600). -/
  | timeAdjGo (step : BitVec 48)
  /-- At tick A device time steps, with gates, refills, sweeps and whistles handled across it
  (R601). -/
  | timeStep
  /-- A rising PPS_IN edge is captured in PPS_CAP (R603). -/
  | ppsInEdge
  /-- No PPS_IN edge for 1.5 s while it is the source posts PPS_LOST (R603). -/
  | ppsLost
  /-- PPS_OUT rises at the TAI second and falls after pps_width (R603). -/
  | ppsOutRise
  /-- A write to PD_CTRL requests a power domain start or stop, refused after sealing for non-
  software domains (R613). -/
  | pdEnable (n : Fin 24) (on : Bool)
  /-- A waiting domain takes the ramp slot and closes its switches, failing if a rail is low
  (R612). -/
  | pdRampSlotTake (lowRail : Option (Fin 158 × BitVec 16))
  /-- A domain's rails check, isolation releases, repairs apply and it is ON, starting its
  enabled functions (R612). -/
  | pdStartDone (n : Fin 24)
  /-- Every function of a stopping domain is OFF, isolation clamps and the switches open (R612).
  -/
  | pdStopDone (n : Fin 24)
  /-- Boundary-scan EXTEST, effective only during a device reset (R635). -/
  | jtagExtest (tdi : BitVec 104)
  /-- Return IDCODE 0x0512_09A7 (R635). -/
  | jtagIdcode
  /-- Sample or preload the boundary-scan register (R635). -/
  | jtagSamplePreload (pins tdi : BitVec 104)
  /-- Clamp outputs, effective only during a device reset (R635). -/
  | jtagClamp
  /-- Place outputs at high impedance, effective only during a device reset (R635). -/
  | jtagHighz
  /-- Select the RISC-V debug transport (R635). -/
  | jtagDebug (img : Option ImageInfo := none)
  /-- Select the bypass register, including for every unlisted code (R635). -/
  | jtagBypass
  /-- JTAG_TRST_N low holds the TAP in Test-Logic-Reset (R635). -/
  | jtagTrst
  /-- A word whose op, fn or cond is not listed, or whose reserved field is non-zero, reaches IS
  and raises ILLEGAL (R137). -/
  | illegal (c : Fin 32) (t : Fin 128) (w : BitVec 32)
  /-- Eight microseconds pass without a PEER naming a non-zero epoch on a device without the
  serve, so shadow scheduling stops and the gap holds begin (R477). -/
  | peerExpiry
  /-- A groundskeeper task in STARTING completes its start and enters ON (R542). -/
  | taskStartDone (t : Fin 9)
  /-- PERST_N is deasserted and the endpoint comes out of reset, answering configuration
  requests within 20 ms (R505). -/
  | perstRelease
  /-- The host unmasks an MSI-X vector whose Pending Bit is set, and the pending message is sent
  (R499). -/
  | msixVectorUnmask (fn : Fn) (vec : Fin 2048)
  deriving DecidableEq, Repr

end Sys2Proof
end

