-- ==== Sys2Proof/Decode.lean ====
section
/-! DEFINITION. The command that a word spells by the bits of the opcode table. The table gives no bits for any of its
rows, so no word spells a command. -/

namespace Sys2Proof

/-- The command read from an instruction word of `nbits` bits: none, since the opcode table gives its rows no bits. -/
def decodeTableWord (_nbits _w : Nat) : Option Instr := none

end Sys2Proof
end

