-- ==== Sys2Proof/Config.lean ====
section
/-! DEFINITION. What an implementation fixes and the spec leaves open: opaque constants, so that no
proof can see a value of them. -/

namespace Sys2Proof

/-- A value the spec leaves open, one for each count of the state's `freeCount`. DESIGN CHOICE, log entry 4. -/
opaque Config.freeValue : Nat → Word

/-- The severity of an event whose chapter gives none (R536, R512): 0 to 5 after reduction.
DESIGN CHOICE, log entry 4. -/
opaque Config.eventSeverity : Nat → Nat

/-- The bytes of the lifetime record, whose fields R538 gives and whose layout it does not.
DESIGN CHOICE, log entries 4, 64. -/
opaque Config.lifeBytes : List Nat → List Byte

/-- The default settings records of an image that writes a schema (R561). DESIGN CHOICE, log entries 4, 58. -/
opaque Config.defaultSettings : Nat → List (Nat × List Byte)

/-- The records an image's migration yields from those of another schema (R562): from, to, records.
DESIGN CHOICE, log entries 4, 58. -/
opaque Config.migrate : Nat → Nat → List (Nat × List Byte) → List (Nat × List Byte)

/-- The hash seed of the fast-break table, whose insertion follows R195 and whose buckets R173 does not give.
DESIGN CHOICE, log entry 4. -/
opaque Config.fbkSeed : Nat

/-- The cycles between the TIME records of an in-step source, which R459 does not give. DESIGN CHOICE, log entries 4, 52. -/
opaque Config.timeInterval : Nat

/-- The 32 bytes of a training pattern, by its code and the number of the burst (R440): the spec names the patterns and
gives neither their seeds nor their lanes. DESIGN CHOICE, log entries 4, 50. -/
opaque Config.trainPattern : Nat → Nat → BitVec 256

/-- The LPM pipe that serves a lookup, and the editor pipe that serves a packet, neither of which the spec names (R568).
DESIGN CHOICE, log entry 4. -/
opaque Config.lpmPipe : Nat → Nat
opaque Config.edtPipe : Nat → Nat

/-- The bytes of what a unit holds in a granule of HBM, given as numbers, where the spec gives no layout: data policers
(R411), routes and ways of exact-match buckets (R410). DESIGN CHOICE, log entries 4, 50. -/
opaque Config.unitBytes : List Nat → List Byte

end Sys2Proof
end

