-- ==== Sys2Proof/Machine/Regs.lean ====
section
/-! DEFINITION. The registers of BAR0: every register table of the spec as one row (its address,
its array dimensions, its sealing and its fields), and the places of its fields. Each row cites the
rule of its table. -/

namespace Sys2Proof.Machine

/-- The place of one field in a 64-bit register: its lowest bit and its width. -/
structure Fld where
  lo : Nat
  width : Nat
  deriving DecidableEq, Repr

/-- The types of register fields (R9). -/
inductive FTy
  | ro | rw | w1c | w1s | rc | wo
  deriving DecidableEq, Repr

/-- How a register is written after start-up: not sealed, runtime-tunable, sealed, or written by
transactions only (R526, R55, R229). -/
inductive Sealing
  | unsealed | tunable | sealed | txnOnly
  deriving DecidableEq, Repr

/-- One register array of BAR0: its base offset, its dimensions as (count, stride) pairs, its
sealing and its fields with their types. -/
structure RegRow where
  base : Nat
  dims : List (Nat × Nat)
  sealing : Sealing
  reset : Nat
  fields : List (Fld × FTy)
  deriving DecidableEq, Repr

/-- The registers of BAR0 by name (R4 to R619, each table's own rule). -/
inductive Reg
  | glb_IDENT | glb_BOOT_STATUS | glb_STRAPS | glb_LC_SUMMARY | glb_EVT_ROUTE | cpr_TIME
  | cpr_TIME_CFG | cpr_TAI_OFFSET | cpr_TIME_RATE | cpr_TIME_ADJ_AT | cpr_TIME_ADJ | cpr_PPS_CAP
  | cpr_RESET_CAUSE | cpr_RESET_CTRL | cpr_WDOG | cpr_PD_CTRL | cpr_PD_STATUS | mgs_SENSOR
  | mgs_THERM | gkp_TASK_CFG | gkp_TASK_STATUS | mgs_UPD_STATUS | mgs_SLOT_STATUS | gkp_AUDIT_CFG
  | gkp_AUDIT_ADDR | gkp_AUDIT_STATUS | gkp_AUDIT_LAST | pci_ERR_STATUS | pci_TXN_CFG
  | pci_TXN_STATUS | pci_TXN_LAST_SEQ | pci_VF_RINGS | pci_RING_BASE | pci_RING_CFG
  | pci_RING_PIDX | pci_RING_CIDX | pci_RING_WB | pci_RING_STATUS | twn_CFG | twn_TUNE | twn_CTRL
  | twn_STATUS | twn_EPOCH | twn_HEALTH | twn_HEALTH_WT | twn_PARTNER | twn_CNT | twn_RALLY_LANE
  | skp_CNT_CFG | skp_PERM | skp_CLEAR | skp_WHISTLE_CTRL | skp_WHISTLE_AT | skp_STATUS
  | skp_PUSH_CFG | skp_TRACE_CFG | skp_TRACE_SEED | skp_TRACE_STATUS | skp_TRACE_CIDX
  | lmac_PORT_CFG | lmac_PORT_CTRL | lmac_PORT_FC | lmac_PORT_STATUS | lmac_TS_FIFO
  | lmac_MSEC_CFG | lmac_CNT | prs_HORIZON | prs_STATUS | prs_D2D_DROP | prs_PORT_CFG
  | prs_MAL_ACT | prs_MAL_CNT | prs_NODE_CFG | prs_NODE_EXT | prs_NODE_CHK | prs_NODE_BR
  | dsp_DISP_CFG | dsp_DISP_STATUS | dsp_OK_CFG | dsp_OK_STATUS | dsp_RNG_SEED | dsp_DISP_SLOT
  | fpc_CL_CTRL | fpc_CL_STATUS | fpc_DB_CFG | fpc_DB_STATUS | fpc_DB_THREADS | fpc_WATCH_CFG
  | fpc_ERR_STATUS | fpc_DBG_CTRL | fpc_RESIDENT | fpc_EXC_STATUS | fpc_ROSTER | fpc_THREAD_STATE
  | fpc_CHAN_CFG | fpc_CHAN_STATUS | fpc_CHAN_SLOTS | fpc_EVT_CFG | fpc_EVT_STATUS | rau_CFG
  | rau_CNT | rau_BUF_STATUS | rau_PORT_CLASS | rau_NODE_PLAN | rau_PLAN | rau_TBL_DIR | fbk_CFG
  | fbk_PORT_EN | fbk_CNT | fbk_RECIPE | fbk_NODE_RCP | fbk_TMPL | lpm_SLICE_CFG
  | lpm_SLICE_STATUS | exm_AGE_EPOCH | exm_LEARN_STATUS | exm_CTR_STATUS | exm_TBL_CFG
  | exm_TBL_GEOM | exm_TBL_STATUS | exm_LEARN_PORT | exm_LEARN_CNT | tcm_TBL_CFG | tcm_BLK_STATUS
  | tcm_BLK_SEQ | tcm_SCRUB_CFG | tcm_SCRUB_STATUS | dtc_CACHE_STATUS | dtc_TBL_CFG
  | dtc_TBL_NODES | dtc_STATUS | dtc_SEQ | dtc_ROOT | lbh_PROF_CFG | lbh_PROF_MASK | lbh_PROF_SYM
  | lbh_TOEP_KEY | lbh_NODE_PROF | msc_SA_KEY | msc_SA_SALT | msc_SA_PN | msc_SC_CFG | msc_SC_SCI
  | fe_hmc_CH_CTRL | fe_hmc_SC_CFG | fe_hmc_PAGE_CFG | fe_hmc_CH_STATUS | fe_hmc_ERR_CNT
  | fe_hmc_TRAIN_CTRL | fe_hmc_TRAIN_RESULT | fe_hmc_CAP_INFO | fe_hmc_CAP_SYND | fe_hmc_CAP_CMD
  | fe_hmc_MAP_MASK | fe_hmc_RETRAIN_CFG | fe_hmc_REGION | qmg_CFG | qmg_STATUS | qmg_WRED_SEED
  | qmg_LOSS | qmg_SPILL_CNT | qmg_DROP_CNT | qmg_POOL_CFG | qmg_WRED | qmg_GRP_CFG | qmg_WM_CFG
  | qmg_WM_STATUS | qmg_WM_PEAK | qmg_CH_STATUS | buf_CE_CNT | buf_STATUS | sch_ING_CFG
  | sch_STATUS | shp_STATUS | pol_CFG | pol_STATUS | tgt_PORT_CFG | tgt_PORT_STATUS | fab_CFG
  | fab_GRANT_CFG | fab_REASM_STATUS | fab_MSG_STATUS | fab_MISC_STATUS | fab_LANE_EN
  | fab_EQ_MAP | fab_LANE_STATUS | fab_LANE_ERR | fab_SYS_MAP | tm_hmc_CH_CTRL | tm_hmc_SC_CFG
  | tm_hmc_PAGE_CFG | tm_hmc_CH_STATUS | tm_hmc_ERR_CNT | tm_hmc_TRAIN_CTRL | tm_hmc_TRAIN_RESULT
  | tm_hmc_CAP_INFO | tm_hmc_CAP_SYND | tm_hmc_CAP_CMD | tm_hmc_MAP_MASK | tm_hmc_RETRAIN_CFG
  | tm_hmc_CARVE | d2d_STATUS | d2d_MOD_STATUS | d2d_MOD_ERR
  deriving DecidableEq, Repr

/-- Field part_number of pk.glb.IDENT (R4). -/
def f_glb_IDENT_part_number : Fld := ⟨48, 16⟩
/-- Field step_major of pk.glb.IDENT (R4). -/
def f_glb_IDENT_step_major : Fld := ⟨44, 4⟩
/-- Field step_minor of pk.glb.IDENT (R4). -/
def f_glb_IDENT_step_minor : Fld := ⟨40, 4⟩
/-- Field grade of pk.glb.IDENT (R4). -/
def f_glb_IDENT_grade : Fld := ⟨36, 4⟩
/-- Field fe_die_rev of pk.glb.IDENT (R4). -/
def f_glb_IDENT_fe_die_rev : Fld := ⟨24, 8⟩
/-- Field tm_die_rev of pk.glb.IDENT (R4). -/
def f_glb_IDENT_tm_die_rev : Fld := ⟨16, 8⟩
/-- Field ident_ver of pk.glb.IDENT (R4). -/
def f_glb_IDENT_ident_ver : Fld := ⟨8, 8⟩
/-- Field elapsed of pk.glb.BOOT_STATUS (R494). -/
def f_glb_BOOT_STATUS_elapsed : Fld := ⟨32, 16⟩
/-- Field fail_code of pk.glb.BOOT_STATUS (R494). -/
def f_glb_BOOT_STATUS_fail_code : Fld := ⟨24, 8⟩
/-- Field playbook of pk.glb.BOOT_STATUS (R494). -/
def f_glb_BOOT_STATUS_playbook : Fld := ⟨18, 2⟩
/-- Field slot of pk.glb.BOOT_STATUS (R494). -/
def f_glb_BOOT_STATUS_slot : Fld := ⟨17, 1⟩
/-- Field stage of pk.glb.BOOT_STATUS (R494). -/
def f_glb_BOOT_STATUS_stage : Fld := ⟨4, 4⟩
/-- Field ready of pk.glb.BOOT_STATUS (R494). -/
def f_glb_BOOT_STATUS_ready : Fld := ⟨0, 1⟩
/-- Field twin_id of pk.glb.STRAPS (R495). -/
def f_glb_STRAPS_twin_id : Fld := ⟨2, 1⟩
/-- Field playbook_sel of pk.glb.STRAPS (R495). -/
def f_glb_STRAPS_playbook_sel : Fld := ⟨0, 2⟩
/-- Field pd_busy of pk.glb.LC_SUMMARY (R495). -/
def f_glb_LC_SUMMARY_pd_busy : Fld := ⟨24, 24⟩
/-- Field pd_on of pk.glb.LC_SUMMARY (R495). -/
def f_glb_LC_SUMMARY_pd_on : Fld := ⟨0, 24⟩
/-- Field enable of pk.glb.EVT_ROUTE (R511). -/
def f_glb_EVT_ROUTE_enable : Fld := ⟨3, 1⟩
/-- Field ring of pk.glb.EVT_ROUTE (R511). -/
def f_glb_EVT_ROUTE_ring : Fld := ⟨0, 3⟩
/-- Field tick of pk.cpr.TIME (R604). -/
def f_cpr_TIME_tick : Fld := ⟨0, 64⟩
/-- Field pps_width of pk.cpr.TIME_CFG (R605). -/
def f_cpr_TIME_CFG_pps_width : Fld := ⟨16, 16⟩
/-- Field pps_en of pk.cpr.TIME_CFG (R605). -/
def f_cpr_TIME_CFG_pps_en : Fld := ⟨9, 1⟩
/-- Field tai_valid of pk.cpr.TIME_CFG (R605). -/
def f_cpr_TIME_CFG_tai_valid : Fld := ⟨8, 1⟩
/-- Field src of pk.cpr.TIME_CFG (R605). -/
def f_cpr_TIME_CFG_src : Fld := ⟨0, 3⟩
/-- Field offset of pk.cpr.TAI_OFFSET (R606). -/
def f_cpr_TAI_OFFSET_offset : Fld := ⟨0, 64⟩
/-- Field rate_ppb of pk.cpr.TIME_RATE (R606). -/
def f_cpr_TIME_RATE_rate_ppb : Fld := ⟨0, 32⟩
/-- Field tick of pk.cpr.TIME_ADJ_AT (R607). -/
def f_cpr_TIME_ADJ_AT_tick : Fld := ⟨0, 64⟩
/-- Field go of pk.cpr.TIME_ADJ (R607). -/
def f_cpr_TIME_ADJ_go : Fld := ⟨63, 1⟩
/-- Field pending of pk.cpr.TIME_ADJ (R607). -/
def f_cpr_TIME_ADJ_pending : Fld := ⟨62, 1⟩
/-- Field step of pk.cpr.TIME_ADJ (R607). -/
def f_cpr_TIME_ADJ_step : Fld := ⟨0, 48⟩
/-- Field new of pk.cpr.PPS_CAP (R608). -/
def f_cpr_PPS_CAP_new : Fld := ⟨63, 1⟩
/-- Field tick of pk.cpr.PPS_CAP (R608). -/
def f_cpr_PPS_CAP_tick : Fld := ⟨0, 63⟩
/-- Field device_resets of pk.cpr.RESET_CAUSE (R617). -/
def f_cpr_RESET_CAUSE_device_resets : Fld := ⟨48, 16⟩
/-- Field mgmt_restarts of pk.cpr.RESET_CAUSE (R617). -/
def f_cpr_RESET_CAUSE_mgmt_restarts : Fld := ⟨32, 16⟩
/-- Field cause of pk.cpr.RESET_CAUSE (R617). -/
def f_cpr_RESET_CAUSE_cause : Fld := ⟨0, 8⟩
/-- Field key of pk.cpr.RESET_CTRL (R618). -/
def f_cpr_RESET_CTRL_key : Fld := ⟨0, 16⟩
/-- Field kick of pk.cpr.WDOG (R619). -/
def f_cpr_WDOG_kick : Fld := ⟨63, 1⟩
/-- Field expiries of pk.cpr.WDOG (R619). -/
def f_cpr_WDOG_expiries : Fld := ⟨16, 16⟩
/-- Field period of pk.cpr.WDOG (R619). -/
def f_cpr_WDOG_period : Fld := ⟨1, 15⟩
/-- Field enable of pk.cpr.WDOG (R619). -/
def f_cpr_WDOG_enable : Fld := ⟨0, 1⟩
/-- Field enable of pk.cpr.PD_CTRL (R613). -/
def f_cpr_PD_CTRL_enable : Fld := ⟨0, 1⟩
/-- Field starts of pk.cpr.PD_STATUS (R614). -/
def f_cpr_PD_STATUS_starts : Fld := ⟨48, 16⟩
/-- Field last_start of pk.cpr.PD_STATUS (R614). -/
def f_cpr_PD_STATUS_last_start : Fld := ⟨32, 16⟩
/-- Field fail of pk.cpr.PD_STATUS (R614). -/
def f_cpr_PD_STATUS_fail : Fld := ⟨7, 1⟩
/-- Field waiting of pk.cpr.PD_STATUS (R614). -/
def f_cpr_PD_STATUS_waiting : Fld := ⟨6, 1⟩
/-- Field stop_pending of pk.cpr.PD_STATUS (R614). -/
def f_cpr_PD_STATUS_stop_pending : Fld := ⟨5, 1⟩
/-- Field restart_pending of pk.cpr.PD_STATUS (R614). -/
def f_cpr_PD_STATUS_restart_pending : Fld := ⟨4, 1⟩
/-- Field state of pk.cpr.PD_STATUS (R614). -/
def f_cpr_PD_STATUS_state : Fld := ⟨0, 2⟩
/-- Field max of pk.mgs.SENSOR (R535). -/
def f_mgs_SENSOR_max : Fld := ⟨32, 16⟩
/-- Field value of pk.mgs.SENSOR (R535). -/
def f_mgs_SENSOR_value : Fld := ⟨0, 16⟩
/-- Field droop_mv of pk.mgs.THERM (R535). -/
def f_mgs_THERM_droop_mv : Fld := ⟨16, 8⟩
/-- Field hottest of pk.mgs.THERM (R535). -/
def f_mgs_THERM_hottest : Fld := ⟨8, 8⟩
/-- Field state of pk.mgs.THERM (R535). -/
def f_mgs_THERM_state : Fld := ⟨0, 2⟩
/-- Field retire_restart of pk.gkp.TASK_CFG (R543). -/
def f_gkp_TASK_CFG_retire_restart : Fld := ⟨8, 1⟩
/-- Field enable of pk.gkp.TASK_CFG (R543). -/
def f_gkp_TASK_CFG_enable : Fld := ⟨0, 1⟩
/-- Field passes of pk.gkp.TASK_STATUS (R543). -/
def f_gkp_TASK_STATUS_passes : Fld := ⟨32, 32⟩
/-- Field delays of pk.gkp.TASK_STATUS (R543). -/
def f_gkp_TASK_STATUS_delays : Fld := ⟨16, 16⟩
/-- Field stop_pending of pk.gkp.TASK_STATUS (R543). -/
def f_gkp_TASK_STATUS_stop_pending : Fld := ⟨3, 1⟩
/-- Field restart_pending of pk.gkp.TASK_STATUS (R543). -/
def f_gkp_TASK_STATUS_restart_pending : Fld := ⟨2, 1⟩
/-- Field state of pk.gkp.TASK_STATUS (R543). -/
def f_gkp_TASK_STATUS_state : Fld := ⟨0, 2⟩
/-- Field staged of pk.mgs.UPD_STATUS (R566). -/
def f_mgs_UPD_STATUS_staged : Fld := ⟨48, 16⟩
/-- Field piece_count of pk.mgs.UPD_STATUS (R566). -/
def f_mgs_UPD_STATUS_piece_count : Fld := ⟨32, 16⟩
/-- Field holder of pk.mgs.UPD_STATUS (R566). -/
def f_mgs_UPD_STATUS_holder : Fld := ⟨24, 8⟩
/-- Field last_detail of pk.mgs.UPD_STATUS (R566). -/
def f_mgs_UPD_STATUS_last_detail : Fld := ⟨16, 8⟩
/-- Field retained of pk.mgs.UPD_STATUS (R566). -/
def f_mgs_UPD_STATUS_retained : Fld := ⟨4, 1⟩
/-- Field state of pk.mgs.UPD_STATUS (R566). -/
def f_mgs_UPD_STATUS_state : Fld := ⟨0, 3⟩
/-- Field fused of pk.mgs.SLOT_STATUS (R567). -/
def f_mgs_SLOT_STATUS_fused : Fld := ⟨40, 6⟩
/-- Field running_secver of pk.mgs.SLOT_STATUS (R567). -/
def f_mgs_SLOT_STATUS_running_secver : Fld := ⟨34, 6⟩
/-- Field active of pk.mgs.SLOT_STATUS (R567). -/
def f_mgs_SLOT_STATUS_active : Fld := ⟨32, 1⟩
/-- Field reason_b of pk.mgs.SLOT_STATUS (R567). -/
def f_mgs_SLOT_STATUS_reason_b : Fld := ⟨24, 8⟩
/-- Field state_b of pk.mgs.SLOT_STATUS (R567). -/
def f_mgs_SLOT_STATUS_state_b : Fld := ⟨16, 8⟩
/-- Field reason_a of pk.mgs.SLOT_STATUS (R567). -/
def f_mgs_SLOT_STATUS_reason_a : Fld := ⟨8, 8⟩
/-- Field state_a of pk.mgs.SLOT_STATUS (R567). -/
def f_mgs_SLOT_STATUS_state_a : Fld := ⟨0, 8⟩
/-- Field enable of pk.gkp.AUDIT_CFG (R241). -/
def f_gkp_AUDIT_CFG_enable : Fld := ⟨63, 1⟩
/-- Field repair of pk.gkp.AUDIT_CFG (R241). -/
def f_gkp_AUDIT_CFG_repair : Fld := ⟨62, 1⟩
/-- Field unit of pk.gkp.AUDIT_CFG (R241). -/
def f_gkp_AUDIT_CFG_unit : Fld := ⟨32, 16⟩
/-- Field step_entries of pk.gkp.AUDIT_CFG (R241). -/
def f_gkp_AUDIT_CFG_step_entries : Fld := ⟨16, 16⟩
/-- Field interval of pk.gkp.AUDIT_CFG (R241). -/
def f_gkp_AUDIT_CFG_interval : Fld := ⟨0, 16⟩
/-- Field addr of pk.gkp.AUDIT_ADDR (R242). -/
def f_gkp_AUDIT_ADDR_addr : Fld := ⟨6, 58⟩
/-- Field mismatches of pk.gkp.AUDIT_STATUS (R243). -/
def f_gkp_AUDIT_STATUS_mismatches : Fld := ⟨48, 16⟩
/-- Field repairs of pk.gkp.AUDIT_STATUS (R243). -/
def f_gkp_AUDIT_STATUS_repairs : Fld := ⟨32, 16⟩
/-- Field skipped of pk.gkp.AUDIT_STATUS (R243). -/
def f_gkp_AUDIT_STATUS_skipped : Fld := ⟨16, 16⟩
/-- Field passes of pk.gkp.AUDIT_STATUS (R243). -/
def f_gkp_AUDIT_STATUS_passes : Fld := ⟨0, 16⟩
/-- Field record of pk.gkp.AUDIT_LAST (R243). -/
def f_gkp_AUDIT_LAST_record : Fld := ⟨0, 64⟩
/-- Field count of pk.pci.ERR_STATUS (R508). -/
def f_pci_ERR_STATUS_count : Fld := ⟨48, 16⟩
/-- Field last_kind of pk.pci.ERR_STATUS (R508). -/
def f_pci_ERR_STATUS_last_kind : Fld := ⟨44, 4⟩
/-- Field last_func of pk.pci.ERR_STATUS (R508). -/
def f_pci_ERR_STATUS_last_func : Fld := ⟨41, 3⟩
/-- Field last_vf of pk.pci.ERR_STATUS (R508). -/
def f_pci_ERR_STATUS_last_vf : Fld := ⟨35, 6⟩
/-- Field last_offset of pk.pci.ERR_STATUS (R508). -/
def f_pci_ERR_STATUS_last_offset : Fld := ⟨0, 28⟩
/-- Field wait_limit of pk.pci.TXN_CFG (R233). -/
def f_pci_TXN_CFG_wait_limit : Fld := ⟨0, 16⟩
/-- Field committed of pk.pci.TXN_STATUS (R234). -/
def f_pci_TXN_STATUS_committed : Fld := ⟨40, 24⟩
/-- Field aborted of pk.pci.TXN_STATUS (R234). -/
def f_pci_TXN_STATUS_aborted : Fld := ⟨24, 16⟩
/-- Field wait_unit of pk.pci.TXN_STATUS (R234). -/
def f_pci_TXN_STATUS_wait_unit : Fld := ⟨2, 16⟩
/-- Field state of pk.pci.TXN_STATUS (R234). -/
def f_pci_TXN_STATUS_state : Fld := ⟨0, 2⟩
/-- Field seq of pk.pci.TXN_LAST_SEQ (R235). -/
def f_pci_TXN_LAST_SEQ_seq : Fld := ⟨0, 64⟩
/-- Field inject_count of pk.pci.VF_RINGS (R502). -/
def f_pci_VF_RINGS_inject_count : Fld := ⟨27, 7⟩
/-- Field inject_base of pk.pci.VF_RINGS (R502). -/
def f_pci_VF_RINGS_inject_base : Fld := ⟨17, 10⟩
/-- Field punt_count of pk.pci.VF_RINGS (R502). -/
def f_pci_VF_RINGS_punt_count : Fld := ⟨10, 7⟩
/-- Field punt_base of pk.pci.VF_RINGS (R502). -/
def f_pci_VF_RINGS_punt_base : Fld := ⟨0, 10⟩
/-- Field base of pk.pci.RING_BASE (R500). -/
def f_pci_RING_BASE_base : Fld := ⟨12, 52⟩
/-- Field enable of pk.pci.RING_CFG (R500). -/
def f_pci_RING_CFG_enable : Fld := ⟨63, 1⟩
/-- Field size_log2 of pk.pci.RING_CFG (R500). -/
def f_pci_RING_CFG_size_log2 : Fld := ⟨58, 5⟩
/-- Field coal_count of pk.pci.RING_CFG (R500). -/
def f_pci_RING_CFG_coal_count : Fld := ⟨40, 8⟩
/-- Field coal_timer of pk.pci.RING_CFG (R500). -/
def f_pci_RING_CFG_coal_timer : Fld := ⟨24, 16⟩
/-- Field mode_mask of pk.pci.RING_CFG (R500). -/
def f_pci_RING_CFG_mode_mask : Fld := ⟨21, 3⟩
/-- Field fixed of pk.pci.RING_CFG (R500). -/
def f_pci_RING_CFG_fixed : Fld := ⟨20, 1⟩
/-- Field target of pk.pci.RING_CFG (R500). -/
def f_pci_RING_CFG_target : Fld := ⟨0, 20⟩
/-- Field pidx of pk.pci.RING_PIDX (R500). -/
def f_pci_RING_PIDX_pidx : Fld := ⟨0, 32⟩
/-- Field index of pk.pci.RING_CIDX (R500). -/
def f_pci_RING_CIDX_index : Fld := ⟨0, 32⟩
/-- Field wb_addr of pk.pci.RING_WB (R500). -/
def f_pci_RING_WB_wb_addr : Fld := ⟨3, 61⟩
/-- Field wb_en of pk.pci.RING_WB (R500). -/
def f_pci_RING_WB_wb_en : Fld := ⟨0, 1⟩
/-- Field drops of pk.pci.RING_STATUS (R500). -/
def f_pci_RING_STATUS_drops : Fld := ⟨32, 32⟩
/-- Field err_code of pk.pci.RING_STATUS (R500). -/
def f_pci_RING_STATUS_err_code : Fld := ⟨4, 4⟩
/-- Field stop_pending of pk.pci.RING_STATUS (R500). -/
def f_pci_RING_STATUS_stop_pending : Fld := ⟨3, 1⟩
/-- Field restart_pending of pk.pci.RING_STATUS (R500). -/
def f_pci_RING_STATUS_restart_pending : Fld := ⟨2, 1⟩
/-- Field state of pk.pci.RING_STATUS (R500). -/
def f_pci_RING_STATUS_state : Fld := ⟨0, 2⟩
/-- Field min_lanes of pk.twn.CFG (R479). -/
def f_twn_CFG_min_lanes : Fld := ⟨8, 4⟩
/-- Field enable of pk.twn.CFG (R479). -/
def f_twn_CFG_enable : Fld := ⟨0, 1⟩
/-- Field lag_limit of pk.twn.TUNE (R480). -/
def f_twn_TUNE_lag_limit : Fld := ⟨48, 16⟩
/-- Field stage_limit of pk.twn.TUNE (R480). -/
def f_twn_TUNE_stage_limit : Fld := ⟨32, 16⟩
/-- Field ts_tol of pk.twn.TUNE (R480). -/
def f_twn_TUNE_ts_tol : Fld := ⟨24, 8⟩
/-- Field copy_rate of pk.twn.TUNE (R480). -/
def f_twn_TUNE_copy_rate : Fld := ⟨16, 8⟩
/-- Field handover_limit of pk.twn.TUNE (R480). -/
def f_twn_TUNE_handover_limit : Fld := ⟨0, 16⟩
/-- Field force_ready of pk.twn.CTRL (R481). -/
def f_twn_CTRL_force_ready : Fld := ⟨3, 1⟩
/-- Field relinquish of pk.twn.CTRL (R481). -/
def f_twn_CTRL_relinquish : Fld := ⟨2, 1⟩
/-- Field in_step_en of pk.twn.CTRL (R481). -/
def f_twn_CTRL_in_step_en : Fld := ⟨0, 1⟩
/-- Field break_cause of pk.twn.STATUS (R482). -/
def f_twn_STATUS_break_cause : Fld := ⟨56, 8⟩
/-- Field lanes_up of pk.twn.STATUS (R482). -/
def f_twn_STATUS_lanes_up : Fld := ⟨52, 4⟩
/-- Field lag of pk.twn.STATUS (R482). -/
def f_twn_STATUS_lag : Fld := ⟨36, 16⟩
/-- Field handover of pk.twn.STATUS (R482). -/
def f_twn_STATUS_handover : Fld := ⟨7, 1⟩
/-- Field log_source of pk.twn.STATUS (R482). -/
def f_twn_STATUS_log_source : Fld := ⟨6, 1⟩
/-- Field serve of pk.twn.STATUS (R482). -/
def f_twn_STATUS_serve : Fld := ⟨5, 1⟩
/-- Field stop_pending of pk.twn.STATUS (R482). -/
def f_twn_STATUS_stop_pending : Fld := ⟨4, 1⟩
/-- Field restart_pending of pk.twn.STATUS (R482). -/
def f_twn_STATUS_restart_pending : Fld := ⟨3, 1⟩
/-- Field state of pk.twn.STATUS (R482). -/
def f_twn_STATUS_state : Fld := ⟨0, 2⟩
/-- Field highest of pk.twn.EPOCH (R483). -/
def f_twn_EPOCH_highest : Fld := ⟨32, 32⟩
/-- Field held of pk.twn.EPOCH (R483). -/
def f_twn_EPOCH_held : Fld := ⟨0, 32⟩
/-- Field word of pk.twn.HEALTH (R484). -/
def f_twn_HEALTH_word : Fld := ⟨0, 32⟩
/-- Field port_wt of pk.twn.HEALTH_WT (R485). -/
def f_twn_HEALTH_WT_port_wt : Fld := ⟨24, 8⟩
/-- Field fab_wt of pk.twn.HEALTH_WT (R485). -/
def f_twn_HEALTH_WT_fab_wt : Fld := ⟨16, 8⟩
/-- Field d2d_wt of pk.twn.HEALTH_WT (R485). -/
def f_twn_HEALTH_WT_d2d_wt : Fld := ⟨8, 8⟩
/-- Field hbm_wt of pk.twn.HEALTH_WT (R485). -/
def f_twn_HEALTH_WT_hbm_wt : Fld := ⟨0, 8⟩
/-- Field step_id of pk.twn.PARTNER (R488). -/
def f_twn_PARTNER_step_id : Fld := ⟨32, 32⟩
/-- Field dev_id of pk.twn.PARTNER (R488). -/
def f_twn_PARTNER_dev_id : Fld := ⟨22, 10⟩
/-- Field grade of pk.twn.PARTNER (R488). -/
def f_twn_PARTNER_grade : Fld := ⟨18, 4⟩
/-- Field twin_id of pk.twn.PARTNER (R488). -/
def f_twn_PARTNER_twin_id : Fld := ⟨17, 1⟩
/-- Field valid of pk.twn.PARTNER (R488). -/
def f_twn_PARTNER_valid : Fld := ⟨16, 1⟩
/-- Field count of pk.twn.CNT (R486). -/
def f_twn_CNT_count : Fld := ⟨0, 48⟩
/-- Field crc_errors of pk.twn.RALLY_LANE (R487). -/
def f_twn_RALLY_LANE_crc_errors : Fld := ⟨32, 32⟩
/-- Field retrains of pk.twn.RALLY_LANE (R487). -/
def f_twn_RALLY_LANE_retrains : Fld := ⟨16, 16⟩
/-- Field state of pk.twn.RALLY_LANE (R487). -/
def f_twn_RALLY_LANE_state : Fld := ⟨0, 3⟩
/-- Field threshold of pk.skp.CNT_CFG (R586). -/
def f_skp_CNT_CFG_threshold : Fld := ⟨48, 16⟩
/-- Field mode of pk.skp.CNT_CFG (R586). -/
def f_skp_CNT_CFG_mode : Fld := ⟨8, 2⟩
/-- Field source of pk.skp.CNT_CFG (R586). -/
def f_skp_CNT_CFG_source : Fld := ⟨0, 6⟩
/-- Field vf of pk.skp.PERM (R587). -/
def f_skp_PERM_vf : Fld := ⟨1, 1⟩
/-- Field score of pk.skp.PERM (R587). -/
def f_skp_PERM_score : Fld := ⟨0, 1⟩
/-- Field go of pk.skp.CLEAR (R588). -/
def f_skp_CLEAR_go : Fld := ⟨63, 1⟩
/-- Field group of pk.skp.CLEAR (R588). -/
def f_skp_CLEAR_group : Fld := ⟨0, 9⟩
/-- Field late of pk.skp.WHISTLE_CTRL (R589). -/
def f_skp_WHISTLE_CTRL_late : Fld := ⟨3, 1⟩
/-- Field arm of pk.skp.WHISTLE_CTRL (R589). -/
def f_skp_WHISTLE_CTRL_arm : Fld := ⟨2, 1⟩
/-- Field release of pk.skp.WHISTLE_CTRL (R589). -/
def f_skp_WHISTLE_CTRL_release : Fld := ⟨1, 1⟩
/-- Field fire of pk.skp.WHISTLE_CTRL (R589). -/
def f_skp_WHISTLE_CTRL_fire : Fld := ⟨0, 1⟩
/-- Field tick of pk.skp.WHISTLE_AT (R590). -/
def f_skp_WHISTLE_AT_tick : Fld := ⟨0, 64⟩
/-- Field sweep of pk.skp.STATUS (R591). -/
def f_skp_STATUS_sweep : Fld := ⟨32, 32⟩
/-- Field refused of pk.skp.STATUS (R591). -/
def f_skp_STATUS_refused : Fld := ⟨16, 16⟩
/-- Field pushes_skipped of pk.skp.STATUS (R591). -/
def f_skp_STATUS_pushes_skipped : Fld := ⟨4, 12⟩
/-- Field whistle_state of pk.skp.STATUS (R591). -/
def f_skp_STATUS_whistle_state : Fld := ⟨0, 2⟩
/-- Field addr of pk.skp.PUSH_CFG (R592). -/
def f_skp_PUSH_CFG_addr : Fld := ⟨17, 47⟩
/-- Field every_log2 of pk.skp.PUSH_CFG (R592). -/
def f_skp_PUSH_CFG_every_log2 : Fld := ⟨1, 4⟩
/-- Field enable of pk.skp.PUSH_CFG (R592). -/
def f_skp_PUSH_CFG_enable : Fld := ⟨0, 1⟩
/-- Field timeout of pk.skp.TRACE_CFG (R593). -/
def f_skp_TRACE_CFG_timeout : Fld := ⟨48, 16⟩
/-- Field k of pk.skp.TRACE_CFG (R593). -/
def f_skp_TRACE_CFG_k : Fld := ⟨8, 5⟩
/-- Field mode of pk.skp.TRACE_CFG (R593). -/
def f_skp_TRACE_CFG_mode : Fld := ⟨2, 1⟩
/-- Field accept_fabric of pk.skp.TRACE_CFG (R593). -/
def f_skp_TRACE_CFG_accept_fabric : Fld := ⟨1, 1⟩
/-- Field enable of pk.skp.TRACE_CFG (R593). -/
def f_skp_TRACE_CFG_enable : Fld := ⟨0, 1⟩
/-- Field seed of pk.skp.TRACE_SEED (R593). -/
def f_skp_TRACE_SEED_seed : Fld := ⟨0, 64⟩
/-- Field pidx of pk.skp.TRACE_STATUS (R594). -/
def f_skp_TRACE_STATUS_pidx : Fld := ⟨32, 32⟩
/-- Field missed of pk.skp.TRACE_STATUS (R594). -/
def f_skp_TRACE_STATUS_missed : Fld := ⟨16, 16⟩
/-- Field overwritten of pk.skp.TRACE_STATUS (R594). -/
def f_skp_TRACE_STATUS_overwritten : Fld := ⟨8, 8⟩
/-- Field in_flight of pk.skp.TRACE_STATUS (R594). -/
def f_skp_TRACE_STATUS_in_flight : Fld := ⟨0, 7⟩
/-- Field cidx of pk.skp.TRACE_CIDX (R594). -/
def f_skp_TRACE_CIDX_cidx : Fld := ⟨0, 32⟩
/-- Field rx_max of fe.lmac.PORT_CFG (R371). -/
def f_lmac_PORT_CFG_rx_max : Fld := ⟨50, 14⟩
/-- Field tx_max of fe.lmac.PORT_CFG (R371). -/
def f_lmac_PORT_CFG_tx_max : Fld := ⟨36, 14⟩
/-- Field rx_delay of fe.lmac.PORT_CFG (R371). -/
def f_lmac_PORT_CFG_rx_delay : Fld := ⟨26, 10⟩
/-- Field tx_delay of fe.lmac.PORT_CFG (R371). -/
def f_lmac_PORT_CFG_tx_delay : Fld := ⟨16, 10⟩
/-- Field an_lt of fe.lmac.PORT_CFG (R371). -/
def f_lmac_PORT_CFG_an_lt : Fld := ⟨7, 1⟩
/-- Field mode of fe.lmac.PORT_CFG (R371). -/
def f_lmac_PORT_CFG_mode : Fld := ⟨0, 4⟩
/-- Field ptp_mode of fe.lmac.PORT_CTRL (R372). -/
def f_lmac_PORT_CTRL_ptp_mode : Fld := ⟨7, 2⟩
/-- Field down_mode of fe.lmac.PORT_CTRL (R372). -/
def f_lmac_PORT_CTRL_down_mode : Fld := ⟨6, 1⟩
/-- Field enable of fe.lmac.PORT_CTRL (R372). -/
def f_lmac_PORT_CTRL_enable : Fld := ⟨0, 1⟩
/-- Field quanta of fe.lmac.PORT_FC (R373). -/
def f_lmac_PORT_FC_quanta : Fld := ⟨48, 16⟩
/-- Field tx_class_en of fe.lmac.PORT_FC (R373). -/
def f_lmac_PORT_FC_tx_class_en : Fld := ⟨40, 8⟩
/-- Field xoff of fe.lmac.PORT_FC (R373). -/
def f_lmac_PORT_FC_xoff : Fld := ⟨28, 12⟩
/-- Field xon of fe.lmac.PORT_FC (R373). -/
def f_lmac_PORT_FC_xon : Fld := ⟨16, 12⟩
/-- Field dflt_class of fe.lmac.PORT_FC (R373). -/
def f_lmac_PORT_FC_dflt_class : Fld := ⟨5, 3⟩
/-- Field rx_en of fe.lmac.PORT_FC (R373). -/
def f_lmac_PORT_FC_rx_en : Fld := ⟨4, 1⟩
/-- Field fc_mode of fe.lmac.PORT_FC (R373). -/
def f_lmac_PORT_FC_fc_mode : Fld := ⟨0, 2⟩
/-- Field ts_lost of fe.lmac.PORT_STATUS (R374). -/
def f_lmac_PORT_STATUS_ts_lost : Fld := ⟨48, 16⟩
/-- Field rx_paused of fe.lmac.PORT_STATUS (R374). -/
def f_lmac_PORT_STATUS_rx_paused : Fld := ⟨40, 8⟩
/-- Field tx_xoff of fe.lmac.PORT_STATUS (R374). -/
def f_lmac_PORT_STATUS_tx_xoff : Fld := ⟨32, 8⟩
/-- Field link_down_seen of fe.lmac.PORT_STATUS (R374). -/
def f_lmac_PORT_STATUS_link_down_seen : Fld := ⟨5, 1⟩
/-- Field link_up of fe.lmac.PORT_STATUS (R374). -/
def f_lmac_PORT_STATUS_link_up : Fld := ⟨4, 1⟩
/-- Field stop_pending of fe.lmac.PORT_STATUS (R374). -/
def f_lmac_PORT_STATUS_stop_pending : Fld := ⟨3, 1⟩
/-- Field restart_pending of fe.lmac.PORT_STATUS (R374). -/
def f_lmac_PORT_STATUS_restart_pending : Fld := ⟨2, 1⟩
/-- Field state of fe.lmac.PORT_STATUS (R374). -/
def f_lmac_PORT_STATUS_state : Fld := ⟨0, 2⟩
/-- Field valid of fe.lmac.TS_FIFO (R375). -/
def f_lmac_TS_FIFO_valid : Fld := ⟨63, 1⟩
/-- Field message_type of fe.lmac.TS_FIFO (R375). -/
def f_lmac_TS_FIFO_message_type : Fld := ⟨59, 4⟩
/-- Field sequence_id of fe.lmac.TS_FIFO (R375). -/
def f_lmac_TS_FIFO_sequence_id : Fld := ⟨43, 16⟩
/-- Field ts of fe.lmac.TS_FIFO (R375). -/
def f_lmac_TS_FIFO_ts : Fld := ⟨0, 43⟩
/-- Field enable of fe.lmac.MSEC_CFG (R382). -/
def f_lmac_MSEC_CFG_enable : Fld := ⟨63, 1⟩
/-- Field bypass0 of fe.lmac.MSEC_CFG (R382). -/
def f_lmac_MSEC_CFG_bypass0 : Fld := ⟨32, 16⟩
/-- Field bypass1 of fe.lmac.MSEC_CFG (R382). -/
def f_lmac_MSEC_CFG_bypass1 : Fld := ⟨16, 16⟩
/-- Field jump_log2 of fe.lmac.MSEC_CFG (R382). -/
def f_lmac_MSEC_CFG_jump_log2 : Fld := ⟨8, 6⟩
/-- Field pn_event_log2 of fe.lmac.MSEC_CFG (R382). -/
def f_lmac_MSEC_CFG_pn_event_log2 : Fld := ⟨0, 6⟩
/-- Field count of fe.lmac.CNT (R376). -/
def f_lmac_CNT_count : Fld := ⟨0, 48⟩
/-- Field max_bytes of fe.prs.HORIZON (R46). -/
def f_prs_HORIZON_max_bytes : Fld := ⟨16, 9⟩
/-- Field max_headers of fe.prs.HORIZON (R46). -/
def f_prs_HORIZON_max_headers : Fld := ⟨0, 5⟩
/-- Field ce_count of fe.prs.STATUS (R56). -/
def f_prs_STATUS_ce_count : Fld := ⟨32, 32⟩
/-- Field ue_count of fe.prs.STATUS (R56). -/
def f_prs_STATUS_ue_count : Fld := ⟨16, 16⟩
/-- Field last_ue_pipe of fe.prs.STATUS (R56). -/
def f_prs_STATUS_last_ue_pipe : Fld := ⟨12, 4⟩
/-- Field active_bank of fe.prs.STATUS (R56). -/
def f_prs_STATUS_active_bank : Fld := ⟨11, 1⟩
/-- Field last_ue_node of fe.prs.STATUS (R56). -/
def f_prs_STATUS_last_ue_node : Fld := ⟨0, 10⟩
/-- Field packets of fe.prs.D2D_DROP (R58). -/
def f_prs_D2D_DROP_packets : Fld := ⟨0, 48⟩
/-- Field root_node of fe.prs.PORT_CFG (R45). -/
def f_prs_PORT_CFG_root_node : Fld := ⟨0, 10⟩
/-- Field punt_ring of fe.prs.MAL_ACT (R51). -/
def f_prs_MAL_ACT_punt_ring : Fld := ⟨24, 10⟩
/-- Field exc_policer of fe.prs.MAL_ACT (R51). -/
def f_prs_MAL_ACT_exc_policer : Fld := ⟨12, 12⟩
/-- Field action of fe.prs.MAL_ACT (R51). -/
def f_prs_MAL_ACT_action : Fld := ⟨0, 2⟩
/-- Field packets of fe.prs.MAL_CNT (R54). -/
def f_prs_MAL_CNT_packets : Fld := ⟨0, 48⟩
/-- Field valid of fe.prs.NODE_CFG (R39). -/
def f_prs_NODE_CFG_valid : Fld := ⟨63, 1⟩
/-- Field terminal of fe.prs.NODE_CFG (R39). -/
def f_prs_NODE_CFG_terminal : Fld := ⟨62, 1⟩
/-- Field header_id of fe.prs.NODE_CFG (R39). -/
def f_prs_NODE_CFG_header_id : Fld := ⟨57, 5⟩
/-- Field len_fixed of fe.prs.NODE_CFG (R39). -/
def f_prs_NODE_CFG_len_fixed : Fld := ⟨48, 9⟩
/-- Field len_from_field of fe.prs.NODE_CFG (R39). -/
def f_prs_NODE_CFG_len_from_field : Fld := ⟨47, 1⟩
/-- Field len_fld_off of fe.prs.NODE_CFG (R39). -/
def f_prs_NODE_CFG_len_fld_off : Fld := ⟨38, 9⟩
/-- Field len_fld_width of fe.prs.NODE_CFG (R39). -/
def f_prs_NODE_CFG_len_fld_width : Fld := ⟨34, 4⟩
/-- Field len_mult of fe.prs.NODE_CFG (R39). -/
def f_prs_NODE_CFG_len_mult : Fld := ⟨32, 2⟩
/-- Field sel_off of fe.prs.NODE_CFG (R39). -/
def f_prs_NODE_CFG_sel_off : Fld := ⟨23, 9⟩
/-- Field sel_width of fe.prs.NODE_CFG (R39). -/
def f_prs_NODE_CFG_sel_width : Fld := ⟨18, 5⟩
/-- Field def_kind of fe.prs.NODE_CFG (R39). -/
def f_prs_NODE_CFG_def_kind : Fld := ⟨10, 2⟩
/-- Field def_node of fe.prs.NODE_CFG (R39). -/
def f_prs_NODE_CFG_def_node : Fld := ⟨0, 10⟩
/-- Field valid0 of fe.prs.NODE_EXT (R40). -/
def f_prs_NODE_EXT_valid0 : Fld := ⟨31, 1⟩
/-- Field src_off0 of fe.prs.NODE_EXT (R40). -/
def f_prs_NODE_EXT_src_off0 : Fld := ⟨22, 9⟩
/-- Field len_m10 of fe.prs.NODE_EXT (R40). -/
def f_prs_NODE_EXT_len_m10 : Fld := ⟨18, 4⟩
/-- Field dst_off0 of fe.prs.NODE_EXT (R40). -/
def f_prs_NODE_EXT_dst_off0 : Fld := ⟨11, 7⟩
/-- Field valid1 of fe.prs.NODE_EXT (R40). -/
def f_prs_NODE_EXT_valid1 : Fld := ⟨63, 1⟩
/-- Field src_off1 of fe.prs.NODE_EXT (R40). -/
def f_prs_NODE_EXT_src_off1 : Fld := ⟨54, 9⟩
/-- Field len_m11 of fe.prs.NODE_EXT (R40). -/
def f_prs_NODE_EXT_len_m11 : Fld := ⟨50, 4⟩
/-- Field dst_off1 of fe.prs.NODE_EXT (R40). -/
def f_prs_NODE_EXT_dst_off1 : Fld := ⟨43, 7⟩
/-- Field check_class of fe.prs.NODE_CHK (R42). -/
def f_prs_NODE_CHK_check_class : Fld := ⟨60, 4⟩
/-- Field min_len of fe.prs.NODE_CHK (R42). -/
def f_prs_NODE_CHK_min_len : Fld := ⟨51, 9⟩
/-- Field fld_chk_en of fe.prs.NODE_CHK (R42). -/
def f_prs_NODE_CHK_fld_chk_en : Fld := ⟨50, 1⟩
/-- Field fld_off of fe.prs.NODE_CHK (R42). -/
def f_prs_NODE_CHK_fld_off : Fld := ⟨41, 9⟩
/-- Field fld_width of fe.prs.NODE_CHK (R42). -/
def f_prs_NODE_CHK_fld_width : Fld := ⟨36, 5⟩
/-- Field fld_expect of fe.prs.NODE_CHK (R42). -/
def f_prs_NODE_CHK_fld_expect : Fld := ⟨0, 32⟩
/-- Field valid of fe.prs.NODE_BR (R43). -/
def f_prs_NODE_BR_valid : Fld := ⟨63, 1⟩
/-- Field next_node of fe.prs.NODE_BR (R43). -/
def f_prs_NODE_BR_next_node : Fld := ⟨53, 10⟩
/-- Field value of fe.prs.NODE_BR (R43). -/
def f_prs_NODE_BR_value : Fld := ⟨0, 32⟩
/-- Field ovr_threshold of fe.dsp.DISP_CFG (R77). -/
def f_dsp_DISP_CFG_ovr_threshold : Fld := ⟨8, 8⟩
/-- Field override_en of fe.dsp.DISP_CFG (R77). -/
def f_dsp_DISP_CFG_override_en : Fld := ⟨0, 1⟩
/-- Field overrides of fe.dsp.DISP_STATUS (R78). -/
def f_dsp_DISP_STATUS_overrides : Fld := ⟨32, 32⟩
/-- Field override_active of fe.dsp.DISP_STATUS (R78). -/
def f_dsp_DISP_STATUS_override_active : Fld := ⟨0, 1⟩
/-- Field skip_timeout of fe.dsp.OK_CFG (R83). -/
def f_dsp_OK_CFG_skip_timeout : Fld := ⟨0, 16⟩
/-- Field skips of fe.dsp.OK_STATUS (R84). -/
def f_dsp_OK_STATUS_skips : Fld := ⟨48, 16⟩
/-- Field late_releases of fe.dsp.OK_STATUS (R84). -/
def f_dsp_OK_STATUS_late_releases : Fld := ⟨32, 16⟩
/-- Field outstanding of fe.dsp.OK_STATUS (R84). -/
def f_dsp_OK_STATUS_outstanding : Fld := ⟨0, 17⟩
/-- Field seed of fe.dsp.RNG_SEED (R128). -/
def f_dsp_RNG_SEED_seed : Fld := ⟨0, 64⟩
/-- Field alt_valid of fe.dsp.DISP_SLOT (R79). -/
def f_dsp_DISP_SLOT_alt_valid : Fld := ⟨13, 1⟩
/-- Field alt_cluster of fe.dsp.DISP_SLOT (R79). -/
def f_dsp_DISP_SLOT_alt_cluster : Fld := ⟨8, 5⟩
/-- Field cluster of fe.dsp.DISP_SLOT (R79). -/
def f_dsp_DISP_SLOT_cluster : Fld := ⟨0, 5⟩
/-- Field drain_limit of fe.fpc.CL_CTRL (R118). -/
def f_fpc_CL_CTRL_drain_limit : Fld := ⟨16, 16⟩
/-- Field db_resume of fe.fpc.CL_CTRL (R118). -/
def f_fpc_CL_CTRL_db_resume : Fld := ⟨2, 1⟩
/-- Field enable of fe.fpc.CL_CTRL (R118). -/
def f_fpc_CL_CTRL_enable : Fld := ⟨0, 1⟩
/-- Field failed_phys of fe.fpc.CL_STATUS (R119). -/
def f_fpc_CL_STATUS_failed_phys : Fld := ⟨47, 17⟩
/-- Field cores_usable of fe.fpc.CL_STATUS (R119). -/
def f_fpc_CL_STATUS_cores_usable : Fld := ⟨42, 5⟩
/-- Field spare_used of fe.fpc.CL_STATUS (R119). -/
def f_fpc_CL_STATUS_spare_used : Fld := ⟨41, 1⟩
/-- Field spare_for of fe.fpc.CL_STATUS (R119). -/
def f_fpc_CL_STATUS_spare_for : Fld := ⟨37, 4⟩
/-- Field present of fe.fpc.CL_STATUS (R119). -/
def f_fpc_CL_STATUS_present : Fld := ⟨16, 16⟩
/-- Field retired of fe.fpc.CL_STATUS (R119). -/
def f_fpc_CL_STATUS_retired : Fld := ⟨7, 1⟩
/-- Field steered of fe.fpc.CL_STATUS (R119). -/
def f_fpc_CL_STATUS_steered : Fld := ⟨6, 1⟩
/-- Field stop_pending of fe.fpc.CL_STATUS (R119). -/
def f_fpc_CL_STATUS_stop_pending : Fld := ⟨5, 1⟩
/-- Field restart_pending of fe.fpc.CL_STATUS (R119). -/
def f_fpc_CL_STATUS_restart_pending : Fld := ⟨4, 1⟩
/-- Field state of fe.fpc.CL_STATUS (R119). -/
def f_fpc_CL_STATUS_state : Fld := ⟨0, 2⟩
/-- Field window of fe.fpc.DB_CFG (R107). -/
def f_fpc_DB_CFG_window : Fld := ⟨8, 24⟩
/-- Field hold of fe.fpc.DB_CFG (R107). -/
def f_fpc_DB_CFG_hold : Fld := ⟨1, 1⟩
/-- Field enable of fe.fpc.DB_CFG (R107). -/
def f_fpc_DB_CFG_enable : Fld := ⟨0, 1⟩
/-- Field fires of fe.fpc.DB_STATUS (R108). -/
def f_fpc_DB_STATUS_fires : Fld := ⟨48, 16⟩
/-- Field halted_deps of fe.fpc.DB_STATUS (R108). -/
def f_fpc_DB_STATUS_halted_deps : Fld := ⟨32, 16⟩
/-- Field aborted_packets of fe.fpc.DB_STATUS (R108). -/
def f_fpc_DB_STATUS_aborted_packets : Fld := ⟨0, 32⟩
/-- Field threads of fe.fpc.DB_THREADS (R109). -/
def f_fpc_DB_THREADS_threads : Fld := ⟨0, 64⟩
/-- Field long_waits of fe.fpc.WATCH_CFG (R110). -/
def f_fpc_WATCH_CFG_long_waits : Fld := ⟨32, 16⟩
/-- Field threshold of fe.fpc.WATCH_CFG (R110). -/
def f_fpc_WATCH_CFG_threshold : Fld := ⟨0, 16⟩
/-- Field ce_shared of fe.fpc.ERR_STATUS (R121). -/
def f_fpc_ERR_STATUS_ce_shared : Fld := ⟨48, 16⟩
/-- Field ce_other of fe.fpc.ERR_STATUS (R121). -/
def f_fpc_ERR_STATUS_ce_other : Fld := ⟨32, 16⟩
/-- Field ue_count of fe.fpc.ERR_STATUS (R121). -/
def f_fpc_ERR_STATUS_ue_count : Fld := ⟨16, 16⟩
/-- Field roster_refused of fe.fpc.ERR_STATUS (R121). -/
def f_fpc_ERR_STATUS_roster_refused : Fld := ⟨8, 1⟩
/-- Field last_ue_mem of fe.fpc.ERR_STATUS (R121). -/
def f_fpc_ERR_STATUS_last_ue_mem : Fld := ⟨0, 4⟩
/-- Field channel of fe.fpc.DBG_CTRL (R114). -/
def f_fpc_DBG_CTRL_channel : Fld := ⟨16, 6⟩
/-- Field slot of fe.fpc.DBG_CTRL (R114). -/
def f_fpc_DBG_CTRL_slot : Fld := ⟨11, 5⟩
/-- Field thread of fe.fpc.DBG_CTRL (R114). -/
def f_fpc_DBG_CTRL_thread : Fld := ⟨4, 7⟩
/-- Field cmd of fe.fpc.DBG_CTRL (R114). -/
def f_fpc_DBG_CTRL_cmd : Fld := ⟨0, 3⟩
/-- Field resident of fe.fpc.RESIDENT (R90). -/
def f_fpc_RESIDENT_resident : Fld := ⟨0, 64⟩
/-- Field exceptions of fe.fpc.EXC_STATUS (R154). -/
def f_fpc_EXC_STATUS_exceptions : Fld := ⟨32, 32⟩
/-- Field last_code of fe.fpc.EXC_STATUS (R154). -/
def f_fpc_EXC_STATUS_last_code : Fld := ⟨28, 4⟩
/-- Field last_thread of fe.fpc.EXC_STATUS (R154). -/
def f_fpc_EXC_STATUS_last_thread : Fld := ⟨20, 7⟩
/-- Field last_pc of fe.fpc.EXC_STATUS (R154). -/
def f_fpc_EXC_STATUS_last_pc : Fld := ⟨0, 17⟩
/-- Field slots of fe.fpc.ROSTER (R89). -/
def f_fpc_ROSTER_slots : Fld := ⟨0, 64⟩
/-- Field pc of fe.fpc.THREAD_STATE (R115). -/
def f_fpc_THREAD_STATE_pc : Fld := ⟨32, 17⟩
/-- Field wait_age of fe.fpc.THREAD_STATE (R115). -/
def f_fpc_THREAD_STATE_wait_age : Fld := ⟨16, 16⟩
/-- Field resident of fe.fpc.THREAD_STATE (R115). -/
def f_fpc_THREAD_STATE_resident : Fld := ⟨15, 1⟩
/-- Field has_packet of fe.fpc.THREAD_STATE (R115). -/
def f_fpc_THREAD_STATE_has_packet : Fld := ⟨14, 1⟩
/-- Field wait_obj of fe.fpc.THREAD_STATE (R115). -/
def f_fpc_THREAD_STATE_wait_obj : Fld := ⟨8, 6⟩
/-- Field wait_kind of fe.fpc.THREAD_STATE (R115). -/
def f_fpc_THREAD_STATE_wait_kind : Fld := ⟨4, 4⟩
/-- Field state of fe.fpc.THREAD_STATE (R115). -/
def f_fpc_THREAD_STATE_state : Fld := ⟨0, 3⟩
/-- Field tick_log2 of fe.fpc.CHAN_CFG (R97). -/
def f_fpc_CHAN_CFG_tick_log2 : Fld := ⟨12, 4⟩
/-- Field src_cluster of fe.fpc.CHAN_CFG (R97). -/
def f_fpc_CHAN_CFG_src_cluster : Fld := ⟨4, 5⟩
/-- Field ext_kind of fe.fpc.CHAN_CFG (R97). -/
def f_fpc_CHAN_CFG_ext_kind : Fld := ⟨1, 3⟩
/-- Field enable of fe.fpc.CHAN_CFG (R97). -/
def f_fpc_CHAN_CFG_enable : Fld := ⟨0, 1⟩
/-- Field voids_skipped of fe.fpc.CHAN_STATUS (R98). -/
def f_fpc_CHAN_STATUS_voids_skipped : Fld := ⟨48, 16⟩
/-- Field voids_made of fe.fpc.CHAN_STATUS (R98). -/
def f_fpc_CHAN_STATUS_voids_made : Fld := ⟨32, 16⟩
/-- Field occupied of fe.fpc.CHAN_STATUS (R98). -/
def f_fpc_CHAN_STATUS_occupied : Fld := ⟨16, 6⟩
/-- Field tail of fe.fpc.CHAN_STATUS (R98). -/
def f_fpc_CHAN_STATUS_tail : Fld := ⟨8, 5⟩
/-- Field head of fe.fpc.CHAN_STATUS (R98). -/
def f_fpc_CHAN_STATUS_head : Fld := ⟨0, 5⟩
/-- Field slots of fe.fpc.CHAN_SLOTS (R99). -/
def f_fpc_CHAN_SLOTS_slots : Fld := ⟨0, 64⟩
/-- Field tick_log2 of fe.fpc.EVT_CFG (R97). -/
def f_fpc_EVT_CFG_tick_log2 : Fld := ⟨12, 4⟩
/-- Field src_cluster of fe.fpc.EVT_CFG (R97). -/
def f_fpc_EVT_CFG_src_cluster : Fld := ⟨4, 5⟩
/-- Field ext_kind of fe.fpc.EVT_CFG (R97). -/
def f_fpc_EVT_CFG_ext_kind : Fld := ⟨1, 3⟩
/-- Field enable of fe.fpc.EVT_CFG (R97). -/
def f_fpc_EVT_CFG_enable : Fld := ⟨0, 1⟩
/-- Field merged of fe.fpc.EVT_STATUS (R100). -/
def f_fpc_EVT_STATUS_merged : Fld := ⟨32, 32⟩
/-- Field set of fe.fpc.EVT_STATUS (R100). -/
def f_fpc_EVT_STATUS_set : Fld := ⟨0, 32⟩
/-- Field enable of fe.rau.CFG (R167). -/
def f_rau_CFG_enable : Fld := ⟨0, 1⟩
/-- Field count of fe.rau.CNT (R168). -/
def f_rau_CNT_count : Fld := ⟨0, 48⟩
/-- Field overflow of fe.rau.BUF_STATUS (R169). -/
def f_rau_BUF_STATUS_overflow : Fld := ⟨48, 16⟩
/-- Field occupied of fe.rau.BUF_STATUS (R169). -/
def f_rau_BUF_STATUS_occupied : Fld := ⟨0, 7⟩
/-- Field plan_class of fe.rau.PORT_CLASS (R158). -/
def f_rau_PORT_CLASS_plan_class : Fld := ⟨0, 2⟩
/-- Field plan_c3 of fe.rau.NODE_PLAN (R159). -/
def f_rau_NODE_PLAN_plan_c3 : Fld := ⟨24, 8⟩
/-- Field plan_c2 of fe.rau.NODE_PLAN (R159). -/
def f_rau_NODE_PLAN_plan_c2 : Fld := ⟨16, 8⟩
/-- Field plan_c1 of fe.rau.NODE_PLAN (R159). -/
def f_rau_NODE_PLAN_plan_c1 : Fld := ⟨8, 8⟩
/-- Field plan_c0 of fe.rau.NODE_PLAN (R159). -/
def f_rau_NODE_PLAN_plan_c0 : Fld := ⟨0, 8⟩
/-- Field valid of fe.rau.PLAN (R160). -/
def f_rau_PLAN_valid : Fld := ⟨63, 1⟩
/-- Field table of fe.rau.PLAN (R160). -/
def f_rau_PLAN_table : Fld := ⟨55, 8⟩
/-- Field seg3 of fe.rau.PLAN (R160). -/
def f_rau_PLAN_seg3 : Fld := ⟨39, 13⟩
/-- Field seg2 of fe.rau.PLAN (R160). -/
def f_rau_PLAN_seg2 : Fld := ⟨26, 13⟩
/-- Field seg1 of fe.rau.PLAN (R160). -/
def f_rau_PLAN_seg1 : Fld := ⟨13, 13⟩
/-- Field seg0 of fe.rau.PLAN (R160). -/
def f_rau_PLAN_seg0 : Fld := ⟨0, 13⟩
/-- Field valid of fe.rau.TBL_DIR (R186). -/
def f_rau_TBL_DIR_valid : Fld := ⟨63, 1⟩
/-- Field kind of fe.rau.TBL_DIR (R186). -/
def f_rau_TBL_DIR_kind : Fld := ⟨59, 4⟩
/-- Field key_len_m1 of fe.rau.TBL_DIR (R186). -/
def f_rau_TBL_DIR_key_len_m1 : Fld := ⟨52, 7⟩
/-- Field inst of fe.rau.TBL_DIR (R186). -/
def f_rau_TBL_DIR_inst : Fld := ⟨46, 6⟩
/-- Field enable of fe.fbk.CFG (R180). -/
def f_fbk_CFG_enable : Fld := ⟨0, 1⟩
/-- Field enable of fe.fbk.PORT_EN (R181). -/
def f_fbk_PORT_EN_enable : Fld := ⟨0, 64⟩
/-- Field count of fe.fbk.CNT (R182). -/
def f_fbk_CNT_count : Fld := ⟨0, 48⟩
/-- Field seg1_valid of fe.fbk.RECIPE (R183). -/
def f_fbk_RECIPE_seg1_valid : Fld := ⟨23, 1⟩
/-- Field seg1_off of fe.fbk.RECIPE (R183). -/
def f_fbk_RECIPE_seg1_off : Fld := ⟨16, 7⟩
/-- Field seg1_len_m1 of fe.fbk.RECIPE (R183). -/
def f_fbk_RECIPE_seg1_len_m1 : Fld := ⟨12, 4⟩
/-- Field seg0_valid of fe.fbk.RECIPE (R183). -/
def f_fbk_RECIPE_seg0_valid : Fld := ⟨11, 1⟩
/-- Field seg0_off of fe.fbk.RECIPE (R183). -/
def f_fbk_RECIPE_seg0_off : Fld := ⟨4, 7⟩
/-- Field seg0_len_m1 of fe.fbk.RECIPE (R183). -/
def f_fbk_RECIPE_seg0_len_m1 : Fld := ⟨0, 4⟩
/-- Field valid of fe.fbk.NODE_RCP (R184). -/
def f_fbk_NODE_RCP_valid : Fld := ⟨4, 1⟩
/-- Field recipe of fe.fbk.NODE_RCP (R184). -/
def f_fbk_NODE_RCP_recipe : Fld := ⟨0, 4⟩
/-- Field rw_mask of fe.fbk.TMPL (R185). -/
def f_fbk_TMPL_rw_mask : Fld := ⟨50, 8⟩
/-- Field rw_off of fe.fbk.TMPL (R185). -/
def f_fbk_TMPL_rw_off : Fld := ⟨41, 9⟩
/-- Field rw_en of fe.fbk.TMPL (R185). -/
def f_fbk_TMPL_rw_en : Fld := ⟨40, 1⟩
/-- Field ttl_op of fe.fbk.TMPL (R185). -/
def f_fbk_TMPL_ttl_op : Fld := ⟨37, 3⟩
/-- Field ttl_off of fe.fbk.TMPL (R185). -/
def f_fbk_TMPL_ttl_off : Fld := ⟨28, 9⟩
/-- Field prepend_len of fe.fbk.TMPL (R185). -/
def f_fbk_TMPL_prepend_len : Fld := ⟨22, 6⟩
/-- Field strip of fe.fbk.TMPL (R185). -/
def f_fbk_TMPL_strip : Fld := ⟨8, 7⟩
/-- Field valid of fe.lpm.SLICE_CFG (R192). -/
def f_lpm_SLICE_CFG_valid : Fld := ⟨63, 1⟩
/-- Field ondie_quota of fe.lpm.SLICE_CFG (R192). -/
def f_lpm_SLICE_CFG_ondie_quota : Fld := ⟨52, 11⟩
/-- Field hbm_quota of fe.lpm.SLICE_CFG (R192). -/
def f_lpm_SLICE_CFG_hbm_quota : Fld := ⟨39, 13⟩
/-- Field ondie_used of fe.lpm.SLICE_STATUS (R193). -/
def f_lpm_SLICE_STATUS_ondie_used : Fld := ⟨41, 23⟩
/-- Field hbm_used of fe.lpm.SLICE_STATUS (R193). -/
def f_lpm_SLICE_STATUS_hbm_used : Fld := ⟨16, 25⟩
/-- Field epoch of fe.exm.AGE_EPOCH (R203). -/
def f_exm_AGE_EPOCH_epoch : Fld := ⟨0, 32⟩
/-- Field events of fe.exm.LEARN_STATUS (R216). -/
def f_exm_LEARN_STATUS_events : Fld := ⟨32, 32⟩
/-- Field ring_drops of fe.exm.LEARN_STATUS (R216). -/
def f_exm_LEARN_STATUS_ring_drops : Fld := ⟨16, 16⟩
/-- Field bad_table of fe.exm.LEARN_STATUS (R216). -/
def f_exm_LEARN_STATUS_bad_table : Fld := ⟨0, 16⟩
/-- Field lost of fe.exm.CTR_STATUS (R209). -/
def f_exm_CTR_STATUS_lost : Fld := ⟨32, 32⟩
/-- Field hash_seed of fe.exm.TBL_CFG (R200). -/
def f_exm_TBL_CFG_hash_seed : Fld := ⟨32, 32⟩
/-- Field age_limit of fe.exm.TBL_CFG (R200). -/
def f_exm_TBL_CFG_age_limit : Fld := ⟨16, 16⟩
/-- Field valid of fe.exm.TBL_CFG (R200). -/
def f_exm_TBL_CFG_valid : Fld := ⟨7, 1⟩
/-- Field data_width of fe.exm.TBL_CFG (R200). -/
def f_exm_TBL_CFG_data_width : Fld := ⟨5, 2⟩
/-- Field evict_mode of fe.exm.TBL_CFG (R200). -/
def f_exm_TBL_CFG_evict_mode : Fld := ⟨3, 2⟩
/-- Field stamps of fe.exm.TBL_CFG (R200). -/
def f_exm_TBL_CFG_stamps : Fld := ⟨2, 1⟩
/-- Field age_report of fe.exm.TBL_CFG (R200). -/
def f_exm_TBL_CFG_age_report : Fld := ⟨1, 1⟩
/-- Field ondie_log2 of fe.exm.TBL_GEOM (R201). -/
def f_exm_TBL_GEOM_ondie_log2 : Fld := ⟨59, 5⟩
/-- Field ondie_base of fe.exm.TBL_GEOM (R201). -/
def f_exm_TBL_GEOM_ondie_base : Fld := ⟨40, 19⟩
/-- Field hbm_log2 of fe.exm.TBL_GEOM (R201). -/
def f_exm_TBL_GEOM_hbm_log2 : Fld := ⟨35, 5⟩
/-- Field hbm_base of fe.exm.TBL_GEOM (R201). -/
def f_exm_TBL_GEOM_hbm_base : Fld := ⟨12, 23⟩
/-- Field entries of fe.exm.TBL_STATUS (R202). -/
def f_exm_TBL_STATUS_entries : Fld := ⟨38, 26⟩
/-- Field evictions of fe.exm.TBL_STATUS (R202). -/
def f_exm_TBL_STATUS_evictions : Fld := ⟨22, 16⟩
/-- Field ring_drops of fe.exm.TBL_STATUS (R202). -/
def f_exm_TBL_STATUS_ring_drops : Fld := ⟨6, 16⟩
/-- Field learned of fe.exm.LEARN_PORT (R214). -/
def f_exm_LEARN_PORT_learned : Fld := ⟨44, 20⟩
/-- Field limit of fe.exm.LEARN_PORT (R214). -/
def f_exm_LEARN_PORT_limit : Fld := ⟨24, 20⟩
/-- Field policer of fe.exm.LEARN_PORT (R214). -/
def f_exm_LEARN_PORT_policer : Fld := ⟨12, 12⟩
/-- Field excess of fe.exm.LEARN_PORT (R214). -/
def f_exm_LEARN_PORT_excess : Fld := ⟨0, 1⟩
/-- Field excess_drops of fe.exm.LEARN_CNT (R215). -/
def f_exm_LEARN_CNT_excess_drops : Fld := ⟨48, 16⟩
/-- Field excess_floods of fe.exm.LEARN_CNT (R215). -/
def f_exm_LEARN_CNT_excess_floods : Fld := ⟨32, 16⟩
/-- Field policed of fe.exm.LEARN_CNT (R215). -/
def f_exm_LEARN_CNT_policed : Fld := ⟨16, 16⟩
/-- Field valid of fe.tcm.TBL_CFG (R261). -/
def f_tcm_TBL_CFG_valid : Fld := ⟨63, 1⟩
/-- Field width of fe.tcm.TBL_CFG (R261). -/
def f_tcm_TBL_CFG_width : Fld := ⟨61, 2⟩
/-- Field first_block of fe.tcm.TBL_CFG (R261). -/
def f_tcm_TBL_CFG_first_block : Fld := ⟨55, 6⟩
/-- Field block_count of fe.tcm.TBL_CFG (R261). -/
def f_tcm_TBL_CFG_block_count : Fld := ⟨48, 7⟩
/-- Field hole_interval of fe.tcm.TBL_CFG (R261). -/
def f_tcm_TBL_CFG_hole_interval : Fld := ⟨46, 2⟩
/-- Field order_check of fe.tcm.TBL_CFG (R261). -/
def f_tcm_TBL_CFG_order_check : Fld := ⟨45, 1⟩
/-- Field used of fe.tcm.BLK_STATUS (R262). -/
def f_tcm_BLK_STATUS_used : Fld := ⟨51, 13⟩
/-- Field pending of fe.tcm.BLK_STATUS (R262). -/
def f_tcm_BLK_STATUS_pending : Fld := ⟨50, 1⟩
/-- Field moves of fe.tcm.BLK_STATUS (R262). -/
def f_tcm_BLK_STATUS_moves : Fld := ⟨16, 16⟩
/-- Field kills of fe.tcm.BLK_STATUS (R262). -/
def f_tcm_BLK_STATUS_kills : Fld := ⟨0, 16⟩
/-- Field seq of fe.tcm.BLK_SEQ (R263). -/
def f_tcm_BLK_SEQ_seq : Fld := ⟨0, 64⟩
/-- Field enable of fe.tcm.SCRUB_CFG (R264). -/
def f_tcm_SCRUB_CFG_enable : Fld := ⟨16, 1⟩
/-- Field interval of fe.tcm.SCRUB_CFG (R264). -/
def f_tcm_SCRUB_CFG_interval : Fld := ⟨0, 16⟩
/-- Field passes of fe.tcm.SCRUB_STATUS (R265). -/
def f_tcm_SCRUB_STATUS_passes : Fld := ⟨32, 32⟩
/-- Field last_block of fe.tcm.SCRUB_STATUS (R265). -/
def f_tcm_SCRUB_STATUS_last_block : Fld := ⟨26, 6⟩
/-- Field last_row of fe.tcm.SCRUB_STATUS (R265). -/
def f_tcm_SCRUB_STATUS_last_row : Fld := ⟨15, 11⟩
/-- Field misses of fe.dtc.CACHE_STATUS (R280). -/
def f_dtc_CACHE_STATUS_misses : Fld := ⟨32, 32⟩
/-- Field parity of fe.dtc.CACHE_STATUS (R280). -/
def f_dtc_CACHE_STATUS_parity : Fld := ⟨16, 16⟩
/-- Field ue_count of fe.dtc.CACHE_STATUS (R280). -/
def f_dtc_CACHE_STATUS_ue_count : Fld := ⟨0, 16⟩
/-- Field valid of fe.dtc.TBL_CFG (R275). -/
def f_dtc_TBL_CFG_valid : Fld := ⟨63, 1⟩
/-- Field first_tree of fe.dtc.TBL_CFG (R275). -/
def f_dtc_TBL_CFG_first_tree : Fld := ⟨53, 10⟩
/-- Field tree_count of fe.dtc.TBL_CFG (R275). -/
def f_dtc_TBL_CFG_tree_count : Fld := ⟨46, 7⟩
/-- Field rule_base of fe.dtc.TBL_CFG (R275). -/
def f_dtc_TBL_CFG_rule_base : Fld := ⟨26, 20⟩
/-- Field rule_log2 of fe.dtc.TBL_CFG (R275). -/
def f_dtc_TBL_CFG_rule_log2 : Fld := ⟨21, 5⟩
/-- Field node_base of fe.dtc.TBL_NODES (R276). -/
def f_dtc_TBL_NODES_node_base : Fld := ⟨40, 24⟩
/-- Field node_log2 of fe.dtc.TBL_NODES (R276). -/
def f_dtc_TBL_NODES_node_log2 : Fld := ⟨35, 5⟩
/-- Field pending of fe.dtc.STATUS (R278). -/
def f_dtc_STATUS_pending : Fld := ⟨63, 1⟩
/-- Field list_used of fe.dtc.STATUS (R278). -/
def f_dtc_STATUS_list_used : Fld := ⟨54, 9⟩
/-- Field walk_errors of fe.dtc.STATUS (R278). -/
def f_dtc_STATUS_walk_errors : Fld := ⟨32, 16⟩
/-- Field last_err_line of fe.dtc.STATUS (R278). -/
def f_dtc_STATUS_last_err_line : Fld := ⟨0, 24⟩
/-- Field seq of fe.dtc.SEQ (R279). -/
def f_dtc_SEQ_seq : Fld := ⟨0, 64⟩
/-- Field valid of fe.dtc.ROOT (R277). -/
def f_dtc_ROOT_valid : Fld := ⟨24, 1⟩
/-- Field line of fe.dtc.ROOT (R277). -/
def f_dtc_ROOT_line : Fld := ⟨0, 24⟩
/-- Field seed of fe.lbh.PROF_CFG (R60). -/
def f_lbh_PROF_CFG_seed : Fld := ⟨32, 32⟩
/-- Field shift of fe.lbh.PROF_CFG (R60). -/
def f_lbh_PROF_CFG_shift : Fld := ⟨24, 5⟩
/-- Field symmetric of fe.lbh.PROF_CFG (R60). -/
def f_lbh_PROF_CFG_symmetric : Fld := ⟨17, 1⟩
/-- Field algo of fe.lbh.PROF_CFG (R60). -/
def f_lbh_PROF_CFG_algo : Fld := ⟨16, 1⟩
/-- Field mask of fe.lbh.PROF_MASK (R61). -/
def f_lbh_PROF_MASK_mask : Fld := ⟨0, 64⟩
/-- Field valid0 of fe.lbh.PROF_SYM (R62). -/
def f_lbh_PROF_SYM_valid0 : Fld := ⟨19, 1⟩
/-- Field src_off0 of fe.lbh.PROF_SYM (R62). -/
def f_lbh_PROF_SYM_src_off0 : Fld := ⟨12, 7⟩
/-- Field dst_off0 of fe.lbh.PROF_SYM (R62). -/
def f_lbh_PROF_SYM_dst_off0 : Fld := ⟨5, 7⟩
/-- Field len_m10 of fe.lbh.PROF_SYM (R62). -/
def f_lbh_PROF_SYM_len_m10 : Fld := ⟨1, 4⟩
/-- Field valid1 of fe.lbh.PROF_SYM (R62). -/
def f_lbh_PROF_SYM_valid1 : Fld := ⟨39, 1⟩
/-- Field src_off1 of fe.lbh.PROF_SYM (R62). -/
def f_lbh_PROF_SYM_src_off1 : Fld := ⟨32, 7⟩
/-- Field dst_off1 of fe.lbh.PROF_SYM (R62). -/
def f_lbh_PROF_SYM_dst_off1 : Fld := ⟨25, 7⟩
/-- Field len_m11 of fe.lbh.PROF_SYM (R62). -/
def f_lbh_PROF_SYM_len_m11 : Fld := ⟨21, 4⟩
/-- Field valid2 of fe.lbh.PROF_SYM (R62). -/
def f_lbh_PROF_SYM_valid2 : Fld := ⟨59, 1⟩
/-- Field src_off2 of fe.lbh.PROF_SYM (R62). -/
def f_lbh_PROF_SYM_src_off2 : Fld := ⟨52, 7⟩
/-- Field dst_off2 of fe.lbh.PROF_SYM (R62). -/
def f_lbh_PROF_SYM_dst_off2 : Fld := ⟨45, 7⟩
/-- Field len_m12 of fe.lbh.PROF_SYM (R62). -/
def f_lbh_PROF_SYM_len_m12 : Fld := ⟨41, 4⟩
/-- Field key of fe.lbh.TOEP_KEY (R63). -/
def f_lbh_TOEP_KEY_key : Fld := ⟨0, 64⟩
/-- Field lag_prof of fe.lbh.NODE_PROF (R64). -/
def f_lbh_NODE_PROF_lag_prof : Fld := ⟨8, 4⟩
/-- Field ecmp_prof of fe.lbh.NODE_PROF (R64). -/
def f_lbh_NODE_PROF_ecmp_prof : Fld := ⟨4, 4⟩
/-- Field disp_prof of fe.lbh.NODE_PROF (R64). -/
def f_lbh_NODE_PROF_disp_prof : Fld := ⟨0, 4⟩
/-- Field key of fe.msc.SA_KEY (R383). -/
def f_msc_SA_KEY_key : Fld := ⟨0, 64⟩
/-- Field salt of fe.msc.SA_SALT (R383). -/
def f_msc_SA_SALT_salt : Fld := ⟨0, 64⟩
/-- Field pn of fe.msc.SA_PN (R383). -/
def f_msc_SA_PN_pn : Fld := ⟨0, 64⟩
/-- Field valid of fe.msc.SC_CFG (R384). -/
def f_msc_SC_CFG_valid : Fld := ⟨63, 1⟩
/-- Field dir of fe.msc.SC_CFG (R384). -/
def f_msc_SC_CFG_dir : Fld := ⟨62, 1⟩
/-- Field port of fe.msc.SC_CFG (R384). -/
def f_msc_SC_CFG_port : Fld := ⟨54, 8⟩
/-- Field conf of fe.msc.SC_CFG (R384). -/
def f_msc_SC_CFG_conf : Fld := ⟨53, 1⟩
/-- Field include_sci of fe.msc.SC_CFG (R384). -/
def f_msc_SC_CFG_include_sci : Fld := ⟨52, 1⟩
/-- Field es of fe.msc.SC_CFG (R384). -/
def f_msc_SC_CFG_es : Fld := ⟨51, 1⟩
/-- Field replay_en of fe.msc.SC_CFG (R384). -/
def f_msc_SC_CFG_replay_en : Fld := ⟨50, 1⟩
/-- Field replay_window of fe.msc.SC_CFG (R384). -/
def f_msc_SC_CFG_replay_window : Fld := ⟨20, 30⟩
/-- Field slot0_an of fe.msc.SC_CFG (R384). -/
def f_msc_SC_CFG_slot0_an : Fld := ⟨18, 2⟩
/-- Field slot0_valid of fe.msc.SC_CFG (R384). -/
def f_msc_SC_CFG_slot0_valid : Fld := ⟨17, 1⟩
/-- Field slot1_an of fe.msc.SC_CFG (R384). -/
def f_msc_SC_CFG_slot1_an : Fld := ⟨15, 2⟩
/-- Field slot1_valid of fe.msc.SC_CFG (R384). -/
def f_msc_SC_CFG_slot1_valid : Fld := ⟨14, 1⟩
/-- Field tx_slot of fe.msc.SC_CFG (R384). -/
def f_msc_SC_CFG_tx_slot : Fld := ⟨13, 1⟩
/-- Field sci of fe.msc.SC_SCI (R384). -/
def f_msc_SC_SCI_sci : Fld := ⟨0, 64⟩
/-- Field release of fe.hmc.CH_CTRL (R435). -/
def f_fe_hmc_CH_CTRL_release : Fld := ⟨0, 1⟩
/-- Field age_sc3 of fe.hmc.SC_CFG (R436). -/
def f_fe_hmc_SC_CFG_age_sc3 : Fld := ⟨48, 16⟩
/-- Field age_sc2 of fe.hmc.SC_CFG (R436). -/
def f_fe_hmc_SC_CFG_age_sc2 : Fld := ⟨32, 16⟩
/-- Field age_sc1 of fe.hmc.SC_CFG (R436). -/
def f_fe_hmc_SC_CFG_age_sc1 : Fld := ⟨16, 16⟩
/-- Field age_sc0 of fe.hmc.SC_CFG (R436). -/
def f_fe_hmc_SC_CFG_age_sc0 : Fld := ⟨0, 16⟩
/-- Field pred_en of fe.hmc.PAGE_CFG (R437). -/
def f_fe_hmc_PAGE_CFG_pred_en : Fld := ⟨16, 1⟩
/-- Field idle_timer of fe.hmc.PAGE_CFG (R437). -/
def f_fe_hmc_PAGE_CFG_idle_timer : Fld := ⟨0, 16⟩
/-- Field promotions of fe.hmc.CH_STATUS (R438). -/
def f_fe_hmc_CH_STATUS_promotions : Fld := ⟨48, 16⟩
/-- Field pending of fe.hmc.CH_STATUS (R438). -/
def f_fe_hmc_CH_STATUS_pending : Fld := ⟨40, 8⟩
/-- Field stop_pending of fe.hmc.CH_STATUS (R438). -/
def f_fe_hmc_CH_STATUS_stop_pending : Fld := ⟨10, 1⟩
/-- Field restart_pending of fe.hmc.CH_STATUS (R438). -/
def f_fe_hmc_CH_STATUS_restart_pending : Fld := ⟨9, 1⟩
/-- Field release_refused of fe.hmc.CH_STATUS (R438). -/
def f_fe_hmc_CH_STATUS_release_refused : Fld := ⟨8, 1⟩
/-- Field training_failed of fe.hmc.CH_STATUS (R438). -/
def f_fe_hmc_CH_STATUS_training_failed : Fld := ⟨7, 1⟩
/-- Field data_suspect of fe.hmc.CH_STATUS (R438). -/
def f_fe_hmc_CH_STATUS_data_suspect : Fld := ⟨6, 1⟩
/-- Field capture_read of fe.hmc.CH_STATUS (R438). -/
def f_fe_hmc_CH_STATUS_capture_read : Fld := ⟨5, 1⟩
/-- Field freeze_cause of fe.hmc.CH_STATUS (R438). -/
def f_fe_hmc_CH_STATUS_freeze_cause : Fld := ⟨3, 2⟩
/-- Field frozen of fe.hmc.CH_STATUS (R438). -/
def f_fe_hmc_CH_STATUS_frozen : Fld := ⟨2, 1⟩
/-- Field state of fe.hmc.CH_STATUS (R438). -/
def f_fe_hmc_CH_STATUS_state : Fld := ⟨0, 2⟩
/-- Field ce_count of fe.hmc.ERR_CNT (R439). -/
def f_fe_hmc_ERR_CNT_ce_count : Fld := ⟨32, 32⟩
/-- Field ue_count of fe.hmc.ERR_CNT (R439). -/
def f_fe_hmc_ERR_CNT_ue_count : Fld := ⟨16, 16⟩
/-- Field ca_parity of fe.hmc.ERR_CNT (R439). -/
def f_fe_hmc_ERR_CNT_ca_parity : Fld := ⟨0, 16⟩
/-- Field value of fe.hmc.TRAIN_CTRL (R440). -/
def f_fe_hmc_TRAIN_CTRL_value : Fld := ⟨56, 8⟩
/-- Field lane of fe.hmc.TRAIN_CTRL (R440). -/
def f_fe_hmc_TRAIN_CTRL_lane : Fld := ⟨48, 8⟩
/-- Field bursts of fe.hmc.TRAIN_CTRL (R440). -/
def f_fe_hmc_TRAIN_CTRL_bursts : Fld := ⟨32, 16⟩
/-- Field pattern of fe.hmc.TRAIN_CTRL (R440). -/
def f_fe_hmc_TRAIN_CTRL_pattern : Fld := ⟨28, 4⟩
/-- Field pc of fe.hmc.TRAIN_CTRL (R440). -/
def f_fe_hmc_TRAIN_CTRL_pc : Fld := ⟨27, 1⟩
/-- Field cmd of fe.hmc.TRAIN_CTRL (R440). -/
def f_fe_hmc_TRAIN_CTRL_cmd : Fld := ⟨0, 4⟩
/-- Field done of fe.hmc.TRAIN_RESULT (R441). -/
def f_fe_hmc_TRAIN_RESULT_done : Fld := ⟨63, 1⟩
/-- Field busy of fe.hmc.TRAIN_RESULT (R441). -/
def f_fe_hmc_TRAIN_RESULT_busy : Fld := ⟨62, 1⟩
/-- Field err_count of fe.hmc.TRAIN_RESULT (R441). -/
def f_fe_hmc_TRAIN_RESULT_err_count : Fld := ⟨36, 26⟩
/-- Field err_mask of fe.hmc.TRAIN_RESULT (R441). -/
def f_fe_hmc_TRAIN_RESULT_err_mask : Fld := ⟨0, 36⟩
/-- Field cmd_count of fe.hmc.CAP_INFO (R442). -/
def f_fe_hmc_CAP_INFO_cmd_count : Fld := ⟨52, 8⟩
/-- Field pending_at_freeze of fe.hmc.CAP_INFO (R442). -/
def f_fe_hmc_CAP_INFO_pending_at_freeze : Fld := ⟨45, 7⟩
/-- Field addr of fe.hmc.CAP_INFO (R442). -/
def f_fe_hmc_CAP_INFO_addr : Fld := ⟨0, 38⟩
/-- Field sc of fe.hmc.CAP_SYND (R443). -/
def f_fe_hmc_CAP_SYND_sc : Fld := ⟨40, 2⟩
/-- Field syndrome of fe.hmc.CAP_SYND (R443). -/
def f_fe_hmc_CAP_SYND_syndrome : Fld := ⟨0, 32⟩
/-- Field age of fe.hmc.CAP_CMD (R444). -/
def f_fe_hmc_CAP_CMD_age : Fld := ⟨48, 16⟩
/-- Field cmd of fe.hmc.CAP_CMD (R444). -/
def f_fe_hmc_CAP_CMD_cmd : Fld := ⟨44, 4⟩
/-- Field sc of fe.hmc.CAP_CMD (R444). -/
def f_fe_hmc_CAP_CMD_sc : Fld := ⟨42, 2⟩
/-- Field pc of fe.hmc.CAP_CMD (R444). -/
def f_fe_hmc_CAP_CMD_pc : Fld := ⟨41, 1⟩
/-- Field sid of fe.hmc.CAP_CMD (R444). -/
def f_fe_hmc_CAP_CMD_sid : Fld := ⟨39, 2⟩
/-- Field bg of fe.hmc.CAP_CMD (R444). -/
def f_fe_hmc_CAP_CMD_bg : Fld := ⟨37, 2⟩
/-- Field ba of fe.hmc.CAP_CMD (R444). -/
def f_fe_hmc_CAP_CMD_ba : Fld := ⟨35, 2⟩
/-- Field row of fe.hmc.CAP_CMD (R444). -/
def f_fe_hmc_CAP_CMD_row : Fld := ⟨22, 13⟩
/-- Field column of fe.hmc.CAP_CMD (R444). -/
def f_fe_hmc_CAP_CMD_column : Fld := ⟨18, 4⟩
/-- Field mask of fe.hmc.MAP_MASK (R431). -/
def f_fe_hmc_MAP_MASK_mask : Fld := ⟨0, 30⟩
/-- Field osc_interval of fe.hmc.RETRAIN_CFG (R432). -/
def f_fe_hmc_RETRAIN_CFG_osc_interval : Fld := ⟨32, 16⟩
/-- Field retrain_delta of fe.hmc.RETRAIN_CFG (R432). -/
def f_fe_hmc_RETRAIN_CFG_retrain_delta : Fld := ⟨8, 8⟩
/-- Field enable of fe.hmc.RETRAIN_CFG (R432). -/
def f_fe_hmc_RETRAIN_CFG_enable : Fld := ⟨0, 1⟩
/-- Field size of fe.hmc.REGION (R434). -/
def f_fe_hmc_REGION_size : Fld := ⟨10, 10⟩
/-- Field base of fe.hmc.REGION (R434). -/
def f_fe_hmc_REGION_base : Fld := ⟨0, 10⟩
/-- Field spill_en of tm.qmg.CFG (R308). -/
def f_qmg_CFG_spill_en : Fld := ⟨32, 1⟩
/-- Field refill_reserve of tm.qmg.CFG (R308). -/
def f_qmg_CFG_refill_reserve : Fld := ⟨0, 20⟩
/-- Field free_cells of tm.qmg.STATUS (R309). -/
def f_qmg_STATUS_free_cells : Fld := ⟨44, 20⟩
/-- Field contexts_used of tm.qmg.STATUS (R309). -/
def f_qmg_STATUS_contexts_used : Fld := ⟨27, 17⟩
/-- Field seed of tm.qmg.WRED_SEED (R310). -/
def f_qmg_WRED_SEED_seed : Fld := ⟨0, 64⟩
/-- Field lost_packets of tm.qmg.LOSS (R311). -/
def f_qmg_LOSS_lost_packets : Fld := ⟨32, 32⟩
/-- Field lost_cells of tm.qmg.LOSS (R311). -/
def f_qmg_LOSS_lost_cells : Fld := ⟨0, 32⟩
/-- Field refused of tm.qmg.SPILL_CNT (R312). -/
def f_qmg_SPILL_CNT_refused : Fld := ⟨32, 16⟩
/-- Field stalled of tm.qmg.SPILL_CNT (R312). -/
def f_qmg_SPILL_CNT_stalled : Fld := ⟨16, 16⟩
/-- Field flushed of tm.qmg.SPILL_CNT (R312). -/
def f_qmg_SPILL_CNT_flushed : Fld := ⟨0, 16⟩
/-- Field packets of tm.qmg.DROP_CNT (R313). -/
def f_qmg_DROP_CNT_packets : Fld := ⟨0, 48⟩
/-- Field limit of tm.qmg.POOL_CFG (R314). -/
def f_qmg_POOL_CFG_limit : Fld := ⟨0, 20⟩
/-- Field max_p of tm.qmg.WRED (R315). -/
def f_qmg_WRED_max_p : Fld := ⟨32, 8⟩
/-- Field max of tm.qmg.WRED (R315). -/
def f_qmg_WRED_max : Fld := ⟨16, 16⟩
/-- Field min of tm.qmg.WRED (R315). -/
def f_qmg_WRED_min : Fld := ⟨0, 16⟩
/-- Field limit of tm.qmg.GRP_CFG (R314). -/
def f_qmg_GRP_CFG_limit : Fld := ⟨0, 29⟩
/-- Field hi_en of tm.qmg.WM_CFG (R316). -/
def f_qmg_WM_CFG_hi_en : Fld := ⟨63, 1⟩
/-- Field high of tm.qmg.WM_CFG (R316). -/
def f_qmg_WM_CFG_high : Fld := ⟨32, 31⟩
/-- Field lo_en of tm.qmg.WM_CFG (R316). -/
def f_qmg_WM_CFG_lo_en : Fld := ⟨31, 1⟩
/-- Field low of tm.qmg.WM_CFG (R316). -/
def f_qmg_WM_CFG_low : Fld := ⟨0, 31⟩
/-- Field hi_count of tm.qmg.WM_STATUS (R317). -/
def f_qmg_WM_STATUS_hi_count : Fld := ⟨48, 16⟩
/-- Field lo_count of tm.qmg.WM_STATUS (R317). -/
def f_qmg_WM_STATUS_lo_count : Fld := ⟨32, 16⟩
/-- Field lo_flag of tm.qmg.WM_STATUS (R317). -/
def f_qmg_WM_STATUS_lo_flag : Fld := ⟨1, 1⟩
/-- Field hi_flag of tm.qmg.WM_STATUS (R317). -/
def f_qmg_WM_STATUS_hi_flag : Fld := ⟨0, 1⟩
/-- Field peak of tm.qmg.WM_PEAK (R318). -/
def f_qmg_WM_PEAK_peak : Fld := ⟨32, 32⟩
/-- Field level of tm.qmg.WM_PEAK (R318). -/
def f_qmg_WM_PEAK_level : Fld := ⟨0, 32⟩
/-- Field free_blocks of tm.qmg.CH_STATUS (R319). -/
def f_qmg_CH_STATUS_free_blocks : Fld := ⟨46, 18⟩
/-- Field held_blocks of tm.qmg.CH_STATUS (R319). -/
def f_qmg_CH_STATUS_held_blocks : Fld := ⟨28, 18⟩
/-- Field excluded of tm.qmg.CH_STATUS (R319). -/
def f_qmg_CH_STATUS_excluded : Fld := ⟨0, 1⟩
/-- Field corrected of tm.buf.CE_CNT (R320). -/
def f_buf_CE_CNT_corrected : Fld := ⟨0, 32⟩
/-- Field ue_count of tm.buf.STATUS (R321). -/
def f_buf_STATUS_ue_count : Fld := ⟨48, 16⟩
/-- Field last_ue_bank of tm.buf.STATUS (R321). -/
def f_buf_STATUS_last_ue_bank : Fld := ⟨40, 8⟩
/-- Field last_ue_row of tm.buf.STATUS (R321). -/
def f_buf_STATUS_last_ue_row : Fld := ⟨28, 12⟩
/-- Field credit_hold of tm.sch.ING_CFG (R333). -/
def f_sch_ING_CFG_credit_hold : Fld := ⟨24, 16⟩
/-- Field class_prio of tm.sch.ING_CFG (R333). -/
def f_sch_ING_CFG_class_prio : Fld := ⟨0, 24⟩
/-- Field credit_released of tm.sch.STATUS (R334). -/
def f_sch_STATUS_credit_released : Fld := ⟨32, 32⟩
/-- Field validation_fails of tm.sch.STATUS (R334). -/
def f_sch_STATUS_validation_fails : Fld := ⟨16, 16⟩
/-- Field refills of tm.shp.STATUS (R338). -/
def f_shp_STATUS_refills : Fld := ⟨32, 32⟩
/-- Field changes of tm.shp.STATUS (R338). -/
def f_shp_STATUS_changes : Fld := ⟨16, 16⟩
/-- Field pending of tm.shp.STATUS (R338). -/
def f_shp_STATUS_pending : Fld := ⟨0, 16⟩
/-- Field frozen_colour of tm.pol.CFG (R350). -/
def f_pol_CFG_frozen_colour : Fld := ⟨0, 2⟩
/-- Field red_drops of tm.pol.STATUS (R351). -/
def f_pol_STATUS_red_drops : Fld := ⟨32, 32⟩
/-- Field frozen_charges of tm.pol.STATUS (R351). -/
def f_pol_STATUS_frozen_charges : Fld := ⟨16, 16⟩
/-- Field exc_refused of tm.pol.STATUS (R351). -/
def f_pol_STATUS_exc_refused : Fld := ⟨0, 16⟩
/-- Field tx_offset of tm.tgt.PORT_CFG (R359). -/
def f_tgt_PORT_CFG_tx_offset : Fld := ⟨29, 10⟩
/-- Field max_frame of tm.tgt.PORT_CFG (R359). -/
def f_tgt_PORT_CFG_max_frame : Fld := ⟨15, 14⟩
/-- Field gate_en of tm.tgt.PORT_CFG (R359). -/
def f_tgt_PORT_CFG_gate_en : Fld := ⟨0, 1⟩
/-- Field held of tm.tgt.PORT_STATUS (R360). -/
def f_tgt_PORT_STATUS_held : Fld := ⟨48, 16⟩
/-- Field oversize of tm.tgt.PORT_STATUS (R360). -/
def f_tgt_PORT_STATUS_oversize : Fld := ⟨40, 8⟩
/-- Field short_windows of tm.tgt.PORT_STATUS (R360). -/
def f_tgt_PORT_STATUS_short_windows : Fld := ⟨32, 8⟩
/-- Field switch_pending of tm.tgt.PORT_STATUS (R360). -/
def f_tgt_PORT_STATUS_switch_pending : Fld := ⟨31, 1⟩
/-- Field entry of tm.tgt.PORT_STATUS (R360). -/
def f_tgt_PORT_STATUS_entry : Fld := ⟨23, 8⟩
/-- Field guard of tm.tgt.PORT_STATUS (R360). -/
def f_tgt_PORT_STATUS_guard : Fld := ⟨0, 12⟩
/-- Field reasm_timeout of tm.fab.CFG (R399). -/
def f_fab_CFG_reasm_timeout : Fld := ⟨48, 16⟩
/-- Field ctrl_flush of tm.fab.CFG (R399). -/
def f_fab_CFG_ctrl_flush : Fld := ⟨32, 16⟩
/-- Field twin of tm.fab.CFG (R399). -/
def f_fab_CFG_twin : Fld := ⟨11, 1⟩
/-- Field dev_id of tm.fab.CFG (R399). -/
def f_fab_CFG_dev_id : Fld := ⟨0, 10⟩
/-- Field req_interval of tm.fab.GRANT_CFG (R400). -/
def f_fab_GRANT_CFG_req_interval : Fld := ⟨48, 16⟩
/-- Field quantum of tm.fab.GRANT_CFG (R400). -/
def f_fab_GRANT_CFG_quantum : Fld := ⟨32, 16⟩
/-- Field grant_ratio of tm.fab.GRANT_CFG (R400). -/
def f_fab_GRANT_CFG_grant_ratio : Fld := ⟨24, 8⟩
/-- Field grant_prio of tm.fab.GRANT_CFG (R400). -/
def f_fab_GRANT_CFG_grant_prio : Fld := ⟨0, 24⟩
/-- Field timeouts of tm.fab.REASM_STATUS (R405). -/
def f_fab_REASM_STATUS_timeouts : Fld := ⟨48, 16⟩
/-- Field dup_cells of tm.fab.REASM_STATUS (R405). -/
def f_fab_REASM_STATUS_dup_cells : Fld := ⟨32, 16⟩
/-- Field stomped of tm.fab.REASM_STATUS (R405). -/
def f_fab_REASM_STATUS_stomped : Fld := ⟨16, 16⟩
/-- Field fcs_errors of tm.fab.REASM_STATUS (R405). -/
def f_fab_REASM_STATUS_fcs_errors : Fld := ⟨0, 16⟩
/-- Field bad_grant of tm.fab.MSG_STATUS (R405). -/
def f_fab_MSG_STATUS_bad_grant : Fld := ⟨48, 16⟩
/-- Field req_dropped of tm.fab.MSG_STATUS (R405). -/
def f_fab_MSG_STATUS_req_dropped : Fld := ⟨32, 16⟩
/-- Field no_resource of tm.fab.MSG_STATUS (R405). -/
def f_fab_MSG_STATUS_no_resource : Fld := ⟨16, 16⟩
/-- Field len_mismatch of tm.fab.MSG_STATUS (R405). -/
def f_fab_MSG_STATUS_len_mismatch : Fld := ⟨0, 16⟩
/-- Field misrouted of tm.fab.MISC_STATUS (R405). -/
def f_fab_MISC_STATUS_misrouted : Fld := ⟨16, 16⟩
/-- Field bad_msg of tm.fab.MISC_STATUS (R405). -/
def f_fab_MISC_STATUS_bad_msg : Fld := ⟨0, 16⟩
/-- Field enable of tm.fab.LANE_EN (R401). -/
def f_fab_LANE_EN_enable : Fld := ⟨0, 64⟩
/-- Field eq_base of tm.fab.EQ_MAP (R402). -/
def f_fab_EQ_MAP_eq_base : Fld := ⟨48, 16⟩
/-- Field grant_stop of tm.fab.EQ_MAP (R402). -/
def f_fab_EQ_MAP_grant_stop : Fld := ⟨32, 16⟩
/-- Field partner_dev of tm.fab.LANE_STATUS (R403). -/
def f_fab_LANE_STATUS_partner_dev : Fld := ⟨54, 10⟩
/-- Field partner_lane of tm.fab.LANE_STATUS (R403). -/
def f_fab_LANE_STATUS_partner_lane : Fld := ⟨45, 9⟩
/-- Field partner_role of tm.fab.LANE_STATUS (R403). -/
def f_fab_LANE_STATUS_partner_role : Fld := ⟨44, 1⟩
/-- Field data_credit of tm.fab.LANE_STATUS (R403). -/
def f_fab_LANE_STATUS_data_credit : Fld := ⟨32, 12⟩
/-- Field ctrl_credit of tm.fab.LANE_STATUS (R403). -/
def f_fab_LANE_STATUS_ctrl_credit : Fld := ⟨24, 8⟩
/-- Field retrains of tm.fab.LANE_STATUS (R403). -/
def f_fab_LANE_STATUS_retrains : Fld := ⟨8, 16⟩
/-- Field state of tm.fab.LANE_STATUS (R403). -/
def f_fab_LANE_STATUS_state : Fld := ⟨0, 3⟩
/-- Field fec_corrected of tm.fab.LANE_ERR (R404). -/
def f_fab_LANE_ERR_fec_corrected : Fld := ⟨32, 32⟩
/-- Field fec_uncorrectable of tm.fab.LANE_ERR (R404). -/
def f_fab_LANE_ERR_fec_uncorrectable : Fld := ⟨16, 16⟩
/-- Field hcrc_errors of tm.fab.LANE_ERR (R404). -/
def f_fab_LANE_ERR_hcrc_errors : Fld := ⟨0, 16⟩
/-- Field valid of tm.fab.SYS_MAP (R402). -/
def f_fab_SYS_MAP_valid : Fld := ⟨63, 1⟩
/-- Field pair of tm.fab.SYS_MAP (R402). -/
def f_fab_SYS_MAP_pair : Fld := ⟨62, 1⟩
/-- Field dev of tm.fab.SYS_MAP (R402). -/
def f_fab_SYS_MAP_dev : Fld := ⟨52, 10⟩
/-- Field port of tm.fab.SYS_MAP (R402). -/
def f_fab_SYS_MAP_port : Fld := ⟨44, 8⟩
/-- Field release of tm.hmc.CH_CTRL (R435). -/
def f_tm_hmc_CH_CTRL_release : Fld := ⟨0, 1⟩
/-- Field age_sc3 of tm.hmc.SC_CFG (R436). -/
def f_tm_hmc_SC_CFG_age_sc3 : Fld := ⟨48, 16⟩
/-- Field age_sc2 of tm.hmc.SC_CFG (R436). -/
def f_tm_hmc_SC_CFG_age_sc2 : Fld := ⟨32, 16⟩
/-- Field age_sc1 of tm.hmc.SC_CFG (R436). -/
def f_tm_hmc_SC_CFG_age_sc1 : Fld := ⟨16, 16⟩
/-- Field age_sc0 of tm.hmc.SC_CFG (R436). -/
def f_tm_hmc_SC_CFG_age_sc0 : Fld := ⟨0, 16⟩
/-- Field pred_en of tm.hmc.PAGE_CFG (R437). -/
def f_tm_hmc_PAGE_CFG_pred_en : Fld := ⟨16, 1⟩
/-- Field idle_timer of tm.hmc.PAGE_CFG (R437). -/
def f_tm_hmc_PAGE_CFG_idle_timer : Fld := ⟨0, 16⟩
/-- Field promotions of tm.hmc.CH_STATUS (R438). -/
def f_tm_hmc_CH_STATUS_promotions : Fld := ⟨48, 16⟩
/-- Field pending of tm.hmc.CH_STATUS (R438). -/
def f_tm_hmc_CH_STATUS_pending : Fld := ⟨40, 8⟩
/-- Field stop_pending of tm.hmc.CH_STATUS (R438). -/
def f_tm_hmc_CH_STATUS_stop_pending : Fld := ⟨10, 1⟩
/-- Field restart_pending of tm.hmc.CH_STATUS (R438). -/
def f_tm_hmc_CH_STATUS_restart_pending : Fld := ⟨9, 1⟩
/-- Field release_refused of tm.hmc.CH_STATUS (R438). -/
def f_tm_hmc_CH_STATUS_release_refused : Fld := ⟨8, 1⟩
/-- Field training_failed of tm.hmc.CH_STATUS (R438). -/
def f_tm_hmc_CH_STATUS_training_failed : Fld := ⟨7, 1⟩
/-- Field data_suspect of tm.hmc.CH_STATUS (R438). -/
def f_tm_hmc_CH_STATUS_data_suspect : Fld := ⟨6, 1⟩
/-- Field capture_read of tm.hmc.CH_STATUS (R438). -/
def f_tm_hmc_CH_STATUS_capture_read : Fld := ⟨5, 1⟩
/-- Field freeze_cause of tm.hmc.CH_STATUS (R438). -/
def f_tm_hmc_CH_STATUS_freeze_cause : Fld := ⟨3, 2⟩
/-- Field frozen of tm.hmc.CH_STATUS (R438). -/
def f_tm_hmc_CH_STATUS_frozen : Fld := ⟨2, 1⟩
/-- Field state of tm.hmc.CH_STATUS (R438). -/
def f_tm_hmc_CH_STATUS_state : Fld := ⟨0, 2⟩
/-- Field ce_count of tm.hmc.ERR_CNT (R439). -/
def f_tm_hmc_ERR_CNT_ce_count : Fld := ⟨32, 32⟩
/-- Field ue_count of tm.hmc.ERR_CNT (R439). -/
def f_tm_hmc_ERR_CNT_ue_count : Fld := ⟨16, 16⟩
/-- Field ca_parity of tm.hmc.ERR_CNT (R439). -/
def f_tm_hmc_ERR_CNT_ca_parity : Fld := ⟨0, 16⟩
/-- Field value of tm.hmc.TRAIN_CTRL (R440). -/
def f_tm_hmc_TRAIN_CTRL_value : Fld := ⟨56, 8⟩
/-- Field lane of tm.hmc.TRAIN_CTRL (R440). -/
def f_tm_hmc_TRAIN_CTRL_lane : Fld := ⟨48, 8⟩
/-- Field bursts of tm.hmc.TRAIN_CTRL (R440). -/
def f_tm_hmc_TRAIN_CTRL_bursts : Fld := ⟨32, 16⟩
/-- Field pattern of tm.hmc.TRAIN_CTRL (R440). -/
def f_tm_hmc_TRAIN_CTRL_pattern : Fld := ⟨28, 4⟩
/-- Field pc of tm.hmc.TRAIN_CTRL (R440). -/
def f_tm_hmc_TRAIN_CTRL_pc : Fld := ⟨27, 1⟩
/-- Field cmd of tm.hmc.TRAIN_CTRL (R440). -/
def f_tm_hmc_TRAIN_CTRL_cmd : Fld := ⟨0, 4⟩
/-- Field done of tm.hmc.TRAIN_RESULT (R441). -/
def f_tm_hmc_TRAIN_RESULT_done : Fld := ⟨63, 1⟩
/-- Field busy of tm.hmc.TRAIN_RESULT (R441). -/
def f_tm_hmc_TRAIN_RESULT_busy : Fld := ⟨62, 1⟩
/-- Field err_count of tm.hmc.TRAIN_RESULT (R441). -/
def f_tm_hmc_TRAIN_RESULT_err_count : Fld := ⟨36, 26⟩
/-- Field err_mask of tm.hmc.TRAIN_RESULT (R441). -/
def f_tm_hmc_TRAIN_RESULT_err_mask : Fld := ⟨0, 36⟩
/-- Field cmd_count of tm.hmc.CAP_INFO (R442). -/
def f_tm_hmc_CAP_INFO_cmd_count : Fld := ⟨52, 8⟩
/-- Field pending_at_freeze of tm.hmc.CAP_INFO (R442). -/
def f_tm_hmc_CAP_INFO_pending_at_freeze : Fld := ⟨45, 7⟩
/-- Field addr of tm.hmc.CAP_INFO (R442). -/
def f_tm_hmc_CAP_INFO_addr : Fld := ⟨0, 38⟩
/-- Field sc of tm.hmc.CAP_SYND (R443). -/
def f_tm_hmc_CAP_SYND_sc : Fld := ⟨40, 2⟩
/-- Field syndrome of tm.hmc.CAP_SYND (R443). -/
def f_tm_hmc_CAP_SYND_syndrome : Fld := ⟨0, 32⟩
/-- Field age of tm.hmc.CAP_CMD (R444). -/
def f_tm_hmc_CAP_CMD_age : Fld := ⟨48, 16⟩
/-- Field cmd of tm.hmc.CAP_CMD (R444). -/
def f_tm_hmc_CAP_CMD_cmd : Fld := ⟨44, 4⟩
/-- Field sc of tm.hmc.CAP_CMD (R444). -/
def f_tm_hmc_CAP_CMD_sc : Fld := ⟨42, 2⟩
/-- Field pc of tm.hmc.CAP_CMD (R444). -/
def f_tm_hmc_CAP_CMD_pc : Fld := ⟨41, 1⟩
/-- Field sid of tm.hmc.CAP_CMD (R444). -/
def f_tm_hmc_CAP_CMD_sid : Fld := ⟨39, 2⟩
/-- Field bg of tm.hmc.CAP_CMD (R444). -/
def f_tm_hmc_CAP_CMD_bg : Fld := ⟨37, 2⟩
/-- Field ba of tm.hmc.CAP_CMD (R444). -/
def f_tm_hmc_CAP_CMD_ba : Fld := ⟨35, 2⟩
/-- Field row of tm.hmc.CAP_CMD (R444). -/
def f_tm_hmc_CAP_CMD_row : Fld := ⟨22, 13⟩
/-- Field column of tm.hmc.CAP_CMD (R444). -/
def f_tm_hmc_CAP_CMD_column : Fld := ⟨18, 4⟩
/-- Field mask of tm.hmc.MAP_MASK (R431). -/
def f_tm_hmc_MAP_MASK_mask : Fld := ⟨0, 30⟩
/-- Field osc_interval of tm.hmc.RETRAIN_CFG (R432). -/
def f_tm_hmc_RETRAIN_CFG_osc_interval : Fld := ⟨32, 16⟩
/-- Field retrain_delta of tm.hmc.RETRAIN_CFG (R432). -/
def f_tm_hmc_RETRAIN_CFG_retrain_delta : Fld := ⟨8, 8⟩
/-- Field enable of tm.hmc.RETRAIN_CFG (R432). -/
def f_tm_hmc_RETRAIN_CFG_enable : Fld := ⟨0, 1⟩
/-- Field pol_en of tm.hmc.CARVE (R433). -/
def f_tm_hmc_CARVE_pol_en : Fld := ⟨32, 1⟩
/-- Field spill_blocks of tm.hmc.CARVE (R433). -/
def f_tm_hmc_CARVE_spill_blocks : Fld := ⟨0, 18⟩
/-- Field lanes_repaired of tm.d2d.STATUS (R19). -/
def f_d2d_STATUS_lanes_repaired : Fld := ⟨48, 9⟩
/-- Field modules_up of tm.d2d.STATUS (R19). -/
def f_d2d_STATUS_modules_up : Fld := ⟨36, 6⟩
/-- Field modules_retired of tm.d2d.STATUS (R19). -/
def f_d2d_STATUS_modules_retired : Fld := ⟨30, 6⟩
/-- Field failed_seen of tm.d2d.STATUS (R19). -/
def f_d2d_STATUS_failed_seen : Fld := ⟨7, 1⟩
/-- Field limited_seen of tm.d2d.STATUS (R19). -/
def f_d2d_STATUS_limited_seen : Fld := ⟨6, 1⟩
/-- Field health of tm.d2d.STATUS (R19). -/
def f_d2d_STATUS_health : Fld := ⟨2, 2⟩
/-- Field link_state of tm.d2d.STATUS (R19). -/
def f_d2d_STATUS_link_state : Fld := ⟨0, 2⟩
/-- Field retrain_count of tm.d2d.MOD_STATUS (R20). -/
def f_d2d_MOD_STATUS_retrain_count : Fld := ⟨48, 16⟩
/-- Field tx_spares_used of tm.d2d.MOD_STATUS (R20). -/
def f_d2d_MOD_STATUS_tx_spares_used : Fld := ⟨36, 4⟩
/-- Field rx_spares_used of tm.d2d.MOD_STATUS (R20). -/
def f_d2d_MOD_STATUS_rx_spares_used : Fld := ⟨32, 4⟩
/-- Field state of tm.d2d.MOD_STATUS (R20). -/
def f_d2d_MOD_STATUS_state : Fld := ⟨0, 3⟩
/-- Field crc_errors of tm.d2d.MOD_ERR (R21). -/
def f_d2d_MOD_ERR_crc_errors : Fld := ⟨32, 32⟩
/-- Field replays of tm.d2d.MOD_ERR (R21). -/
def f_d2d_MOD_ERR_replays : Fld := ⟨0, 32⟩

/-- pk.glb.IDENT, BAR0 offset 0x0 (00_scope.md R4). -/
def row_glb_IDENT : RegRow :=
  ⟨0x0, [], .unsealed, 0x5120000000000100,
   [(f_glb_IDENT_part_number, .ro), (f_glb_IDENT_step_major, .ro), (f_glb_IDENT_step_minor, .ro),
    (f_glb_IDENT_grade, .ro), (f_glb_IDENT_fe_die_rev, .ro), (f_glb_IDENT_tm_die_rev, .ro),
    (f_glb_IDENT_ident_ver, .ro)]⟩
/-- pk.glb.BOOT_STATUS, BAR0 offset 0x8 (13_host_interface.md R494). -/
def row_glb_BOOT_STATUS : RegRow :=
  ⟨0x8, [], .unsealed, 0x0,
   [(f_glb_BOOT_STATUS_elapsed, .ro), (f_glb_BOOT_STATUS_fail_code, .ro),
    (f_glb_BOOT_STATUS_playbook, .ro), (f_glb_BOOT_STATUS_slot, .ro), (f_glb_BOOT_STATUS_stage,
    .ro), (f_glb_BOOT_STATUS_ready, .ro)]⟩
/-- pk.glb.STRAPS, BAR0 offset 0x10 (13_host_interface.md R495). -/
def row_glb_STRAPS : RegRow :=
  ⟨0x10, [], .unsealed, 0x0,
   [(f_glb_STRAPS_twin_id, .ro), (f_glb_STRAPS_playbook_sel, .ro)]⟩
/-- pk.glb.LC_SUMMARY, BAR0 offset 0x18 (13_host_interface.md R495). -/
def row_glb_LC_SUMMARY : RegRow :=
  ⟨0x18, [], .unsealed, 0x0,
   [(f_glb_LC_SUMMARY_pd_busy, .ro), (f_glb_LC_SUMMARY_pd_on, .ro)]⟩
/-- pk.glb.EVT_ROUTE, BAR0 offset 0x4000 (13_host_interface.md R511). -/
def row_glb_EVT_ROUTE : RegRow :=
  ⟨0x4000, [(1024, 8)], .tunable, 0x8,
   [(f_glb_EVT_ROUTE_enable, .rw), (f_glb_EVT_ROUTE_ring, .rw)]⟩
/-- pk.cpr.TIME, BAR0 offset 0x100008 (17_clocks_power_reset_lifecycle.md R604). -/
def row_cpr_TIME : RegRow :=
  ⟨0x100008, [], .unsealed, 0x0,
   [(f_cpr_TIME_tick, .ro)]⟩
/-- pk.cpr.TIME_CFG, BAR0 offset 0x100010 (17_clocks_power_reset_lifecycle.md R605). -/
def row_cpr_TIME_CFG : RegRow :=
  ⟨0x100010, [], .tunable, 0x640000,
   [(f_cpr_TIME_CFG_pps_width, .rw), (f_cpr_TIME_CFG_pps_en, .rw), (f_cpr_TIME_CFG_tai_valid,
    .rw), (f_cpr_TIME_CFG_src, .rw)]⟩
/-- pk.cpr.TAI_OFFSET, BAR0 offset 0x100018 (17_clocks_power_reset_lifecycle.md R606). -/
def row_cpr_TAI_OFFSET : RegRow :=
  ⟨0x100018, [], .tunable, 0x0,
   [(f_cpr_TAI_OFFSET_offset, .rw)]⟩
/-- pk.cpr.TIME_RATE, BAR0 offset 0x100020 (17_clocks_power_reset_lifecycle.md R606). -/
def row_cpr_TIME_RATE : RegRow :=
  ⟨0x100020, [], .tunable, 0x0,
   [(f_cpr_TIME_RATE_rate_ppb, .rw)]⟩
/-- pk.cpr.TIME_ADJ_AT, BAR0 offset 0x100028 (17_clocks_power_reset_lifecycle.md R607). -/
def row_cpr_TIME_ADJ_AT : RegRow :=
  ⟨0x100028, [], .tunable, 0x0,
   [(f_cpr_TIME_ADJ_AT_tick, .rw)]⟩
/-- pk.cpr.TIME_ADJ, BAR0 offset 0x100030 (17_clocks_power_reset_lifecycle.md R607). -/
def row_cpr_TIME_ADJ : RegRow :=
  ⟨0x100030, [], .tunable, 0x0,
   [(f_cpr_TIME_ADJ_go, .w1s), (f_cpr_TIME_ADJ_pending, .ro), (f_cpr_TIME_ADJ_step, .rw)]⟩
/-- pk.cpr.PPS_CAP, BAR0 offset 0x100038 (17_clocks_power_reset_lifecycle.md R608). -/
def row_cpr_PPS_CAP : RegRow :=
  ⟨0x100038, [], .unsealed, 0x0,
   [(f_cpr_PPS_CAP_new, .rc), (f_cpr_PPS_CAP_tick, .ro)]⟩
/-- pk.cpr.RESET_CAUSE, BAR0 offset 0x100100 (17_clocks_power_reset_lifecycle.md R617). -/
def row_cpr_RESET_CAUSE : RegRow :=
  ⟨0x100100, [], .unsealed, 0x0,
   [(f_cpr_RESET_CAUSE_device_resets, .ro), (f_cpr_RESET_CAUSE_mgmt_restarts, .ro),
    (f_cpr_RESET_CAUSE_cause, .ro)]⟩
/-- pk.cpr.RESET_CTRL, BAR0 offset 0x100108 (17_clocks_power_reset_lifecycle.md R618). -/
def row_cpr_RESET_CTRL : RegRow :=
  ⟨0x100108, [], .tunable, 0x0,
   [(f_cpr_RESET_CTRL_key, .wo)]⟩
/-- pk.cpr.WDOG, BAR0 offset 0x100110 (17_clocks_power_reset_lifecycle.md R619). -/
def row_cpr_WDOG : RegRow :=
  ⟨0x100110, [], .tunable, 0x7D0,
   [(f_cpr_WDOG_kick, .w1s), (f_cpr_WDOG_expiries, .rc), (f_cpr_WDOG_period, .rw),
    (f_cpr_WDOG_enable, .rw)]⟩
/-- pk.cpr.PD_CTRL, BAR0 offset 0x101000 (17_clocks_power_reset_lifecycle.md R613). -/
def row_cpr_PD_CTRL : RegRow :=
  ⟨0x101000, [(24, 8)], .tunable, 0x0,
   [(f_cpr_PD_CTRL_enable, .rw)]⟩
/-- pk.cpr.PD_STATUS, BAR0 offset 0x101100 (17_clocks_power_reset_lifecycle.md R614). -/
def row_cpr_PD_STATUS : RegRow :=
  ⟨0x101100, [(24, 8)], .unsealed, 0x0,
   [(f_cpr_PD_STATUS_starts, .rc), (f_cpr_PD_STATUS_last_start, .ro), (f_cpr_PD_STATUS_fail,
    .w1c), (f_cpr_PD_STATUS_waiting, .ro), (f_cpr_PD_STATUS_stop_pending, .ro),
    (f_cpr_PD_STATUS_restart_pending, .ro), (f_cpr_PD_STATUS_state, .ro)]⟩
/-- pk.mgs.SENSOR, BAR0 offset 0x201000 (14_management_startup_lifetime.md R535). -/
def row_mgs_SENSOR : RegRow :=
  ⟨0x201000, [(158, 8)], .unsealed, 0x0,
   [(f_mgs_SENSOR_max, .rc), (f_mgs_SENSOR_value, .ro)]⟩
/-- pk.mgs.THERM, BAR0 offset 0x201800 (14_management_startup_lifetime.md R535). -/
def row_mgs_THERM : RegRow :=
  ⟨0x201800, [], .unsealed, 0x280000,
   [(f_mgs_THERM_droop_mv, .rw), (f_mgs_THERM_hottest, .ro), (f_mgs_THERM_state, .ro)]⟩
/-- pk.gkp.TASK_CFG, BAR0 offset 0x202000 (14_management_startup_lifetime.md R543). -/
def row_gkp_TASK_CFG : RegRow :=
  ⟨0x202000, [(16, 8)], .tunable, 0x1,
   [(f_gkp_TASK_CFG_retire_restart, .rw), (f_gkp_TASK_CFG_enable, .rw)]⟩
/-- pk.gkp.TASK_STATUS, BAR0 offset 0x202100 (14_management_startup_lifetime.md R543). -/
def row_gkp_TASK_STATUS : RegRow :=
  ⟨0x202100, [(16, 8)], .unsealed, 0x0,
   [(f_gkp_TASK_STATUS_passes, .rc), (f_gkp_TASK_STATUS_delays, .rc),
    (f_gkp_TASK_STATUS_stop_pending, .ro), (f_gkp_TASK_STATUS_restart_pending, .ro),
    (f_gkp_TASK_STATUS_state, .ro)]⟩
/-- pk.mgs.UPD_STATUS, BAR0 offset 0x203000 (15_delta_update_fallback.md R566). -/
def row_mgs_UPD_STATUS : RegRow :=
  ⟨0x203000, [], .unsealed, 0x0,
   [(f_mgs_UPD_STATUS_staged, .ro), (f_mgs_UPD_STATUS_piece_count, .ro),
    (f_mgs_UPD_STATUS_holder, .ro), (f_mgs_UPD_STATUS_last_detail, .ro),
    (f_mgs_UPD_STATUS_retained, .ro), (f_mgs_UPD_STATUS_state, .ro)]⟩
/-- pk.mgs.SLOT_STATUS, BAR0 offset 0x203008 (15_delta_update_fallback.md R567). -/
def row_mgs_SLOT_STATUS : RegRow :=
  ⟨0x203008, [], .unsealed, 0x0,
   [(f_mgs_SLOT_STATUS_fused, .ro), (f_mgs_SLOT_STATUS_running_secver, .ro),
    (f_mgs_SLOT_STATUS_active, .ro), (f_mgs_SLOT_STATUS_reason_b, .ro),
    (f_mgs_SLOT_STATUS_state_b, .ro), (f_mgs_SLOT_STATUS_reason_a, .ro),
    (f_mgs_SLOT_STATUS_state_a, .ro)]⟩
/-- pk.gkp.AUDIT_CFG, BAR0 offset 0x204000 (06_tables_learning_transactions.md R241). -/
def row_gkp_AUDIT_CFG : RegRow :=
  ⟨0x204000, [(64, 32)], .tunable, 0x100000A,
   [(f_gkp_AUDIT_CFG_enable, .rw), (f_gkp_AUDIT_CFG_repair, .rw), (f_gkp_AUDIT_CFG_unit, .rw),
    (f_gkp_AUDIT_CFG_step_entries, .rw), (f_gkp_AUDIT_CFG_interval, .rw)]⟩
/-- pk.gkp.AUDIT_ADDR, BAR0 offset 0x204008 (06_tables_learning_transactions.md R242). -/
def row_gkp_AUDIT_ADDR : RegRow :=
  ⟨0x204008, [(64, 32)], .tunable, 0x0,
   [(f_gkp_AUDIT_ADDR_addr, .rw)]⟩
/-- pk.gkp.AUDIT_STATUS, BAR0 offset 0x204010 (06_tables_learning_transactions.md R243). -/
def row_gkp_AUDIT_STATUS : RegRow :=
  ⟨0x204010, [(64, 32)], .unsealed, 0x0,
   [(f_gkp_AUDIT_STATUS_mismatches, .rc), (f_gkp_AUDIT_STATUS_repairs, .rc),
    (f_gkp_AUDIT_STATUS_skipped, .rc), (f_gkp_AUDIT_STATUS_passes, .rc)]⟩
/-- pk.gkp.AUDIT_LAST, BAR0 offset 0x204018 (06_tables_learning_transactions.md R243). -/
def row_gkp_AUDIT_LAST : RegRow :=
  ⟨0x204018, [(64, 32)], .unsealed, 0x0,
   [(f_gkp_AUDIT_LAST_record, .ro)]⟩
/-- pk.pci.ERR_STATUS, BAR0 offset 0x300000 (13_host_interface.md R508). -/
def row_pci_ERR_STATUS : RegRow :=
  ⟨0x300000, [], .unsealed, 0x0,
   [(f_pci_ERR_STATUS_count, .rc), (f_pci_ERR_STATUS_last_kind, .ro),
    (f_pci_ERR_STATUS_last_func, .ro), (f_pci_ERR_STATUS_last_vf, .ro),
    (f_pci_ERR_STATUS_last_offset, .ro)]⟩
/-- pk.pci.TXN_CFG, BAR0 offset 0x308000 (06_tables_learning_transactions.md R233). -/
def row_pci_TXN_CFG : RegRow :=
  ⟨0x308000, [], .tunable, 0x3E8,
   [(f_pci_TXN_CFG_wait_limit, .rw)]⟩
/-- pk.pci.TXN_STATUS, BAR0 offset 0x308008 (06_tables_learning_transactions.md R234). -/
def row_pci_TXN_STATUS : RegRow :=
  ⟨0x308008, [], .unsealed, 0x0,
   [(f_pci_TXN_STATUS_committed, .rc), (f_pci_TXN_STATUS_aborted, .rc),
    (f_pci_TXN_STATUS_wait_unit, .ro), (f_pci_TXN_STATUS_state, .ro)]⟩
/-- pk.pci.TXN_LAST_SEQ, BAR0 offset 0x308010 (06_tables_learning_transactions.md R235). -/
def row_pci_TXN_LAST_SEQ : RegRow :=
  ⟨0x308010, [], .unsealed, 0x0,
   [(f_pci_TXN_LAST_SEQ_seq, .ro)]⟩
/-- pk.pci.VF_RINGS, BAR0 offset 0x30A008 (13_host_interface.md R502). -/
def row_pci_VF_RINGS : RegRow :=
  ⟨0x30A008, [(63, 8)], .tunable, 0x0,
   [(f_pci_VF_RINGS_inject_count, .rw), (f_pci_VF_RINGS_inject_base, .rw),
    (f_pci_VF_RINGS_punt_count, .rw), (f_pci_VF_RINGS_punt_base, .rw)]⟩
/-- pk.pci.RING_BASE, BAR0 offset 0x310000 (13_host_interface.md R500). -/
def row_pci_RING_BASE : RegRow :=
  ⟨0x310000, [(2112, 64)], .tunable, 0x0,
   [(f_pci_RING_BASE_base, .rw)]⟩
/-- pk.pci.RING_CFG, BAR0 offset 0x310008 (13_host_interface.md R500). -/
def row_pci_RING_CFG : RegRow :=
  ⟨0x310008, [(2112, 64)], .tunable, 0x1800010000E00000,
   [(f_pci_RING_CFG_enable, .rw), (f_pci_RING_CFG_size_log2, .rw), (f_pci_RING_CFG_coal_count,
    .rw), (f_pci_RING_CFG_coal_timer, .rw), (f_pci_RING_CFG_mode_mask, .rw),
    (f_pci_RING_CFG_fixed, .rw), (f_pci_RING_CFG_target, .rw)]⟩
/-- pk.pci.RING_PIDX, BAR0 offset 0x310010 (13_host_interface.md R500). -/
def row_pci_RING_PIDX : RegRow :=
  ⟨0x310010, [(2112, 64)], .tunable, 0x0,
   [(f_pci_RING_PIDX_pidx, .rw)]⟩
/-- pk.pci.RING_CIDX, BAR0 offset 0x310018 (13_host_interface.md R500). -/
def row_pci_RING_CIDX : RegRow :=
  ⟨0x310018, [(2112, 64)], .tunable, 0x0,
   [(f_pci_RING_CIDX_index, .rw)]⟩
/-- pk.pci.RING_WB, BAR0 offset 0x310020 (13_host_interface.md R500). -/
def row_pci_RING_WB : RegRow :=
  ⟨0x310020, [(2112, 64)], .tunable, 0x0,
   [(f_pci_RING_WB_wb_addr, .rw), (f_pci_RING_WB_wb_en, .rw)]⟩
/-- pk.pci.RING_STATUS, BAR0 offset 0x310028 (13_host_interface.md R500). -/
def row_pci_RING_STATUS : RegRow :=
  ⟨0x310028, [(2112, 64)], .unsealed, 0x0,
   [(f_pci_RING_STATUS_drops, .rc), (f_pci_RING_STATUS_err_code, .ro),
    (f_pci_RING_STATUS_stop_pending, .ro), (f_pci_RING_STATUS_restart_pending, .ro),
    (f_pci_RING_STATUS_state, .ro)]⟩
/-- pk.twn.CFG, BAR0 offset 0x400000 (12_twins_inservice_upgrade.md R479). -/
def row_twn_CFG : RegRow :=
  ⟨0x400000, [], .sealed, 0x0,
   [(f_twn_CFG_min_lanes, .rw), (f_twn_CFG_enable, .rw)]⟩
/-- pk.twn.TUNE, BAR0 offset 0x400008 (12_twins_inservice_upgrade.md R480). -/
def row_twn_TUNE : RegRow :=
  ⟨0x400008, [], .tunable, 0x7D00064401003E8,
   [(f_twn_TUNE_lag_limit, .rw), (f_twn_TUNE_stage_limit, .rw), (f_twn_TUNE_ts_tol, .rw),
    (f_twn_TUNE_copy_rate, .rw), (f_twn_TUNE_handover_limit, .rw)]⟩
/-- pk.twn.CTRL, BAR0 offset 0x400010 (12_twins_inservice_upgrade.md R481). -/
def row_twn_CTRL : RegRow :=
  ⟨0x400010, [], .tunable, 0x0,
   [(f_twn_CTRL_force_ready, .rw), (f_twn_CTRL_relinquish, .w1s), (f_twn_CTRL_in_step_en, .rw)]⟩
/-- pk.twn.STATUS, BAR0 offset 0x400018 (12_twins_inservice_upgrade.md R482). -/
def row_twn_STATUS : RegRow :=
  ⟨0x400018, [], .unsealed, 0x0,
   [(f_twn_STATUS_break_cause, .ro), (f_twn_STATUS_lanes_up, .ro), (f_twn_STATUS_lag, .ro),
    (f_twn_STATUS_handover, .ro), (f_twn_STATUS_log_source, .ro), (f_twn_STATUS_serve, .ro),
    (f_twn_STATUS_stop_pending, .ro), (f_twn_STATUS_restart_pending, .ro), (f_twn_STATUS_state,
    .ro)]⟩
/-- pk.twn.EPOCH, BAR0 offset 0x400020 (12_twins_inservice_upgrade.md R483). -/
def row_twn_EPOCH : RegRow :=
  ⟨0x400020, [], .unsealed, 0x0,
   [(f_twn_EPOCH_highest, .ro), (f_twn_EPOCH_held, .ro)]⟩
/-- pk.twn.HEALTH, BAR0 offset 0x400028 (12_twins_inservice_upgrade.md R484). -/
def row_twn_HEALTH : RegRow :=
  ⟨0x400028, [], .unsealed, 0x0,
   [(f_twn_HEALTH_word, .ro)]⟩
/-- pk.twn.HEALTH_WT, BAR0 offset 0x400030 (12_twins_inservice_upgrade.md R485). -/
def row_twn_HEALTH_WT : RegRow :=
  ⟨0x400030, [], .tunable, 0x4088010,
   [(f_twn_HEALTH_WT_port_wt, .rw), (f_twn_HEALTH_WT_fab_wt, .rw), (f_twn_HEALTH_WT_d2d_wt, .rw),
    (f_twn_HEALTH_WT_hbm_wt, .rw)]⟩
/-- pk.twn.PARTNER, BAR0 offset 0x400040 (12_twins_inservice_upgrade.md R488). -/
def row_twn_PARTNER : RegRow :=
  ⟨0x400040, [], .unsealed, 0x0,
   [(f_twn_PARTNER_step_id, .ro), (f_twn_PARTNER_dev_id, .ro), (f_twn_PARTNER_grade, .ro),
    (f_twn_PARTNER_twin_id, .ro), (f_twn_PARTNER_valid, .ro)]⟩
/-- pk.twn.CNT, BAR0 offset 0x400100 (12_twins_inservice_upgrade.md R486). -/
def row_twn_CNT : RegRow :=
  ⟨0x400100, [(10, 8)], .unsealed, 0x0,
   [(f_twn_CNT_count, .rc)]⟩
/-- pk.twn.RALLY_LANE, BAR0 offset 0x400200 (12_twins_inservice_upgrade.md R487). -/
def row_twn_RALLY_LANE : RegRow :=
  ⟨0x400200, [(8, 8)], .unsealed, 0x0,
   [(f_twn_RALLY_LANE_crc_errors, .rc), (f_twn_RALLY_LANE_retrains, .rc),
    (f_twn_RALLY_LANE_state, .ro)]⟩
/-- pk.skp.CNT_CFG, BAR0 offset 0x500000 (16_counters_tracing.md R586). -/
def row_skp_CNT_CFG : RegRow :=
  ⟨0x500000, [(321, 64), (8, 8)], .tunable, 0x0,
   [(f_skp_CNT_CFG_threshold, .rw), (f_skp_CNT_CFG_mode, .rw), (f_skp_CNT_CFG_source, .rw)]⟩
/-- pk.skp.PERM, BAR0 offset 0x508000 (16_counters_tracing.md R587). -/
def row_skp_PERM : RegRow :=
  ⟨0x508000, [(321, 8)], .tunable, 0x0,
   [(f_skp_PERM_vf, .rw), (f_skp_PERM_score, .rw)]⟩
/-- pk.skp.CLEAR, BAR0 offset 0x50C000 (16_counters_tracing.md R588). -/
def row_skp_CLEAR : RegRow :=
  ⟨0x50C000, [], .tunable, 0x0,
   [(f_skp_CLEAR_go, .wo), (f_skp_CLEAR_group, .wo)]⟩
/-- pk.skp.WHISTLE_CTRL, BAR0 offset 0x50C008 (16_counters_tracing.md R589). -/
def row_skp_WHISTLE_CTRL : RegRow :=
  ⟨0x50C008, [], .tunable, 0x0,
   [(f_skp_WHISTLE_CTRL_late, .w1c), (f_skp_WHISTLE_CTRL_arm, .rw), (f_skp_WHISTLE_CTRL_release,
    .w1s), (f_skp_WHISTLE_CTRL_fire, .w1s)]⟩
/-- pk.skp.WHISTLE_AT, BAR0 offset 0x50C010 (16_counters_tracing.md R590). -/
def row_skp_WHISTLE_AT : RegRow :=
  ⟨0x50C010, [], .tunable, 0x0,
   [(f_skp_WHISTLE_AT_tick, .rw)]⟩
/-- pk.skp.STATUS, BAR0 offset 0x50C018 (16_counters_tracing.md R591). -/
def row_skp_STATUS : RegRow :=
  ⟨0x50C018, [], .unsealed, 0x0,
   [(f_skp_STATUS_sweep, .ro), (f_skp_STATUS_refused, .rc), (f_skp_STATUS_pushes_skipped, .rc),
    (f_skp_STATUS_whistle_state, .ro)]⟩
/-- pk.skp.PUSH_CFG, BAR0 offset 0x50C020 (16_counters_tracing.md R592). -/
def row_skp_PUSH_CFG : RegRow :=
  ⟨0x50C020, [], .tunable, 0x0,
   [(f_skp_PUSH_CFG_addr, .rw), (f_skp_PUSH_CFG_every_log2, .rw), (f_skp_PUSH_CFG_enable, .rw)]⟩
/-- pk.skp.TRACE_CFG, BAR0 offset 0x50D000 (16_counters_tracing.md R593). -/
def row_skp_TRACE_CFG : RegRow :=
  ⟨0x50D000, [], .tunable, 0x64000000001000,
   [(f_skp_TRACE_CFG_timeout, .rw), (f_skp_TRACE_CFG_k, .rw), (f_skp_TRACE_CFG_mode, .rw),
    (f_skp_TRACE_CFG_accept_fabric, .rw), (f_skp_TRACE_CFG_enable, .rw)]⟩
/-- pk.skp.TRACE_SEED, BAR0 offset 0x50D008 (16_counters_tracing.md R593). -/
def row_skp_TRACE_SEED : RegRow :=
  ⟨0x50D008, [], .tunable, 0x0,
   [(f_skp_TRACE_SEED_seed, .rw)]⟩
/-- pk.skp.TRACE_STATUS, BAR0 offset 0x50D010 (16_counters_tracing.md R594). -/
def row_skp_TRACE_STATUS : RegRow :=
  ⟨0x50D010, [], .unsealed, 0x0,
   [(f_skp_TRACE_STATUS_pidx, .ro), (f_skp_TRACE_STATUS_missed, .rc),
    (f_skp_TRACE_STATUS_overwritten, .rc), (f_skp_TRACE_STATUS_in_flight, .ro)]⟩
/-- pk.skp.TRACE_CIDX, BAR0 offset 0x50D018 (16_counters_tracing.md R594). -/
def row_skp_TRACE_CIDX : RegRow :=
  ⟨0x50D018, [], .tunable, 0x0,
   [(f_skp_TRACE_CIDX_cidx, .rw)]⟩
/-- fe.lmac.PORT_CFG, BAR0 offset 0x1000000 (10_ports_macsec_fabric.md R371). -/
def row_lmac_PORT_CFG : RegRow :=
  ⟨0x1000000, [(256, 8)], .sealed, 0x0,
   [(f_lmac_PORT_CFG_rx_max, .rw), (f_lmac_PORT_CFG_tx_max, .rw), (f_lmac_PORT_CFG_rx_delay,
    .rw), (f_lmac_PORT_CFG_tx_delay, .rw), (f_lmac_PORT_CFG_an_lt, .rw), (f_lmac_PORT_CFG_mode,
    .rw)]⟩
/-- fe.lmac.PORT_CTRL, BAR0 offset 0x1000800 (10_ports_macsec_fabric.md R372). -/
def row_lmac_PORT_CTRL : RegRow :=
  ⟨0x1000800, [(256, 8)], .tunable, 0x0,
   [(f_lmac_PORT_CTRL_ptp_mode, .rw), (f_lmac_PORT_CTRL_down_mode, .rw),
    (f_lmac_PORT_CTRL_enable, .rw)]⟩
/-- fe.lmac.PORT_FC, BAR0 offset 0x1001000 (10_ports_macsec_fabric.md R373). -/
def row_lmac_PORT_FC : RegRow :=
  ⟨0x1001000, [(256, 8)], .tunable, 0x0,
   [(f_lmac_PORT_FC_quanta, .rw), (f_lmac_PORT_FC_tx_class_en, .rw), (f_lmac_PORT_FC_xoff, .rw),
    (f_lmac_PORT_FC_xon, .rw), (f_lmac_PORT_FC_dflt_class, .rw), (f_lmac_PORT_FC_rx_en, .rw),
    (f_lmac_PORT_FC_fc_mode, .rw)]⟩
/-- fe.lmac.PORT_STATUS, BAR0 offset 0x1001800 (10_ports_macsec_fabric.md R374). -/
def row_lmac_PORT_STATUS : RegRow :=
  ⟨0x1001800, [(256, 8)], .unsealed, 0x0,
   [(f_lmac_PORT_STATUS_ts_lost, .rc), (f_lmac_PORT_STATUS_rx_paused, .ro),
    (f_lmac_PORT_STATUS_tx_xoff, .ro), (f_lmac_PORT_STATUS_link_down_seen, .w1c),
    (f_lmac_PORT_STATUS_link_up, .ro), (f_lmac_PORT_STATUS_stop_pending, .ro),
    (f_lmac_PORT_STATUS_restart_pending, .ro), (f_lmac_PORT_STATUS_state, .ro)]⟩
/-- fe.lmac.TS_FIFO, BAR0 offset 0x1002000 (10_ports_macsec_fabric.md R375). -/
def row_lmac_TS_FIFO : RegRow :=
  ⟨0x1002000, [(256, 8)], .unsealed, 0x0,
   [(f_lmac_TS_FIFO_valid, .rc), (f_lmac_TS_FIFO_message_type, .rc), (f_lmac_TS_FIFO_sequence_id,
    .rc), (f_lmac_TS_FIFO_ts, .rc)]⟩
/-- fe.lmac.MSEC_CFG, BAR0 offset 0x1002800 (10_ports_macsec_fabric.md R382). -/
def row_lmac_MSEC_CFG : RegRow :=
  ⟨0x1002800, [(256, 8)], .tunable, 0x888E888E203E,
   [(f_lmac_MSEC_CFG_enable, .rw), (f_lmac_MSEC_CFG_bypass0, .rw), (f_lmac_MSEC_CFG_bypass1,
    .rw), (f_lmac_MSEC_CFG_jump_log2, .rw), (f_lmac_MSEC_CFG_pn_event_log2, .rw)]⟩
/-- fe.lmac.CNT, BAR0 offset 0x1008000 (10_ports_macsec_fabric.md R376). -/
def row_lmac_CNT : RegRow :=
  ⟨0x1008000, [(256, 128), (16, 8)], .unsealed, 0x0,
   [(f_lmac_CNT_count, .rc)]⟩
/-- fe.prs.HORIZON, BAR0 offset 0x1100000 (02_parser_malformed_hash.md R46). -/
def row_prs_HORIZON : RegRow :=
  ⟨0x1100000, [], .sealed, 0x1800010,
   [(f_prs_HORIZON_max_bytes, .rw), (f_prs_HORIZON_max_headers, .rw)]⟩
/-- fe.prs.STATUS, BAR0 offset 0x1100008 (02_parser_malformed_hash.md R56). -/
def row_prs_STATUS : RegRow :=
  ⟨0x1100008, [], .unsealed, 0x0,
   [(f_prs_STATUS_ce_count, .rc), (f_prs_STATUS_ue_count, .rc), (f_prs_STATUS_last_ue_pipe, .ro),
    (f_prs_STATUS_active_bank, .ro), (f_prs_STATUS_last_ue_node, .ro)]⟩
/-- fe.prs.D2D_DROP, BAR0 offset 0x1100010 (02_parser_malformed_hash.md R58). -/
def row_prs_D2D_DROP : RegRow :=
  ⟨0x1100010, [], .unsealed, 0x0,
   [(f_prs_D2D_DROP_packets, .rc)]⟩
/-- fe.prs.PORT_CFG, BAR0 offset 0x1101000 (02_parser_malformed_hash.md R45). -/
def row_prs_PORT_CFG : RegRow :=
  ⟨0x1101000, [(256, 8)], .sealed, 0x0,
   [(f_prs_PORT_CFG_root_node, .rw)]⟩
/-- fe.prs.MAL_ACT, BAR0 offset 0x1110000 (02_parser_malformed_hash.md R51). -/
def row_prs_MAL_ACT : RegRow :=
  ⟨0x1110000, [(32, 8)], .tunable, 0x0,
   [(f_prs_MAL_ACT_punt_ring, .rw), (f_prs_MAL_ACT_exc_policer, .rw), (f_prs_MAL_ACT_action,
    .rw)]⟩
/-- fe.prs.MAL_CNT, BAR0 offset 0x1120000 (02_parser_malformed_hash.md R54). -/
def row_prs_MAL_CNT : RegRow :=
  ⟨0x1120000, [(16, 256), (32, 8)], .unsealed, 0x0,
   [(f_prs_MAL_CNT_packets, .rc)]⟩
/-- fe.prs.NODE_CFG, BAR0 offset 0x1140000 (02_parser_malformed_hash.md R39). -/
def row_prs_NODE_CFG : RegRow :=
  ⟨0x1140000, [(1024, 256)], .txnOnly, 0x0,
   [(f_prs_NODE_CFG_valid, .rw), (f_prs_NODE_CFG_terminal, .rw), (f_prs_NODE_CFG_header_id, .rw),
    (f_prs_NODE_CFG_len_fixed, .rw), (f_prs_NODE_CFG_len_from_field, .rw),
    (f_prs_NODE_CFG_len_fld_off, .rw), (f_prs_NODE_CFG_len_fld_width, .rw),
    (f_prs_NODE_CFG_len_mult, .rw), (f_prs_NODE_CFG_sel_off, .rw), (f_prs_NODE_CFG_sel_width,
    .rw), (f_prs_NODE_CFG_def_kind, .rw), (f_prs_NODE_CFG_def_node, .rw)]⟩
/-- fe.prs.NODE_EXT, BAR0 offset 0x1140008 (02_parser_malformed_hash.md R40). -/
def row_prs_NODE_EXT : RegRow :=
  ⟨0x1140008, [(1024, 256), (4, 8)], .txnOnly, 0x0,
   [(f_prs_NODE_EXT_valid0, .rw), (f_prs_NODE_EXT_src_off0, .rw), (f_prs_NODE_EXT_len_m10, .rw),
    (f_prs_NODE_EXT_dst_off0, .rw), (f_prs_NODE_EXT_valid1, .rw), (f_prs_NODE_EXT_src_off1, .rw),
    (f_prs_NODE_EXT_len_m11, .rw), (f_prs_NODE_EXT_dst_off1, .rw)]⟩
/-- fe.prs.NODE_CHK, BAR0 offset 0x1140028 (02_parser_malformed_hash.md R42). -/
def row_prs_NODE_CHK : RegRow :=
  ⟨0x1140028, [(1024, 256)], .txnOnly, 0x0,
   [(f_prs_NODE_CHK_check_class, .rw), (f_prs_NODE_CHK_min_len, .rw), (f_prs_NODE_CHK_fld_chk_en,
    .rw), (f_prs_NODE_CHK_fld_off, .rw), (f_prs_NODE_CHK_fld_width, .rw),
    (f_prs_NODE_CHK_fld_expect, .rw)]⟩
/-- fe.prs.NODE_BR, BAR0 offset 0x1140030 (02_parser_malformed_hash.md R43). -/
def row_prs_NODE_BR : RegRow :=
  ⟨0x1140030, [(1024, 256), (16, 8)], .txnOnly, 0x0,
   [(f_prs_NODE_BR_valid, .rw), (f_prs_NODE_BR_next_node, .rw), (f_prs_NODE_BR_value, .rw)]⟩
/-- fe.dsp.DISP_CFG, BAR0 offset 0x1200000 (03_cores_threads_channels.md R77). -/
def row_dsp_DISP_CFG : RegRow :=
  ⟨0x1200000, [], .tunable, 0x0,
   [(f_dsp_DISP_CFG_ovr_threshold, .rw), (f_dsp_DISP_CFG_override_en, .rw)]⟩
/-- fe.dsp.DISP_STATUS, BAR0 offset 0x1200008 (03_cores_threads_channels.md R78). -/
def row_dsp_DISP_STATUS : RegRow :=
  ⟨0x1200008, [], .unsealed, 0x0,
   [(f_dsp_DISP_STATUS_overrides, .rc), (f_dsp_DISP_STATUS_override_active, .ro)]⟩
/-- fe.dsp.OK_CFG, BAR0 offset 0x1200010 (03_cores_threads_channels.md R83). -/
def row_dsp_OK_CFG : RegRow :=
  ⟨0x1200010, [], .tunable, 0x400,
   [(f_dsp_OK_CFG_skip_timeout, .rw)]⟩
/-- fe.dsp.OK_STATUS, BAR0 offset 0x1200018 (03_cores_threads_channels.md R84). -/
def row_dsp_OK_STATUS : RegRow :=
  ⟨0x1200018, [], .unsealed, 0x0,
   [(f_dsp_OK_STATUS_skips, .rc), (f_dsp_OK_STATUS_late_releases, .rc),
    (f_dsp_OK_STATUS_outstanding, .ro)]⟩
/-- fe.dsp.RNG_SEED, BAR0 offset 0x1200020 (04_packet_isa.md R128). -/
def row_dsp_RNG_SEED : RegRow :=
  ⟨0x1200020, [], .sealed, 0x0,
   [(f_dsp_RNG_SEED_seed, .rw)]⟩
/-- fe.dsp.DISP_SLOT, BAR0 offset 0x1201000 (03_cores_threads_channels.md R79). -/
def row_dsp_DISP_SLOT : RegRow :=
  ⟨0x1201000, [(128, 8)], .tunable, 0x0,
   [(f_dsp_DISP_SLOT_alt_valid, .rw), (f_dsp_DISP_SLOT_alt_cluster, .rw),
    (f_dsp_DISP_SLOT_cluster, .rw)]⟩
/-- fe.fpc.CL_CTRL, BAR0 offset 0x1400000 (03_cores_threads_channels.md R118). -/
def row_fpc_CL_CTRL : RegRow :=
  ⟨0x1400000, [(32, 65536)], .tunable, 0x640000,
   [(f_fpc_CL_CTRL_drain_limit, .rw), (f_fpc_CL_CTRL_db_resume, .w1s), (f_fpc_CL_CTRL_enable,
    .rw)]⟩
/-- fe.fpc.CL_STATUS, BAR0 offset 0x1400008 (03_cores_threads_channels.md R119). -/
def row_fpc_CL_STATUS : RegRow :=
  ⟨0x1400008, [(32, 65536)], .unsealed, 0x0,
   [(f_fpc_CL_STATUS_failed_phys, .ro), (f_fpc_CL_STATUS_cores_usable, .ro),
    (f_fpc_CL_STATUS_spare_used, .ro), (f_fpc_CL_STATUS_spare_for, .ro), (f_fpc_CL_STATUS_present,
    .ro), (f_fpc_CL_STATUS_retired, .ro), (f_fpc_CL_STATUS_steered, .ro),
    (f_fpc_CL_STATUS_stop_pending, .ro), (f_fpc_CL_STATUS_restart_pending, .ro),
    (f_fpc_CL_STATUS_state, .ro)]⟩
/-- fe.fpc.DB_CFG, BAR0 offset 0x1400010 (03_cores_threads_channels.md R107). -/
def row_fpc_DB_CFG : RegRow :=
  ⟨0x1400010, [(32, 65536)], .tunable, 0x100001,
   [(f_fpc_DB_CFG_window, .rw), (f_fpc_DB_CFG_hold, .rw), (f_fpc_DB_CFG_enable, .rw)]⟩
/-- fe.fpc.DB_STATUS, BAR0 offset 0x1400018 (03_cores_threads_channels.md R108). -/
def row_fpc_DB_STATUS : RegRow :=
  ⟨0x1400018, [(32, 65536)], .unsealed, 0x0,
   [(f_fpc_DB_STATUS_fires, .rc), (f_fpc_DB_STATUS_halted_deps, .rc),
    (f_fpc_DB_STATUS_aborted_packets, .rc)]⟩
/-- fe.fpc.DB_THREADS, BAR0 offset 0x1400020 (03_cores_threads_channels.md R109). -/
def row_fpc_DB_THREADS : RegRow :=
  ⟨0x1400020, [(32, 65536), (2, 8)], .unsealed, 0x0,
   [(f_fpc_DB_THREADS_threads, .ro)]⟩
/-- fe.fpc.WATCH_CFG, BAR0 offset 0x1400030 (03_cores_threads_channels.md R110). -/
def row_fpc_WATCH_CFG : RegRow :=
  ⟨0x1400030, [(32, 65536)], .tunable, 0x40,
   [(f_fpc_WATCH_CFG_long_waits, .rc), (f_fpc_WATCH_CFG_threshold, .rw)]⟩
/-- fe.fpc.ERR_STATUS, BAR0 offset 0x1400038 (03_cores_threads_channels.md R121). -/
def row_fpc_ERR_STATUS : RegRow :=
  ⟨0x1400038, [(32, 65536)], .unsealed, 0x0,
   [(f_fpc_ERR_STATUS_ce_shared, .rc), (f_fpc_ERR_STATUS_ce_other, .rc),
    (f_fpc_ERR_STATUS_ue_count, .rc), (f_fpc_ERR_STATUS_roster_refused, .w1c),
    (f_fpc_ERR_STATUS_last_ue_mem, .ro)]⟩
/-- fe.fpc.DBG_CTRL, BAR0 offset 0x1400040 (03_cores_threads_channels.md R114). -/
def row_fpc_DBG_CTRL : RegRow :=
  ⟨0x1400040, [(32, 65536)], .unsealed, 0x0,
   [(f_fpc_DBG_CTRL_channel, .wo), (f_fpc_DBG_CTRL_slot, .wo), (f_fpc_DBG_CTRL_thread, .wo),
    (f_fpc_DBG_CTRL_cmd, .wo)]⟩
/-- fe.fpc.RESIDENT, BAR0 offset 0x1400050 (03_cores_threads_channels.md R90). -/
def row_fpc_RESIDENT : RegRow :=
  ⟨0x1400050, [(32, 65536), (2, 8)], .sealed, 0x0,
   [(f_fpc_RESIDENT_resident, .rw)]⟩
/-- fe.fpc.EXC_STATUS, BAR0 offset 0x1400060 (04_packet_isa.md R154). -/
def row_fpc_EXC_STATUS : RegRow :=
  ⟨0x1400060, [(32, 65536)], .unsealed, 0x0,
   [(f_fpc_EXC_STATUS_exceptions, .rc), (f_fpc_EXC_STATUS_last_code, .ro),
    (f_fpc_EXC_STATUS_last_thread, .ro), (f_fpc_EXC_STATUS_last_pc, .ro)]⟩
/-- fe.fpc.ROSTER, BAR0 offset 0x1400100 (03_cores_threads_channels.md R89). -/
def row_fpc_ROSTER : RegRow :=
  ⟨0x1400100, [(32, 65536), (16, 8)], .tunable, 0x0,
   [(f_fpc_ROSTER_slots, .rw)]⟩
/-- fe.fpc.THREAD_STATE, BAR0 offset 0x1400400 (03_cores_threads_channels.md R115). -/
def row_fpc_THREAD_STATE : RegRow :=
  ⟨0x1400400, [(32, 65536), (128, 8)], .unsealed, 0x0,
   [(f_fpc_THREAD_STATE_pc, .ro), (f_fpc_THREAD_STATE_wait_age, .ro),
    (f_fpc_THREAD_STATE_resident, .ro), (f_fpc_THREAD_STATE_has_packet, .ro),
    (f_fpc_THREAD_STATE_wait_obj, .ro), (f_fpc_THREAD_STATE_wait_kind, .ro),
    (f_fpc_THREAD_STATE_state, .ro)]⟩
/-- fe.fpc.CHAN_CFG, BAR0 offset 0x1400800 (03_cores_threads_channels.md R97). -/
def row_fpc_CHAN_CFG : RegRow :=
  ⟨0x1400800, [(32, 65536), (64, 8)], .sealed, 0x0,
   [(f_fpc_CHAN_CFG_tick_log2, .rw), (f_fpc_CHAN_CFG_src_cluster, .rw), (f_fpc_CHAN_CFG_ext_kind,
    .rw), (f_fpc_CHAN_CFG_enable, .rw)]⟩
/-- fe.fpc.CHAN_STATUS, BAR0 offset 0x1400A00 (03_cores_threads_channels.md R98). -/
def row_fpc_CHAN_STATUS : RegRow :=
  ⟨0x1400A00, [(32, 65536), (64, 8)], .unsealed, 0x0,
   [(f_fpc_CHAN_STATUS_voids_skipped, .rc), (f_fpc_CHAN_STATUS_voids_made, .rc),
    (f_fpc_CHAN_STATUS_occupied, .ro), (f_fpc_CHAN_STATUS_tail, .ro), (f_fpc_CHAN_STATUS_head,
    .ro)]⟩
/-- fe.fpc.CHAN_SLOTS, BAR0 offset 0x1400C00 (03_cores_threads_channels.md R99). -/
def row_fpc_CHAN_SLOTS : RegRow :=
  ⟨0x1400C00, [(32, 65536), (64, 8)], .unsealed, 0x0,
   [(f_fpc_CHAN_SLOTS_slots, .ro)]⟩
/-- fe.fpc.EVT_CFG, BAR0 offset 0x1400E00 (03_cores_threads_channels.md R97). -/
def row_fpc_EVT_CFG : RegRow :=
  ⟨0x1400E00, [(32, 65536), (32, 8)], .sealed, 0x0,
   [(f_fpc_EVT_CFG_tick_log2, .rw), (f_fpc_EVT_CFG_src_cluster, .rw), (f_fpc_EVT_CFG_ext_kind,
    .rw), (f_fpc_EVT_CFG_enable, .rw)]⟩
/-- fe.fpc.EVT_STATUS, BAR0 offset 0x1400F00 (03_cores_threads_channels.md R100). -/
def row_fpc_EVT_STATUS : RegRow :=
  ⟨0x1400F00, [(32, 65536)], .unsealed, 0x0,
   [(f_fpc_EVT_STATUS_merged, .rc), (f_fpc_EVT_STATUS_set, .ro)]⟩
/-- fe.rau.CFG, BAR0 offset 0x1600000 (05_runahead_fastbreak.md R167). -/
def row_rau_CFG : RegRow :=
  ⟨0x1600000, [], .tunable, 0x1,
   [(f_rau_CFG_enable, .rw)]⟩
/-- fe.rau.CNT, BAR0 offset 0x1600010 (05_runahead_fastbreak.md R168). -/
def row_rau_CNT : RegRow :=
  ⟨0x1600010, [(4, 8)], .unsealed, 0x0,
   [(f_rau_CNT_count, .rc)]⟩
/-- fe.rau.BUF_STATUS, BAR0 offset 0x1600100 (05_runahead_fastbreak.md R169). -/
def row_rau_BUF_STATUS : RegRow :=
  ⟨0x1600100, [(32, 8)], .unsealed, 0x0,
   [(f_rau_BUF_STATUS_overflow, .rc), (f_rau_BUF_STATUS_occupied, .ro)]⟩
/-- fe.rau.PORT_CLASS, BAR0 offset 0x1601000 (05_runahead_fastbreak.md R158). -/
def row_rau_PORT_CLASS : RegRow :=
  ⟨0x1601000, [(256, 8)], .sealed, 0x0,
   [(f_rau_PORT_CLASS_plan_class, .rw)]⟩
/-- fe.rau.NODE_PLAN, BAR0 offset 0x1602000 (05_runahead_fastbreak.md R159). -/
def row_rau_NODE_PLAN : RegRow :=
  ⟨0x1602000, [(1024, 8)], .txnOnly, 0x0,
   [(f_rau_NODE_PLAN_plan_c3, .rw), (f_rau_NODE_PLAN_plan_c2, .rw), (f_rau_NODE_PLAN_plan_c1,
    .rw), (f_rau_NODE_PLAN_plan_c0, .rw)]⟩
/-- fe.rau.PLAN, BAR0 offset 0x1604000 (05_runahead_fastbreak.md R160). -/
def row_rau_PLAN : RegRow :=
  ⟨0x1604000, [(256, 32), (4, 8)], .txnOnly, 0x0,
   [(f_rau_PLAN_valid, .rw), (f_rau_PLAN_table, .rw), (f_rau_PLAN_seg3, .rw), (f_rau_PLAN_seg2,
    .rw), (f_rau_PLAN_seg1, .rw), (f_rau_PLAN_seg0, .rw)]⟩
/-- fe.rau.TBL_DIR, BAR0 offset 0x1608000 (06_tables_learning_transactions.md R186). -/
def row_rau_TBL_DIR : RegRow :=
  ⟨0x1608000, [(256, 8)], .sealed, 0x0,
   [(f_rau_TBL_DIR_valid, .rw), (f_rau_TBL_DIR_kind, .rw), (f_rau_TBL_DIR_key_len_m1, .rw),
    (f_rau_TBL_DIR_inst, .rw)]⟩
/-- fe.fbk.CFG, BAR0 offset 0x1680000 (05_runahead_fastbreak.md R180). -/
def row_fbk_CFG : RegRow :=
  ⟨0x1680000, [], .tunable, 0x0,
   [(f_fbk_CFG_enable, .rw)]⟩
/-- fe.fbk.PORT_EN, BAR0 offset 0x1680010 (05_runahead_fastbreak.md R181). -/
def row_fbk_PORT_EN : RegRow :=
  ⟨0x1680010, [(4, 8)], .tunable, 0x0,
   [(f_fbk_PORT_EN_enable, .rw)]⟩
/-- fe.fbk.CNT, BAR0 offset 0x1680040 (05_runahead_fastbreak.md R182). -/
def row_fbk_CNT : RegRow :=
  ⟨0x1680040, [(6, 8)], .unsealed, 0x0,
   [(f_fbk_CNT_count, .rc)]⟩
/-- fe.fbk.RECIPE, BAR0 offset 0x1680100 (05_runahead_fastbreak.md R183). -/
def row_fbk_RECIPE : RegRow :=
  ⟨0x1680100, [(16, 8)], .txnOnly, 0x0,
   [(f_fbk_RECIPE_seg1_valid, .rw), (f_fbk_RECIPE_seg1_off, .rw), (f_fbk_RECIPE_seg1_len_m1,
    .rw), (f_fbk_RECIPE_seg0_valid, .rw), (f_fbk_RECIPE_seg0_off, .rw), (f_fbk_RECIPE_seg0_len_m1,
    .rw)]⟩
/-- fe.fbk.NODE_RCP, BAR0 offset 0x1682000 (05_runahead_fastbreak.md R184). -/
def row_fbk_NODE_RCP : RegRow :=
  ⟨0x1682000, [(1024, 8)], .txnOnly, 0x0,
   [(f_fbk_NODE_RCP_valid, .rw), (f_fbk_NODE_RCP_recipe, .rw)]⟩
/-- fe.fbk.TMPL, BAR0 offset 0x1688000 (05_runahead_fastbreak.md R185). -/
def row_fbk_TMPL : RegRow :=
  ⟨0x1688000, [(1024, 64), (8, 8)], .txnOnly, 0x0,
   [(f_fbk_TMPL_rw_mask, .rw), (f_fbk_TMPL_rw_off, .rw), (f_fbk_TMPL_rw_en, .rw),
    (f_fbk_TMPL_ttl_op, .rw), (f_fbk_TMPL_ttl_off, .rw), (f_fbk_TMPL_prepend_len, .rw),
    (f_fbk_TMPL_strip, .rw)]⟩
/-- fe.lpm.SLICE_CFG, BAR0 offset 0x1701000 (06_tables_learning_transactions.md R192). -/
def row_lpm_SLICE_CFG : RegRow :=
  ⟨0x1701000, [(64, 8)], .sealed, 0x0,
   [(f_lpm_SLICE_CFG_valid, .rw), (f_lpm_SLICE_CFG_ondie_quota, .rw), (f_lpm_SLICE_CFG_hbm_quota,
    .rw)]⟩
/-- fe.lpm.SLICE_STATUS, BAR0 offset 0x1701200 (06_tables_learning_transactions.md R193). -/
def row_lpm_SLICE_STATUS : RegRow :=
  ⟨0x1701200, [(64, 8)], .unsealed, 0x0,
   [(f_lpm_SLICE_STATUS_ondie_used, .ro), (f_lpm_SLICE_STATUS_hbm_used, .ro)]⟩
/-- fe.exm.AGE_EPOCH, BAR0 offset 0x1780000 (06_tables_learning_transactions.md R203). -/
def row_exm_AGE_EPOCH : RegRow :=
  ⟨0x1780000, [], .unsealed, 0x0,
   [(f_exm_AGE_EPOCH_epoch, .ro)]⟩
/-- fe.exm.LEARN_STATUS, BAR0 offset 0x1780008 (06_tables_learning_transactions.md R216). -/
def row_exm_LEARN_STATUS : RegRow :=
  ⟨0x1780008, [], .unsealed, 0x0,
   [(f_exm_LEARN_STATUS_events, .rc), (f_exm_LEARN_STATUS_ring_drops, .rc),
    (f_exm_LEARN_STATUS_bad_table, .rc)]⟩
/-- fe.exm.CTR_STATUS, BAR0 offset 0x1780010 (06_tables_learning_transactions.md R209). -/
def row_exm_CTR_STATUS : RegRow :=
  ⟨0x1780010, [], .unsealed, 0x0,
   [(f_exm_CTR_STATUS_lost, .rc)]⟩
/-- fe.exm.TBL_CFG, BAR0 offset 0x1781000 (06_tables_learning_transactions.md R200). -/
def row_exm_TBL_CFG : RegRow :=
  ⟨0x1781000, [(64, 8)], .sealed, 0x0,
   [(f_exm_TBL_CFG_hash_seed, .rw), (f_exm_TBL_CFG_age_limit, .rw), (f_exm_TBL_CFG_valid, .rw),
    (f_exm_TBL_CFG_data_width, .rw), (f_exm_TBL_CFG_evict_mode, .rw), (f_exm_TBL_CFG_stamps, .rw),
    (f_exm_TBL_CFG_age_report, .rw)]⟩
/-- fe.exm.TBL_GEOM, BAR0 offset 0x1781200 (06_tables_learning_transactions.md R201). -/
def row_exm_TBL_GEOM : RegRow :=
  ⟨0x1781200, [(64, 8)], .sealed, 0x0,
   [(f_exm_TBL_GEOM_ondie_log2, .rw), (f_exm_TBL_GEOM_ondie_base, .rw), (f_exm_TBL_GEOM_hbm_log2,
    .rw), (f_exm_TBL_GEOM_hbm_base, .rw)]⟩
/-- fe.exm.TBL_STATUS, BAR0 offset 0x1782000 (06_tables_learning_transactions.md R202). -/
def row_exm_TBL_STATUS : RegRow :=
  ⟨0x1782000, [(64, 8)], .unsealed, 0x0,
   [(f_exm_TBL_STATUS_entries, .ro), (f_exm_TBL_STATUS_evictions, .rc),
    (f_exm_TBL_STATUS_ring_drops, .rc)]⟩
/-- fe.exm.LEARN_PORT, BAR0 offset 0x1784000 (06_tables_learning_transactions.md R214). -/
def row_exm_LEARN_PORT : RegRow :=
  ⟨0x1784000, [(256, 8)], .tunable, 0x0,
   [(f_exm_LEARN_PORT_learned, .ro), (f_exm_LEARN_PORT_limit, .rw), (f_exm_LEARN_PORT_policer,
    .rw), (f_exm_LEARN_PORT_excess, .rw)]⟩
/-- fe.exm.LEARN_CNT, BAR0 offset 0x1784800 (06_tables_learning_transactions.md R215). -/
def row_exm_LEARN_CNT : RegRow :=
  ⟨0x1784800, [(256, 8)], .unsealed, 0x0,
   [(f_exm_LEARN_CNT_excess_drops, .rc), (f_exm_LEARN_CNT_excess_floods, .rc),
    (f_exm_LEARN_CNT_policed, .rc)]⟩
/-- fe.tcm.TBL_CFG, BAR0 offset 0x1800000 (07_tcam_tree_classifier.md R261). -/
def row_tcm_TBL_CFG : RegRow :=
  ⟨0x1800000, [(16, 8)], .sealed, 0x0,
   [(f_tcm_TBL_CFG_valid, .rw), (f_tcm_TBL_CFG_width, .rw), (f_tcm_TBL_CFG_first_block, .rw),
    (f_tcm_TBL_CFG_block_count, .rw), (f_tcm_TBL_CFG_hole_interval, .rw),
    (f_tcm_TBL_CFG_order_check, .rw)]⟩
/-- fe.tcm.BLK_STATUS, BAR0 offset 0x1800100 (07_tcam_tree_classifier.md R262). -/
def row_tcm_BLK_STATUS : RegRow :=
  ⟨0x1800100, [(64, 8)], .unsealed, 0x0,
   [(f_tcm_BLK_STATUS_used, .ro), (f_tcm_BLK_STATUS_pending, .ro), (f_tcm_BLK_STATUS_moves, .rc),
    (f_tcm_BLK_STATUS_kills, .rc)]⟩
/-- fe.tcm.BLK_SEQ, BAR0 offset 0x1800300 (07_tcam_tree_classifier.md R263). -/
def row_tcm_BLK_SEQ : RegRow :=
  ⟨0x1800300, [(64, 8)], .unsealed, 0x0,
   [(f_tcm_BLK_SEQ_seq, .ro)]⟩
/-- fe.tcm.SCRUB_CFG, BAR0 offset 0x1800800 (07_tcam_tree_classifier.md R264). -/
def row_tcm_SCRUB_CFG : RegRow :=
  ⟨0x1800800, [], .tunable, 0x1000A,
   [(f_tcm_SCRUB_CFG_enable, .rw), (f_tcm_SCRUB_CFG_interval, .rw)]⟩
/-- fe.tcm.SCRUB_STATUS, BAR0 offset 0x1800808 (07_tcam_tree_classifier.md R265). -/
def row_tcm_SCRUB_STATUS : RegRow :=
  ⟨0x1800808, [], .unsealed, 0x0,
   [(f_tcm_SCRUB_STATUS_passes, .rc), (f_tcm_SCRUB_STATUS_last_block, .ro),
    (f_tcm_SCRUB_STATUS_last_row, .ro)]⟩
/-- fe.dtc.CACHE_STATUS, BAR0 offset 0x1880000 (07_tcam_tree_classifier.md R280). -/
def row_dtc_CACHE_STATUS : RegRow :=
  ⟨0x1880000, [], .unsealed, 0x0,
   [(f_dtc_CACHE_STATUS_misses, .rc), (f_dtc_CACHE_STATUS_parity, .rc),
    (f_dtc_CACHE_STATUS_ue_count, .rc)]⟩
/-- fe.dtc.TBL_CFG, BAR0 offset 0x1881000 (07_tcam_tree_classifier.md R275). -/
def row_dtc_TBL_CFG : RegRow :=
  ⟨0x1881000, [(64, 8)], .sealed, 0x0,
   [(f_dtc_TBL_CFG_valid, .rw), (f_dtc_TBL_CFG_first_tree, .rw), (f_dtc_TBL_CFG_tree_count, .rw),
    (f_dtc_TBL_CFG_rule_base, .rw), (f_dtc_TBL_CFG_rule_log2, .rw)]⟩
/-- fe.dtc.TBL_NODES, BAR0 offset 0x1881200 (07_tcam_tree_classifier.md R276). -/
def row_dtc_TBL_NODES : RegRow :=
  ⟨0x1881200, [(64, 8)], .sealed, 0x0,
   [(f_dtc_TBL_NODES_node_base, .rw), (f_dtc_TBL_NODES_node_log2, .rw)]⟩
/-- fe.dtc.STATUS, BAR0 offset 0x1882000 (07_tcam_tree_classifier.md R278). -/
def row_dtc_STATUS : RegRow :=
  ⟨0x1882000, [(64, 8)], .unsealed, 0x0,
   [(f_dtc_STATUS_pending, .ro), (f_dtc_STATUS_list_used, .ro), (f_dtc_STATUS_walk_errors, .rc),
    (f_dtc_STATUS_last_err_line, .ro)]⟩
/-- fe.dtc.SEQ, BAR0 offset 0x1882200 (07_tcam_tree_classifier.md R279). -/
def row_dtc_SEQ : RegRow :=
  ⟨0x1882200, [(64, 8)], .unsealed, 0x0,
   [(f_dtc_SEQ_seq, .ro)]⟩
/-- fe.dtc.ROOT, BAR0 offset 0x1884000 (07_tcam_tree_classifier.md R277). -/
def row_dtc_ROOT : RegRow :=
  ⟨0x1884000, [(1024, 8)], .txnOnly, 0x0,
   [(f_dtc_ROOT_valid, .rw), (f_dtc_ROOT_line, .rw)]⟩
/-- fe.lbh.PROF_CFG, BAR0 offset 0x1900000 (02_parser_malformed_hash.md R60). -/
def row_lbh_PROF_CFG : RegRow :=
  ⟨0x1900000, [(3, 2048), (16, 128)], .sealed, 0x0,
   [(f_lbh_PROF_CFG_seed, .rw), (f_lbh_PROF_CFG_shift, .rw), (f_lbh_PROF_CFG_symmetric, .rw),
    (f_lbh_PROF_CFG_algo, .rw)]⟩
/-- fe.lbh.PROF_MASK, BAR0 offset 0x1900008 (02_parser_malformed_hash.md R61). -/
def row_lbh_PROF_MASK : RegRow :=
  ⟨0x1900008, [(3, 2048), (16, 128), (2, 8)], .sealed, 0x0,
   [(f_lbh_PROF_MASK_mask, .rw)]⟩
/-- fe.lbh.PROF_SYM, BAR0 offset 0x1900018 (02_parser_malformed_hash.md R62). -/
def row_lbh_PROF_SYM : RegRow :=
  ⟨0x1900018, [(3, 2048), (16, 128)], .sealed, 0x0,
   [(f_lbh_PROF_SYM_valid0, .rw), (f_lbh_PROF_SYM_src_off0, .rw), (f_lbh_PROF_SYM_dst_off0, .rw),
    (f_lbh_PROF_SYM_len_m10, .rw), (f_lbh_PROF_SYM_valid1, .rw), (f_lbh_PROF_SYM_src_off1, .rw),
    (f_lbh_PROF_SYM_dst_off1, .rw), (f_lbh_PROF_SYM_len_m11, .rw), (f_lbh_PROF_SYM_valid2, .rw),
    (f_lbh_PROF_SYM_src_off2, .rw), (f_lbh_PROF_SYM_dst_off2, .rw), (f_lbh_PROF_SYM_len_m12, .rw)]⟩
/-- fe.lbh.TOEP_KEY, BAR0 offset 0x1900020 (02_parser_malformed_hash.md R63). -/
def row_lbh_TOEP_KEY : RegRow :=
  ⟨0x1900020, [(3, 2048), (16, 128), (5, 8)], .sealed, 0x0,
   [(f_lbh_TOEP_KEY_key, .rw)]⟩
/-- fe.lbh.NODE_PROF, BAR0 offset 0x1902000 (02_parser_malformed_hash.md R64). -/
def row_lbh_NODE_PROF : RegRow :=
  ⟨0x1902000, [(1024, 8)], .txnOnly, 0x0,
   [(f_lbh_NODE_PROF_lag_prof, .rw), (f_lbh_NODE_PROF_ecmp_prof, .rw),
    (f_lbh_NODE_PROF_disp_prof, .rw)]⟩
/-- fe.msc.SA_KEY, BAR0 offset 0x19C0000 (10_ports_macsec_fabric.md R383). -/
def row_msc_SA_KEY : RegRow :=
  ⟨0x19C0000, [(4096, 48), (4, 8)], .tunable, 0x0,
   [(f_msc_SA_KEY_key, .wo)]⟩
/-- fe.msc.SA_SALT, BAR0 offset 0x19C0020 (10_ports_macsec_fabric.md R383). -/
def row_msc_SA_SALT : RegRow :=
  ⟨0x19C0020, [(4096, 48), (2, 8)], .tunable, 0x0,
   [(f_msc_SA_SALT_salt, .wo)]⟩
/-- fe.msc.SA_PN, BAR0 offset 0x19F0000 (10_ports_macsec_fabric.md R383). -/
def row_msc_SA_PN : RegRow :=
  ⟨0x19F0000, [(4096, 8)], .tunable, 0x0,
   [(f_msc_SA_PN_pn, .rw)]⟩
/-- fe.msc.SC_CFG, BAR0 offset 0x19F8000 (10_ports_macsec_fabric.md R384). -/
def row_msc_SC_CFG : RegRow :=
  ⟨0x19F8000, [(2048, 8)], .tunable, 0x0,
   [(f_msc_SC_CFG_valid, .rw), (f_msc_SC_CFG_dir, .rw), (f_msc_SC_CFG_port, .rw),
    (f_msc_SC_CFG_conf, .rw), (f_msc_SC_CFG_include_sci, .rw), (f_msc_SC_CFG_es, .rw),
    (f_msc_SC_CFG_replay_en, .rw), (f_msc_SC_CFG_replay_window, .rw), (f_msc_SC_CFG_slot0_an,
    .rw), (f_msc_SC_CFG_slot0_valid, .rw), (f_msc_SC_CFG_slot1_an, .rw),
    (f_msc_SC_CFG_slot1_valid, .rw), (f_msc_SC_CFG_tx_slot, .rw)]⟩
/-- fe.msc.SC_SCI, BAR0 offset 0x19FC000 (10_ports_macsec_fabric.md R384). -/
def row_msc_SC_SCI : RegRow :=
  ⟨0x19FC000, [(2048, 8)], .tunable, 0x0,
   [(f_msc_SC_SCI_sci, .rw)]⟩
/-- fe.hmc.CH_CTRL, BAR0 offset 0x1A00000 (11_hbm_controllers.md R435). -/
def row_fe_hmc_CH_CTRL : RegRow :=
  ⟨0x1A00000, [(64, 4096)], .tunable, 0x0,
   [(f_fe_hmc_CH_CTRL_release, .w1s)]⟩
/-- fe.hmc.SC_CFG, BAR0 offset 0x1A00008 (11_hbm_controllers.md R436). -/
def row_fe_hmc_SC_CFG : RegRow :=
  ⟨0x1A00008, [(64, 4096)], .tunable, 0xC800C800C800C8,
   [(f_fe_hmc_SC_CFG_age_sc3, .rw), (f_fe_hmc_SC_CFG_age_sc2, .rw), (f_fe_hmc_SC_CFG_age_sc1,
    .rw), (f_fe_hmc_SC_CFG_age_sc0, .rw)]⟩
/-- fe.hmc.PAGE_CFG, BAR0 offset 0x1A00010 (11_hbm_controllers.md R437). -/
def row_fe_hmc_PAGE_CFG : RegRow :=
  ⟨0x1A00010, [(64, 4096)], .tunable, 0x10040,
   [(f_fe_hmc_PAGE_CFG_pred_en, .rw), (f_fe_hmc_PAGE_CFG_idle_timer, .rw)]⟩
/-- fe.hmc.CH_STATUS, BAR0 offset 0x1A00018 (11_hbm_controllers.md R438). -/
def row_fe_hmc_CH_STATUS : RegRow :=
  ⟨0x1A00018, [(64, 4096)], .unsealed, 0x0,
   [(f_fe_hmc_CH_STATUS_promotions, .rc), (f_fe_hmc_CH_STATUS_pending, .ro),
    (f_fe_hmc_CH_STATUS_stop_pending, .ro), (f_fe_hmc_CH_STATUS_restart_pending, .ro),
    (f_fe_hmc_CH_STATUS_release_refused, .w1c), (f_fe_hmc_CH_STATUS_training_failed, .ro),
    (f_fe_hmc_CH_STATUS_data_suspect, .ro), (f_fe_hmc_CH_STATUS_capture_read, .ro),
    (f_fe_hmc_CH_STATUS_freeze_cause, .ro), (f_fe_hmc_CH_STATUS_frozen, .ro),
    (f_fe_hmc_CH_STATUS_state, .ro)]⟩
/-- fe.hmc.ERR_CNT, BAR0 offset 0x1A00020 (11_hbm_controllers.md R439). -/
def row_fe_hmc_ERR_CNT : RegRow :=
  ⟨0x1A00020, [(64, 4096)], .unsealed, 0x0,
   [(f_fe_hmc_ERR_CNT_ce_count, .rc), (f_fe_hmc_ERR_CNT_ue_count, .rc),
    (f_fe_hmc_ERR_CNT_ca_parity, .rc)]⟩
/-- fe.hmc.TRAIN_CTRL, BAR0 offset 0x1A00040 (11_hbm_controllers.md R440). -/
def row_fe_hmc_TRAIN_CTRL : RegRow :=
  ⟨0x1A00040, [(64, 4096)], .tunable, 0x0,
   [(f_fe_hmc_TRAIN_CTRL_value, .wo), (f_fe_hmc_TRAIN_CTRL_lane, .wo),
    (f_fe_hmc_TRAIN_CTRL_bursts, .wo), (f_fe_hmc_TRAIN_CTRL_pattern, .wo),
    (f_fe_hmc_TRAIN_CTRL_pc, .wo), (f_fe_hmc_TRAIN_CTRL_cmd, .wo)]⟩
/-- fe.hmc.TRAIN_RESULT, BAR0 offset 0x1A00048 (11_hbm_controllers.md R441). -/
def row_fe_hmc_TRAIN_RESULT : RegRow :=
  ⟨0x1A00048, [(64, 4096)], .unsealed, 0x0,
   [(f_fe_hmc_TRAIN_RESULT_done, .ro), (f_fe_hmc_TRAIN_RESULT_busy, .ro),
    (f_fe_hmc_TRAIN_RESULT_err_count, .rc), (f_fe_hmc_TRAIN_RESULT_err_mask, .rc)]⟩
/-- fe.hmc.CAP_INFO, BAR0 offset 0x1A00100 (11_hbm_controllers.md R442). -/
def row_fe_hmc_CAP_INFO : RegRow :=
  ⟨0x1A00100, [(64, 4096)], .unsealed, 0x0,
   [(f_fe_hmc_CAP_INFO_cmd_count, .ro), (f_fe_hmc_CAP_INFO_pending_at_freeze, .ro),
    (f_fe_hmc_CAP_INFO_addr, .ro)]⟩
/-- fe.hmc.CAP_SYND, BAR0 offset 0x1A00108 (11_hbm_controllers.md R443). -/
def row_fe_hmc_CAP_SYND : RegRow :=
  ⟨0x1A00108, [(64, 4096)], .unsealed, 0x0,
   [(f_fe_hmc_CAP_SYND_sc, .ro), (f_fe_hmc_CAP_SYND_syndrome, .ro)]⟩
/-- fe.hmc.CAP_CMD, BAR0 offset 0x1A00200 (11_hbm_controllers.md R444). -/
def row_fe_hmc_CAP_CMD : RegRow :=
  ⟨0x1A00200, [(64, 4096), (64, 8)], .unsealed, 0x0,
   [(f_fe_hmc_CAP_CMD_age, .ro), (f_fe_hmc_CAP_CMD_cmd, .ro), (f_fe_hmc_CAP_CMD_sc, .ro),
    (f_fe_hmc_CAP_CMD_pc, .ro), (f_fe_hmc_CAP_CMD_sid, .ro), (f_fe_hmc_CAP_CMD_bg, .ro),
    (f_fe_hmc_CAP_CMD_ba, .ro), (f_fe_hmc_CAP_CMD_row, .ro), (f_fe_hmc_CAP_CMD_column, .ro)]⟩
/-- fe.hmc.MAP_MASK, BAR0 offset 0x1A40000 (11_hbm_controllers.md R431). -/
def row_fe_hmc_MAP_MASK : RegRow :=
  ⟨0x1A40000, [(4, 8)], .sealed, 0x0,
   [(f_fe_hmc_MAP_MASK_mask, .rw)]⟩
/-- fe.hmc.RETRAIN_CFG, BAR0 offset 0x1A40020 (11_hbm_controllers.md R432). -/
def row_fe_hmc_RETRAIN_CFG : RegRow :=
  ⟨0x1A40020, [], .tunable, 0x3E800000A01,
   [(f_fe_hmc_RETRAIN_CFG_osc_interval, .rw), (f_fe_hmc_RETRAIN_CFG_retrain_delta, .rw),
    (f_fe_hmc_RETRAIN_CFG_enable, .rw)]⟩
/-- fe.hmc.REGION, BAR0 offset 0x1A40100 (11_hbm_controllers.md R434). -/
def row_fe_hmc_REGION : RegRow :=
  ⟨0x1A40100, [(8, 8)], .sealed, 0x0,
   [(f_fe_hmc_REGION_size, .rw), (f_fe_hmc_REGION_base, .rw)]⟩
/-- tm.qmg.CFG, BAR0 offset 0x2000000 (08_queues_buffer.md R308). -/
def row_qmg_CFG : RegRow :=
  ⟨0x2000000, [], .sealed, 0x0,
   [(f_qmg_CFG_spill_en, .rw), (f_qmg_CFG_refill_reserve, .rw)]⟩
/-- tm.qmg.STATUS, BAR0 offset 0x2000008 (08_queues_buffer.md R309). -/
def row_qmg_STATUS : RegRow :=
  ⟨0x2000008, [], .unsealed, 0xC000000000000000,
   [(f_qmg_STATUS_free_cells, .ro), (f_qmg_STATUS_contexts_used, .ro)]⟩
/-- tm.qmg.WRED_SEED, BAR0 offset 0x2000010 (08_queues_buffer.md R310). -/
def row_qmg_WRED_SEED : RegRow :=
  ⟨0x2000010, [], .sealed, 0x0,
   [(f_qmg_WRED_SEED_seed, .rw)]⟩
/-- tm.qmg.LOSS, BAR0 offset 0x2000018 (08_queues_buffer.md R311). -/
def row_qmg_LOSS : RegRow :=
  ⟨0x2000018, [], .unsealed, 0x0,
   [(f_qmg_LOSS_lost_packets, .rc), (f_qmg_LOSS_lost_cells, .rc)]⟩
/-- tm.qmg.SPILL_CNT, BAR0 offset 0x2000020 (08_queues_buffer.md R312). -/
def row_qmg_SPILL_CNT : RegRow :=
  ⟨0x2000020, [], .unsealed, 0x0,
   [(f_qmg_SPILL_CNT_refused, .rc), (f_qmg_SPILL_CNT_stalled, .rc), (f_qmg_SPILL_CNT_flushed,
    .rc)]⟩
/-- tm.qmg.DROP_CNT, BAR0 offset 0x2000100 (08_queues_buffer.md R313). -/
def row_qmg_DROP_CNT : RegRow :=
  ⟨0x2000100, [(16, 8)], .unsealed, 0x0,
   [(f_qmg_DROP_CNT_packets, .rc)]⟩
/-- tm.qmg.POOL_CFG, BAR0 offset 0x2001000 (08_queues_buffer.md R314). -/
def row_qmg_POOL_CFG : RegRow :=
  ⟨0x2001000, [(16, 8)], .tunable, 0x0,
   [(f_qmg_POOL_CFG_limit, .rw)]⟩
/-- tm.qmg.WRED, BAR0 offset 0x2002000 (08_queues_buffer.md R315). -/
def row_qmg_WRED : RegRow :=
  ⟨0x2002000, [(256, 32), (3, 8)], .tunable, 0x0,
   [(f_qmg_WRED_max_p, .rw), (f_qmg_WRED_max, .rw), (f_qmg_WRED_min, .rw)]⟩
/-- tm.qmg.GRP_CFG, BAR0 offset 0x2008000 (08_queues_buffer.md R314). -/
def row_qmg_GRP_CFG : RegRow :=
  ⟨0x2008000, [(4096, 8)], .tunable, 0x0,
   [(f_qmg_GRP_CFG_limit, .rw)]⟩
/-- tm.qmg.WM_CFG, BAR0 offset 0x2020000 (08_queues_buffer.md R316). -/
def row_qmg_WM_CFG : RegRow :=
  ⟨0x2020000, [(4128, 8)], .tunable, 0x7FFFFFFF00000000,
   [(f_qmg_WM_CFG_hi_en, .rw), (f_qmg_WM_CFG_high, .rw), (f_qmg_WM_CFG_lo_en, .rw),
    (f_qmg_WM_CFG_low, .rw)]⟩
/-- tm.qmg.WM_STATUS, BAR0 offset 0x2030000 (08_queues_buffer.md R317). -/
def row_qmg_WM_STATUS : RegRow :=
  ⟨0x2030000, [(4128, 8)], .unsealed, 0x0,
   [(f_qmg_WM_STATUS_hi_count, .rc), (f_qmg_WM_STATUS_lo_count, .rc), (f_qmg_WM_STATUS_lo_flag,
    .w1c), (f_qmg_WM_STATUS_hi_flag, .w1c)]⟩
/-- tm.qmg.WM_PEAK, BAR0 offset 0x2040000 (08_queues_buffer.md R318). -/
def row_qmg_WM_PEAK : RegRow :=
  ⟨0x2040000, [(4128, 8)], .unsealed, 0x0,
   [(f_qmg_WM_PEAK_peak, .rc), (f_qmg_WM_PEAK_level, .ro)]⟩
/-- tm.qmg.CH_STATUS, BAR0 offset 0x2050000 (08_queues_buffer.md R319). -/
def row_qmg_CH_STATUS : RegRow :=
  ⟨0x2050000, [(128, 8)], .unsealed, 0x0,
   [(f_qmg_CH_STATUS_free_blocks, .ro), (f_qmg_CH_STATUS_held_blocks, .ro),
    (f_qmg_CH_STATUS_excluded, .ro)]⟩
/-- tm.buf.CE_CNT, BAR0 offset 0x2100000 (08_queues_buffer.md R320). -/
def row_buf_CE_CNT : RegRow :=
  ⟨0x2100000, [(256, 8)], .unsealed, 0x0,
   [(f_buf_CE_CNT_corrected, .rc)]⟩
/-- tm.buf.STATUS, BAR0 offset 0x2101000 (08_queues_buffer.md R321). -/
def row_buf_STATUS : RegRow :=
  ⟨0x2101000, [], .unsealed, 0x0,
   [(f_buf_STATUS_ue_count, .rc), (f_buf_STATUS_last_ue_bank, .ro), (f_buf_STATUS_last_ue_row,
    .ro)]⟩
/-- tm.sch.ING_CFG, BAR0 offset 0x2200000 (09_scheduling_shaping_gates.md R333). -/
def row_sch_ING_CFG : RegRow :=
  ⟨0x2200000, [], .tunable, 0xA000000,
   [(f_sch_ING_CFG_credit_hold, .rw), (f_sch_ING_CFG_class_prio, .rw)]⟩
/-- tm.sch.STATUS, BAR0 offset 0x2200008 (09_scheduling_shaping_gates.md R334). -/
def row_sch_STATUS : RegRow :=
  ⟨0x2200008, [], .unsealed, 0x0,
   [(f_sch_STATUS_credit_released, .rc), (f_sch_STATUS_validation_fails, .rc)]⟩
/-- tm.shp.STATUS, BAR0 offset 0x2300000 (09_scheduling_shaping_gates.md R338). -/
def row_shp_STATUS : RegRow :=
  ⟨0x2300000, [], .unsealed, 0x0,
   [(f_shp_STATUS_refills, .rc), (f_shp_STATUS_changes, .rc), (f_shp_STATUS_pending, .ro)]⟩
/-- tm.pol.CFG, BAR0 offset 0x2380000 (09_scheduling_shaping_gates.md R350). -/
def row_pol_CFG : RegRow :=
  ⟨0x2380000, [], .tunable, 0x0,
   [(f_pol_CFG_frozen_colour, .rw)]⟩
/-- tm.pol.STATUS, BAR0 offset 0x2380008 (09_scheduling_shaping_gates.md R351). -/
def row_pol_STATUS : RegRow :=
  ⟨0x2380008, [], .unsealed, 0x0,
   [(f_pol_STATUS_red_drops, .rc), (f_pol_STATUS_frozen_charges, .rc), (f_pol_STATUS_exc_refused,
    .rc)]⟩
/-- tm.tgt.PORT_CFG, BAR0 offset 0x2400000 (09_scheduling_shaping_gates.md R359). -/
def row_tgt_PORT_CFG : RegRow :=
  ⟨0x2400000, [(256, 8)], .sealed, 0x0,
   [(f_tgt_PORT_CFG_tx_offset, .rw), (f_tgt_PORT_CFG_max_frame, .rw), (f_tgt_PORT_CFG_gate_en,
    .rw)]⟩
/-- tm.tgt.PORT_STATUS, BAR0 offset 0x2401000 (09_scheduling_shaping_gates.md R360). -/
def row_tgt_PORT_STATUS : RegRow :=
  ⟨0x2401000, [(256, 8)], .unsealed, 0x0,
   [(f_tgt_PORT_STATUS_held, .rc), (f_tgt_PORT_STATUS_oversize, .rc),
    (f_tgt_PORT_STATUS_short_windows, .rc), (f_tgt_PORT_STATUS_switch_pending, .ro),
    (f_tgt_PORT_STATUS_entry, .ro), (f_tgt_PORT_STATUS_guard, .ro)]⟩
/-- tm.fab.CFG, BAR0 offset 0x2500000 (10_ports_macsec_fabric.md R399). -/
def row_fab_CFG : RegRow :=
  ⟨0x2500000, [], .sealed, 0x2710006400000000,
   [(f_fab_CFG_reasm_timeout, .rw), (f_fab_CFG_ctrl_flush, .rw), (f_fab_CFG_twin, .rw),
    (f_fab_CFG_dev_id, .rw)]⟩
/-- tm.fab.GRANT_CFG, BAR0 offset 0x2500008 (10_ports_macsec_fabric.md R400). -/
def row_fab_GRANT_CFG : RegRow :=
  ⟨0x2500008, [], .tunable, 0x3E8004044000000,
   [(f_fab_GRANT_CFG_req_interval, .rw), (f_fab_GRANT_CFG_quantum, .rw),
    (f_fab_GRANT_CFG_grant_ratio, .rw), (f_fab_GRANT_CFG_grant_prio, .rw)]⟩
/-- tm.fab.REASM_STATUS, BAR0 offset 0x2500010 (10_ports_macsec_fabric.md R405). -/
def row_fab_REASM_STATUS : RegRow :=
  ⟨0x2500010, [], .unsealed, 0x0,
   [(f_fab_REASM_STATUS_timeouts, .rc), (f_fab_REASM_STATUS_dup_cells, .rc),
    (f_fab_REASM_STATUS_stomped, .rc), (f_fab_REASM_STATUS_fcs_errors, .rc)]⟩
/-- tm.fab.MSG_STATUS, BAR0 offset 0x2500018 (10_ports_macsec_fabric.md R405). -/
def row_fab_MSG_STATUS : RegRow :=
  ⟨0x2500018, [], .unsealed, 0x0,
   [(f_fab_MSG_STATUS_bad_grant, .rc), (f_fab_MSG_STATUS_req_dropped, .rc),
    (f_fab_MSG_STATUS_no_resource, .rc), (f_fab_MSG_STATUS_len_mismatch, .rc)]⟩
/-- tm.fab.MISC_STATUS, BAR0 offset 0x2500020 (10_ports_macsec_fabric.md R405). -/
def row_fab_MISC_STATUS : RegRow :=
  ⟨0x2500020, [], .unsealed, 0x0,
   [(f_fab_MISC_STATUS_misrouted, .rc), (f_fab_MISC_STATUS_bad_msg, .rc)]⟩
/-- tm.fab.LANE_EN, BAR0 offset 0x2500100 (10_ports_macsec_fabric.md R401). -/
def row_fab_LANE_EN : RegRow :=
  ⟨0x2500100, [(5, 8)], .tunable, 0x0,
   [(f_fab_LANE_EN_enable, .rw)]⟩
/-- tm.fab.EQ_MAP, BAR0 offset 0x2501000 (10_ports_macsec_fabric.md R402). -/
def row_fab_EQ_MAP : RegRow :=
  ⟨0x2501000, [(256, 8)], .sealed, 0x0,
   [(f_fab_EQ_MAP_eq_base, .rw), (f_fab_EQ_MAP_grant_stop, .rw)]⟩
/-- tm.fab.LANE_STATUS, BAR0 offset 0x2502000 (10_ports_macsec_fabric.md R403). -/
def row_fab_LANE_STATUS : RegRow :=
  ⟨0x2502000, [(320, 8)], .unsealed, 0x0,
   [(f_fab_LANE_STATUS_partner_dev, .ro), (f_fab_LANE_STATUS_partner_lane, .ro),
    (f_fab_LANE_STATUS_partner_role, .ro), (f_fab_LANE_STATUS_data_credit, .ro),
    (f_fab_LANE_STATUS_ctrl_credit, .ro), (f_fab_LANE_STATUS_retrains, .rc),
    (f_fab_LANE_STATUS_state, .ro)]⟩
/-- tm.fab.LANE_ERR, BAR0 offset 0x2503000 (10_ports_macsec_fabric.md R404). -/
def row_fab_LANE_ERR : RegRow :=
  ⟨0x2503000, [(320, 8)], .unsealed, 0x0,
   [(f_fab_LANE_ERR_fec_corrected, .rc), (f_fab_LANE_ERR_fec_uncorrectable, .rc),
    (f_fab_LANE_ERR_hcrc_errors, .rc)]⟩
/-- tm.fab.SYS_MAP, BAR0 offset 0x2580000 (10_ports_macsec_fabric.md R402). -/
def row_fab_SYS_MAP : RegRow :=
  ⟨0x2580000, [(65536, 8)], .tunable, 0x0,
   [(f_fab_SYS_MAP_valid, .rw), (f_fab_SYS_MAP_pair, .rw), (f_fab_SYS_MAP_dev, .rw),
    (f_fab_SYS_MAP_port, .rw)]⟩
/-- tm.hmc.CH_CTRL, BAR0 offset 0x2600000 (11_hbm_controllers.md R435). -/
def row_tm_hmc_CH_CTRL : RegRow :=
  ⟨0x2600000, [(128, 4096)], .tunable, 0x0,
   [(f_tm_hmc_CH_CTRL_release, .w1s)]⟩
/-- tm.hmc.SC_CFG, BAR0 offset 0x2600008 (11_hbm_controllers.md R436). -/
def row_tm_hmc_SC_CFG : RegRow :=
  ⟨0x2600008, [(128, 4096)], .tunable, 0xC800C800C800C8,
   [(f_tm_hmc_SC_CFG_age_sc3, .rw), (f_tm_hmc_SC_CFG_age_sc2, .rw), (f_tm_hmc_SC_CFG_age_sc1,
    .rw), (f_tm_hmc_SC_CFG_age_sc0, .rw)]⟩
/-- tm.hmc.PAGE_CFG, BAR0 offset 0x2600010 (11_hbm_controllers.md R437). -/
def row_tm_hmc_PAGE_CFG : RegRow :=
  ⟨0x2600010, [(128, 4096)], .tunable, 0x10040,
   [(f_tm_hmc_PAGE_CFG_pred_en, .rw), (f_tm_hmc_PAGE_CFG_idle_timer, .rw)]⟩
/-- tm.hmc.CH_STATUS, BAR0 offset 0x2600018 (11_hbm_controllers.md R438). -/
def row_tm_hmc_CH_STATUS : RegRow :=
  ⟨0x2600018, [(128, 4096)], .unsealed, 0x0,
   [(f_tm_hmc_CH_STATUS_promotions, .rc), (f_tm_hmc_CH_STATUS_pending, .ro),
    (f_tm_hmc_CH_STATUS_stop_pending, .ro), (f_tm_hmc_CH_STATUS_restart_pending, .ro),
    (f_tm_hmc_CH_STATUS_release_refused, .w1c), (f_tm_hmc_CH_STATUS_training_failed, .ro),
    (f_tm_hmc_CH_STATUS_data_suspect, .ro), (f_tm_hmc_CH_STATUS_capture_read, .ro),
    (f_tm_hmc_CH_STATUS_freeze_cause, .ro), (f_tm_hmc_CH_STATUS_frozen, .ro),
    (f_tm_hmc_CH_STATUS_state, .ro)]⟩
/-- tm.hmc.ERR_CNT, BAR0 offset 0x2600020 (11_hbm_controllers.md R439). -/
def row_tm_hmc_ERR_CNT : RegRow :=
  ⟨0x2600020, [(128, 4096)], .unsealed, 0x0,
   [(f_tm_hmc_ERR_CNT_ce_count, .rc), (f_tm_hmc_ERR_CNT_ue_count, .rc),
    (f_tm_hmc_ERR_CNT_ca_parity, .rc)]⟩
/-- tm.hmc.TRAIN_CTRL, BAR0 offset 0x2600040 (11_hbm_controllers.md R440). -/
def row_tm_hmc_TRAIN_CTRL : RegRow :=
  ⟨0x2600040, [(128, 4096)], .tunable, 0x0,
   [(f_tm_hmc_TRAIN_CTRL_value, .wo), (f_tm_hmc_TRAIN_CTRL_lane, .wo),
    (f_tm_hmc_TRAIN_CTRL_bursts, .wo), (f_tm_hmc_TRAIN_CTRL_pattern, .wo),
    (f_tm_hmc_TRAIN_CTRL_pc, .wo), (f_tm_hmc_TRAIN_CTRL_cmd, .wo)]⟩
/-- tm.hmc.TRAIN_RESULT, BAR0 offset 0x2600048 (11_hbm_controllers.md R441). -/
def row_tm_hmc_TRAIN_RESULT : RegRow :=
  ⟨0x2600048, [(128, 4096)], .unsealed, 0x0,
   [(f_tm_hmc_TRAIN_RESULT_done, .ro), (f_tm_hmc_TRAIN_RESULT_busy, .ro),
    (f_tm_hmc_TRAIN_RESULT_err_count, .rc), (f_tm_hmc_TRAIN_RESULT_err_mask, .rc)]⟩
/-- tm.hmc.CAP_INFO, BAR0 offset 0x2600100 (11_hbm_controllers.md R442). -/
def row_tm_hmc_CAP_INFO : RegRow :=
  ⟨0x2600100, [(128, 4096)], .unsealed, 0x0,
   [(f_tm_hmc_CAP_INFO_cmd_count, .ro), (f_tm_hmc_CAP_INFO_pending_at_freeze, .ro),
    (f_tm_hmc_CAP_INFO_addr, .ro)]⟩
/-- tm.hmc.CAP_SYND, BAR0 offset 0x2600108 (11_hbm_controllers.md R443). -/
def row_tm_hmc_CAP_SYND : RegRow :=
  ⟨0x2600108, [(128, 4096)], .unsealed, 0x0,
   [(f_tm_hmc_CAP_SYND_sc, .ro), (f_tm_hmc_CAP_SYND_syndrome, .ro)]⟩
/-- tm.hmc.CAP_CMD, BAR0 offset 0x2600200 (11_hbm_controllers.md R444). -/
def row_tm_hmc_CAP_CMD : RegRow :=
  ⟨0x2600200, [(128, 4096), (64, 8)], .unsealed, 0x0,
   [(f_tm_hmc_CAP_CMD_age, .ro), (f_tm_hmc_CAP_CMD_cmd, .ro), (f_tm_hmc_CAP_CMD_sc, .ro),
    (f_tm_hmc_CAP_CMD_pc, .ro), (f_tm_hmc_CAP_CMD_sid, .ro), (f_tm_hmc_CAP_CMD_bg, .ro),
    (f_tm_hmc_CAP_CMD_ba, .ro), (f_tm_hmc_CAP_CMD_row, .ro), (f_tm_hmc_CAP_CMD_column, .ro)]⟩
/-- tm.hmc.MAP_MASK, BAR0 offset 0x2680000 (11_hbm_controllers.md R431). -/
def row_tm_hmc_MAP_MASK : RegRow :=
  ⟨0x2680000, [(4, 8)], .sealed, 0x0,
   [(f_tm_hmc_MAP_MASK_mask, .rw)]⟩
/-- tm.hmc.RETRAIN_CFG, BAR0 offset 0x2680020 (11_hbm_controllers.md R432). -/
def row_tm_hmc_RETRAIN_CFG : RegRow :=
  ⟨0x2680020, [], .tunable, 0x3E800000A01,
   [(f_tm_hmc_RETRAIN_CFG_osc_interval, .rw), (f_tm_hmc_RETRAIN_CFG_retrain_delta, .rw),
    (f_tm_hmc_RETRAIN_CFG_enable, .rw)]⟩
/-- tm.hmc.CARVE, BAR0 offset 0x2680040 (11_hbm_controllers.md R433). -/
def row_tm_hmc_CARVE : RegRow :=
  ⟨0x2680040, [], .sealed, 0x0,
   [(f_tm_hmc_CARVE_pol_en, .rw), (f_tm_hmc_CARVE_spill_blocks, .rw)]⟩
/-- tm.d2d.STATUS, BAR0 offset 0x2700000 (01_one_package_one_packet.md R19). -/
def row_d2d_STATUS : RegRow :=
  ⟨0x2700000, [], .unsealed, 0x8,
   [(f_d2d_STATUS_lanes_repaired, .ro), (f_d2d_STATUS_modules_up, .ro),
    (f_d2d_STATUS_modules_retired, .ro), (f_d2d_STATUS_failed_seen, .w1c),
    (f_d2d_STATUS_limited_seen, .w1c), (f_d2d_STATUS_health, .ro), (f_d2d_STATUS_link_state, .ro)]⟩
/-- tm.d2d.MOD_STATUS, BAR0 offset 0x2701000 (01_one_package_one_packet.md R20). -/
def row_d2d_MOD_STATUS : RegRow :=
  ⟨0x2701000, [(40, 8)], .unsealed, 0x0,
   [(f_d2d_MOD_STATUS_retrain_count, .rc), (f_d2d_MOD_STATUS_tx_spares_used, .ro),
    (f_d2d_MOD_STATUS_rx_spares_used, .ro), (f_d2d_MOD_STATUS_state, .ro)]⟩
/-- tm.d2d.MOD_ERR, BAR0 offset 0x2702000 (01_one_package_one_packet.md R21). -/
def row_d2d_MOD_ERR : RegRow :=
  ⟨0x2702000, [(40, 8)], .unsealed, 0x0,
   [(f_d2d_MOD_ERR_crc_errors, .rc), (f_d2d_MOD_ERR_replays, .rc)]⟩

/-- The row of a register. -/
def Reg.row : Reg → RegRow
  | .glb_IDENT => row_glb_IDENT
  | .glb_BOOT_STATUS => row_glb_BOOT_STATUS
  | .glb_STRAPS => row_glb_STRAPS
  | .glb_LC_SUMMARY => row_glb_LC_SUMMARY
  | .glb_EVT_ROUTE => row_glb_EVT_ROUTE
  | .cpr_TIME => row_cpr_TIME
  | .cpr_TIME_CFG => row_cpr_TIME_CFG
  | .cpr_TAI_OFFSET => row_cpr_TAI_OFFSET
  | .cpr_TIME_RATE => row_cpr_TIME_RATE
  | .cpr_TIME_ADJ_AT => row_cpr_TIME_ADJ_AT
  | .cpr_TIME_ADJ => row_cpr_TIME_ADJ
  | .cpr_PPS_CAP => row_cpr_PPS_CAP
  | .cpr_RESET_CAUSE => row_cpr_RESET_CAUSE
  | .cpr_RESET_CTRL => row_cpr_RESET_CTRL
  | .cpr_WDOG => row_cpr_WDOG
  | .cpr_PD_CTRL => row_cpr_PD_CTRL
  | .cpr_PD_STATUS => row_cpr_PD_STATUS
  | .mgs_SENSOR => row_mgs_SENSOR
  | .mgs_THERM => row_mgs_THERM
  | .gkp_TASK_CFG => row_gkp_TASK_CFG
  | .gkp_TASK_STATUS => row_gkp_TASK_STATUS
  | .mgs_UPD_STATUS => row_mgs_UPD_STATUS
  | .mgs_SLOT_STATUS => row_mgs_SLOT_STATUS
  | .gkp_AUDIT_CFG => row_gkp_AUDIT_CFG
  | .gkp_AUDIT_ADDR => row_gkp_AUDIT_ADDR
  | .gkp_AUDIT_STATUS => row_gkp_AUDIT_STATUS
  | .gkp_AUDIT_LAST => row_gkp_AUDIT_LAST
  | .pci_ERR_STATUS => row_pci_ERR_STATUS
  | .pci_TXN_CFG => row_pci_TXN_CFG
  | .pci_TXN_STATUS => row_pci_TXN_STATUS
  | .pci_TXN_LAST_SEQ => row_pci_TXN_LAST_SEQ
  | .pci_VF_RINGS => row_pci_VF_RINGS
  | .pci_RING_BASE => row_pci_RING_BASE
  | .pci_RING_CFG => row_pci_RING_CFG
  | .pci_RING_PIDX => row_pci_RING_PIDX
  | .pci_RING_CIDX => row_pci_RING_CIDX
  | .pci_RING_WB => row_pci_RING_WB
  | .pci_RING_STATUS => row_pci_RING_STATUS
  | .twn_CFG => row_twn_CFG
  | .twn_TUNE => row_twn_TUNE
  | .twn_CTRL => row_twn_CTRL
  | .twn_STATUS => row_twn_STATUS
  | .twn_EPOCH => row_twn_EPOCH
  | .twn_HEALTH => row_twn_HEALTH
  | .twn_HEALTH_WT => row_twn_HEALTH_WT
  | .twn_PARTNER => row_twn_PARTNER
  | .twn_CNT => row_twn_CNT
  | .twn_RALLY_LANE => row_twn_RALLY_LANE
  | .skp_CNT_CFG => row_skp_CNT_CFG
  | .skp_PERM => row_skp_PERM
  | .skp_CLEAR => row_skp_CLEAR
  | .skp_WHISTLE_CTRL => row_skp_WHISTLE_CTRL
  | .skp_WHISTLE_AT => row_skp_WHISTLE_AT
  | .skp_STATUS => row_skp_STATUS
  | .skp_PUSH_CFG => row_skp_PUSH_CFG
  | .skp_TRACE_CFG => row_skp_TRACE_CFG
  | .skp_TRACE_SEED => row_skp_TRACE_SEED
  | .skp_TRACE_STATUS => row_skp_TRACE_STATUS
  | .skp_TRACE_CIDX => row_skp_TRACE_CIDX
  | .lmac_PORT_CFG => row_lmac_PORT_CFG
  | .lmac_PORT_CTRL => row_lmac_PORT_CTRL
  | .lmac_PORT_FC => row_lmac_PORT_FC
  | .lmac_PORT_STATUS => row_lmac_PORT_STATUS
  | .lmac_TS_FIFO => row_lmac_TS_FIFO
  | .lmac_MSEC_CFG => row_lmac_MSEC_CFG
  | .lmac_CNT => row_lmac_CNT
  | .prs_HORIZON => row_prs_HORIZON
  | .prs_STATUS => row_prs_STATUS
  | .prs_D2D_DROP => row_prs_D2D_DROP
  | .prs_PORT_CFG => row_prs_PORT_CFG
  | .prs_MAL_ACT => row_prs_MAL_ACT
  | .prs_MAL_CNT => row_prs_MAL_CNT
  | .prs_NODE_CFG => row_prs_NODE_CFG
  | .prs_NODE_EXT => row_prs_NODE_EXT
  | .prs_NODE_CHK => row_prs_NODE_CHK
  | .prs_NODE_BR => row_prs_NODE_BR
  | .dsp_DISP_CFG => row_dsp_DISP_CFG
  | .dsp_DISP_STATUS => row_dsp_DISP_STATUS
  | .dsp_OK_CFG => row_dsp_OK_CFG
  | .dsp_OK_STATUS => row_dsp_OK_STATUS
  | .dsp_RNG_SEED => row_dsp_RNG_SEED
  | .dsp_DISP_SLOT => row_dsp_DISP_SLOT
  | .fpc_CL_CTRL => row_fpc_CL_CTRL
  | .fpc_CL_STATUS => row_fpc_CL_STATUS
  | .fpc_DB_CFG => row_fpc_DB_CFG
  | .fpc_DB_STATUS => row_fpc_DB_STATUS
  | .fpc_DB_THREADS => row_fpc_DB_THREADS
  | .fpc_WATCH_CFG => row_fpc_WATCH_CFG
  | .fpc_ERR_STATUS => row_fpc_ERR_STATUS
  | .fpc_DBG_CTRL => row_fpc_DBG_CTRL
  | .fpc_RESIDENT => row_fpc_RESIDENT
  | .fpc_EXC_STATUS => row_fpc_EXC_STATUS
  | .fpc_ROSTER => row_fpc_ROSTER
  | .fpc_THREAD_STATE => row_fpc_THREAD_STATE
  | .fpc_CHAN_CFG => row_fpc_CHAN_CFG
  | .fpc_CHAN_STATUS => row_fpc_CHAN_STATUS
  | .fpc_CHAN_SLOTS => row_fpc_CHAN_SLOTS
  | .fpc_EVT_CFG => row_fpc_EVT_CFG
  | .fpc_EVT_STATUS => row_fpc_EVT_STATUS
  | .rau_CFG => row_rau_CFG
  | .rau_CNT => row_rau_CNT
  | .rau_BUF_STATUS => row_rau_BUF_STATUS
  | .rau_PORT_CLASS => row_rau_PORT_CLASS
  | .rau_NODE_PLAN => row_rau_NODE_PLAN
  | .rau_PLAN => row_rau_PLAN
  | .rau_TBL_DIR => row_rau_TBL_DIR
  | .fbk_CFG => row_fbk_CFG
  | .fbk_PORT_EN => row_fbk_PORT_EN
  | .fbk_CNT => row_fbk_CNT
  | .fbk_RECIPE => row_fbk_RECIPE
  | .fbk_NODE_RCP => row_fbk_NODE_RCP
  | .fbk_TMPL => row_fbk_TMPL
  | .lpm_SLICE_CFG => row_lpm_SLICE_CFG
  | .lpm_SLICE_STATUS => row_lpm_SLICE_STATUS
  | .exm_AGE_EPOCH => row_exm_AGE_EPOCH
  | .exm_LEARN_STATUS => row_exm_LEARN_STATUS
  | .exm_CTR_STATUS => row_exm_CTR_STATUS
  | .exm_TBL_CFG => row_exm_TBL_CFG
  | .exm_TBL_GEOM => row_exm_TBL_GEOM
  | .exm_TBL_STATUS => row_exm_TBL_STATUS
  | .exm_LEARN_PORT => row_exm_LEARN_PORT
  | .exm_LEARN_CNT => row_exm_LEARN_CNT
  | .tcm_TBL_CFG => row_tcm_TBL_CFG
  | .tcm_BLK_STATUS => row_tcm_BLK_STATUS
  | .tcm_BLK_SEQ => row_tcm_BLK_SEQ
  | .tcm_SCRUB_CFG => row_tcm_SCRUB_CFG
  | .tcm_SCRUB_STATUS => row_tcm_SCRUB_STATUS
  | .dtc_CACHE_STATUS => row_dtc_CACHE_STATUS
  | .dtc_TBL_CFG => row_dtc_TBL_CFG
  | .dtc_TBL_NODES => row_dtc_TBL_NODES
  | .dtc_STATUS => row_dtc_STATUS
  | .dtc_SEQ => row_dtc_SEQ
  | .dtc_ROOT => row_dtc_ROOT
  | .lbh_PROF_CFG => row_lbh_PROF_CFG
  | .lbh_PROF_MASK => row_lbh_PROF_MASK
  | .lbh_PROF_SYM => row_lbh_PROF_SYM
  | .lbh_TOEP_KEY => row_lbh_TOEP_KEY
  | .lbh_NODE_PROF => row_lbh_NODE_PROF
  | .msc_SA_KEY => row_msc_SA_KEY
  | .msc_SA_SALT => row_msc_SA_SALT
  | .msc_SA_PN => row_msc_SA_PN
  | .msc_SC_CFG => row_msc_SC_CFG
  | .msc_SC_SCI => row_msc_SC_SCI
  | .fe_hmc_CH_CTRL => row_fe_hmc_CH_CTRL
  | .fe_hmc_SC_CFG => row_fe_hmc_SC_CFG
  | .fe_hmc_PAGE_CFG => row_fe_hmc_PAGE_CFG
  | .fe_hmc_CH_STATUS => row_fe_hmc_CH_STATUS
  | .fe_hmc_ERR_CNT => row_fe_hmc_ERR_CNT
  | .fe_hmc_TRAIN_CTRL => row_fe_hmc_TRAIN_CTRL
  | .fe_hmc_TRAIN_RESULT => row_fe_hmc_TRAIN_RESULT
  | .fe_hmc_CAP_INFO => row_fe_hmc_CAP_INFO
  | .fe_hmc_CAP_SYND => row_fe_hmc_CAP_SYND
  | .fe_hmc_CAP_CMD => row_fe_hmc_CAP_CMD
  | .fe_hmc_MAP_MASK => row_fe_hmc_MAP_MASK
  | .fe_hmc_RETRAIN_CFG => row_fe_hmc_RETRAIN_CFG
  | .fe_hmc_REGION => row_fe_hmc_REGION
  | .qmg_CFG => row_qmg_CFG
  | .qmg_STATUS => row_qmg_STATUS
  | .qmg_WRED_SEED => row_qmg_WRED_SEED
  | .qmg_LOSS => row_qmg_LOSS
  | .qmg_SPILL_CNT => row_qmg_SPILL_CNT
  | .qmg_DROP_CNT => row_qmg_DROP_CNT
  | .qmg_POOL_CFG => row_qmg_POOL_CFG
  | .qmg_WRED => row_qmg_WRED
  | .qmg_GRP_CFG => row_qmg_GRP_CFG
  | .qmg_WM_CFG => row_qmg_WM_CFG
  | .qmg_WM_STATUS => row_qmg_WM_STATUS
  | .qmg_WM_PEAK => row_qmg_WM_PEAK
  | .qmg_CH_STATUS => row_qmg_CH_STATUS
  | .buf_CE_CNT => row_buf_CE_CNT
  | .buf_STATUS => row_buf_STATUS
  | .sch_ING_CFG => row_sch_ING_CFG
  | .sch_STATUS => row_sch_STATUS
  | .shp_STATUS => row_shp_STATUS
  | .pol_CFG => row_pol_CFG
  | .pol_STATUS => row_pol_STATUS
  | .tgt_PORT_CFG => row_tgt_PORT_CFG
  | .tgt_PORT_STATUS => row_tgt_PORT_STATUS
  | .fab_CFG => row_fab_CFG
  | .fab_GRANT_CFG => row_fab_GRANT_CFG
  | .fab_REASM_STATUS => row_fab_REASM_STATUS
  | .fab_MSG_STATUS => row_fab_MSG_STATUS
  | .fab_MISC_STATUS => row_fab_MISC_STATUS
  | .fab_LANE_EN => row_fab_LANE_EN
  | .fab_EQ_MAP => row_fab_EQ_MAP
  | .fab_LANE_STATUS => row_fab_LANE_STATUS
  | .fab_LANE_ERR => row_fab_LANE_ERR
  | .fab_SYS_MAP => row_fab_SYS_MAP
  | .tm_hmc_CH_CTRL => row_tm_hmc_CH_CTRL
  | .tm_hmc_SC_CFG => row_tm_hmc_SC_CFG
  | .tm_hmc_PAGE_CFG => row_tm_hmc_PAGE_CFG
  | .tm_hmc_CH_STATUS => row_tm_hmc_CH_STATUS
  | .tm_hmc_ERR_CNT => row_tm_hmc_ERR_CNT
  | .tm_hmc_TRAIN_CTRL => row_tm_hmc_TRAIN_CTRL
  | .tm_hmc_TRAIN_RESULT => row_tm_hmc_TRAIN_RESULT
  | .tm_hmc_CAP_INFO => row_tm_hmc_CAP_INFO
  | .tm_hmc_CAP_SYND => row_tm_hmc_CAP_SYND
  | .tm_hmc_CAP_CMD => row_tm_hmc_CAP_CMD
  | .tm_hmc_MAP_MASK => row_tm_hmc_MAP_MASK
  | .tm_hmc_RETRAIN_CFG => row_tm_hmc_RETRAIN_CFG
  | .tm_hmc_CARVE => row_tm_hmc_CARVE
  | .d2d_STATUS => row_d2d_STATUS
  | .d2d_MOD_STATUS => row_d2d_MOD_STATUS
  | .d2d_MOD_ERR => row_d2d_MOD_ERR

/-- Registers of BAR0, part 0, in address order. -/
def regsPart0 : List Reg :=
  [.glb_IDENT, .glb_BOOT_STATUS, .glb_STRAPS, .glb_LC_SUMMARY, .glb_EVT_ROUTE, .cpr_TIME, .cpr_TIME_CFG, .cpr_TAI_OFFSET, .cpr_TIME_RATE, .cpr_TIME_ADJ_AT, .cpr_TIME_ADJ, .cpr_PPS_CAP, .cpr_RESET_CAUSE, .cpr_RESET_CTRL, .cpr_WDOG, .cpr_PD_CTRL, .cpr_PD_STATUS, .mgs_SENSOR, .mgs_THERM, .gkp_TASK_CFG, .gkp_TASK_STATUS, .mgs_UPD_STATUS, .mgs_SLOT_STATUS, .gkp_AUDIT_CFG, .gkp_AUDIT_ADDR, .gkp_AUDIT_STATUS, .gkp_AUDIT_LAST, .pci_ERR_STATUS, .pci_TXN_CFG, .pci_TXN_STATUS, .pci_TXN_LAST_SEQ, .pci_VF_RINGS, .pci_RING_BASE, .pci_RING_CFG]
/-- Registers of BAR0, part 1, in address order. -/
def regsPart1 : List Reg :=
  [.pci_RING_PIDX, .pci_RING_CIDX, .pci_RING_WB, .pci_RING_STATUS, .twn_CFG, .twn_TUNE, .twn_CTRL, .twn_STATUS, .twn_EPOCH, .twn_HEALTH, .twn_HEALTH_WT, .twn_PARTNER, .twn_CNT, .twn_RALLY_LANE, .skp_CNT_CFG, .skp_PERM, .skp_CLEAR, .skp_WHISTLE_CTRL, .skp_WHISTLE_AT, .skp_STATUS, .skp_PUSH_CFG, .skp_TRACE_CFG, .skp_TRACE_SEED, .skp_TRACE_STATUS, .skp_TRACE_CIDX, .lmac_PORT_CFG, .lmac_PORT_CTRL, .lmac_PORT_FC, .lmac_PORT_STATUS, .lmac_TS_FIFO, .lmac_MSEC_CFG, .lmac_CNT, .prs_HORIZON, .prs_STATUS]
/-- Registers of BAR0, part 2, in address order. -/
def regsPart2 : List Reg :=
  [.prs_D2D_DROP, .prs_PORT_CFG, .prs_MAL_ACT, .prs_MAL_CNT, .prs_NODE_CFG, .prs_NODE_EXT, .prs_NODE_CHK, .prs_NODE_BR, .dsp_DISP_CFG, .dsp_DISP_STATUS, .dsp_OK_CFG, .dsp_OK_STATUS, .dsp_RNG_SEED, .dsp_DISP_SLOT, .fpc_CL_CTRL, .fpc_CL_STATUS, .fpc_DB_CFG, .fpc_DB_STATUS, .fpc_DB_THREADS, .fpc_WATCH_CFG, .fpc_ERR_STATUS, .fpc_DBG_CTRL, .fpc_RESIDENT, .fpc_EXC_STATUS, .fpc_ROSTER, .fpc_THREAD_STATE, .fpc_CHAN_CFG, .fpc_CHAN_STATUS, .fpc_CHAN_SLOTS, .fpc_EVT_CFG, .fpc_EVT_STATUS, .rau_CFG, .rau_CNT, .rau_BUF_STATUS]
/-- Registers of BAR0, part 3, in address order. -/
def regsPart3 : List Reg :=
  [.rau_PORT_CLASS, .rau_NODE_PLAN, .rau_PLAN, .rau_TBL_DIR, .fbk_CFG, .fbk_PORT_EN, .fbk_CNT, .fbk_RECIPE, .fbk_NODE_RCP, .fbk_TMPL, .lpm_SLICE_CFG, .lpm_SLICE_STATUS, .exm_AGE_EPOCH, .exm_LEARN_STATUS, .exm_CTR_STATUS, .exm_TBL_CFG, .exm_TBL_GEOM, .exm_TBL_STATUS, .exm_LEARN_PORT, .exm_LEARN_CNT, .tcm_TBL_CFG, .tcm_BLK_STATUS, .tcm_BLK_SEQ, .tcm_SCRUB_CFG, .tcm_SCRUB_STATUS, .dtc_CACHE_STATUS, .dtc_TBL_CFG, .dtc_TBL_NODES, .dtc_STATUS, .dtc_SEQ, .dtc_ROOT, .lbh_PROF_CFG, .lbh_PROF_MASK, .lbh_PROF_SYM]
/-- Registers of BAR0, part 4, in address order. -/
def regsPart4 : List Reg :=
  [.lbh_TOEP_KEY, .lbh_NODE_PROF, .msc_SA_KEY, .msc_SA_SALT, .msc_SA_PN, .msc_SC_CFG, .msc_SC_SCI, .fe_hmc_CH_CTRL, .fe_hmc_SC_CFG, .fe_hmc_PAGE_CFG, .fe_hmc_CH_STATUS, .fe_hmc_ERR_CNT, .fe_hmc_TRAIN_CTRL, .fe_hmc_TRAIN_RESULT, .fe_hmc_CAP_INFO, .fe_hmc_CAP_SYND, .fe_hmc_CAP_CMD, .fe_hmc_MAP_MASK, .fe_hmc_RETRAIN_CFG, .fe_hmc_REGION, .qmg_CFG, .qmg_STATUS, .qmg_WRED_SEED, .qmg_LOSS, .qmg_SPILL_CNT, .qmg_DROP_CNT, .qmg_POOL_CFG, .qmg_WRED, .qmg_GRP_CFG, .qmg_WM_CFG, .qmg_WM_STATUS, .qmg_WM_PEAK, .qmg_CH_STATUS, .buf_CE_CNT]
/-- Registers of BAR0, part 5, in address order. -/
def regsPart5 : List Reg :=
  [.buf_STATUS, .sch_ING_CFG, .sch_STATUS, .shp_STATUS, .pol_CFG, .pol_STATUS, .tgt_PORT_CFG, .tgt_PORT_STATUS, .fab_CFG, .fab_GRANT_CFG, .fab_REASM_STATUS, .fab_MSG_STATUS, .fab_MISC_STATUS, .fab_LANE_EN, .fab_EQ_MAP, .fab_LANE_STATUS, .fab_LANE_ERR, .fab_SYS_MAP, .tm_hmc_CH_CTRL, .tm_hmc_SC_CFG, .tm_hmc_PAGE_CFG, .tm_hmc_CH_STATUS, .tm_hmc_ERR_CNT, .tm_hmc_TRAIN_CTRL, .tm_hmc_TRAIN_RESULT, .tm_hmc_CAP_INFO, .tm_hmc_CAP_SYND, .tm_hmc_CAP_CMD, .tm_hmc_MAP_MASK, .tm_hmc_RETRAIN_CFG, .tm_hmc_CARVE, .d2d_STATUS, .d2d_MOD_STATUS, .d2d_MOD_ERR]
/-- Every register of BAR0. -/
def allRegs : List Reg :=
  regsPart0 ++ regsPart1 ++ regsPart2 ++ regsPart3 ++ regsPart4 ++ regsPart5

/-- The BAR0 offset of an element of a register array. -/
def elemOffset : List (Nat × Nat) → List Nat → Nat
  | (_, st) :: ds, i :: is => i * st + elemOffset ds is
  | _, _ => 0

/-- The BAR0 offset of register `r` at the indexes `ix`. -/
def Reg.addr (r : Reg) (ix : List Nat) : Nat := r.row.base + elemOffset r.row.dims ix

/-- The indexes an offset from an array's base stands for, where it names an element. -/
def elemIndex : List (Nat × Nat) → Nat → Option (List Nat)
  | [], 0 => some []
  | [], _ => none
  | (n, st) :: ds, off =>
    if off / st < n then (elemIndex ds (off % st)).map (off / st :: ·) else none

/-- The register and indexes at a BAR0 offset, if one stands there (R8). -/
def findRegIn (off : Nat) : List Reg → Option (Reg × List Nat)
  | [] => none
  | r :: rs =>
    if r.row.base ≤ off then
      match elemIndex r.row.dims (off - r.row.base) with
      | some ix => some (r, ix)
      | none => findRegIn off rs
    else findRegIn off rs

/-- The register at a BAR0 offset. -/
def findReg (off : Nat) : Option (Reg × List Nat) := findRegIn off allRegs

/-- The value a register holds after a reset that clears its block (R11); the rows of PD_CTRL and
PD_STATUS for PD00 (R613, R614) and MAL_ACT entry 29 (R51) have values of their own. -/
def Reg.resetValue (r : Reg) (ix : List Nat) : BitVec 64 :=
  match r, ix with
  | .cpr_PD_CTRL, [0] => 1
  | .cpr_PD_STATUS, [0] => 2
  | .prs_MAL_ACT, [29] => 2
  | r, _ => BitVec.ofNat 64 r.row.reset

/-- The value of a field of a register's word. -/
def Fld.get (f : Fld) (w : BitVec 64) : Nat := (w.toNat / 2 ^ f.lo) % 2 ^ f.width

/-- The ones of a field's bits. -/
def Fld.mask (f : Fld) : BitVec 64 := BitVec.ofNat 64 ((2 ^ f.width - 1) * 2 ^ f.lo)

/-- A register's word with one field set (the value's excess bits are dropped). -/
def Fld.set (f : Fld) (w : BitVec 64) (v : Nat) : BitVec 64 :=
  (w &&& ~~~ f.mask) ||| BitVec.ofNat 64 ((v % 2 ^ f.width) * 2 ^ f.lo)

end Sys2Proof.Machine
end

