-- ==== Sys2Proof/Machine/Sparse.lean ====
section
/-! DEFINITION. Sparse tables: a memory or an array of records as a list of (key, value) pairs in one
canonical form, keys strictly rising and no entry equal to what an unlisted key reads as. -/

namespace Sys2Proof.Machine

/-- A sparse table from naturals to `α`: only the entries that differ from the default are listed. -/
abbrev SMap (α : Type) := List (Nat × α)

/-- The entry at key `k`, if one is listed. -/
def SMap.find? {α : Type} (m : SMap α) (k : Nat) : Option α :=
  match m with
  | [] => none
  | (j, v) :: t => if j = k then some v else SMap.find? t k

/-- The value at key `k`: the listed one, else the default `d`. DESIGN CHOICE, log entry 66. -/
def SMap.get {α : Type} (d : α) (m : SMap α) (k : Nat) : α := (SMap.find? m k).getD d

/-- The table without key `k`. -/
def SMap.erase {α : Type} (m : SMap α) (k : Nat) : SMap α :=
  match m with
  | [] => []
  | (j, v) :: t => if j = k then SMap.erase t k else (j, v) :: SMap.erase t k

/-- The table with `v` listed at key `k`. -/
def SMap.insert {α : Type} (m : SMap α) (k : Nat) (v : α) : SMap α :=
  match m with
  | [] => [(k, v)]
  | (j, w) :: t =>
    if j < k then (j, w) :: SMap.insert t k v
    else if j = k then (k, v) :: t else (k, v) :: (j, w) :: t

/-- The table in which key `k` reads `v`, the default `d` being unlisted. -/
def SMap.put {α : Type} [DecidableEq α] (d : α) (m : SMap α) (k : Nat) (v : α) : SMap α :=
  if v = d then SMap.erase m k else SMap.insert m k v

/-- Every listed key is above `b`, keys rise strictly and no entry holds the default. -/
def SMap.wfFrom {α : Type} [DecidableEq α] (d : α) : Nat → SMap α → Bool
  | _, [] => true
  | b, (j, v) :: t => decide (b ≤ j) && decide (v ≠ d) && SMap.wfFrom d (j + 1) t

/-- The canonical form of a sparse table. -/
def SMap.wf {α : Type} [DecidableEq α] (d : α) (m : SMap α) : Bool := SMap.wfFrom d 0 m

/-- The table with the entry at `k` changed by `f`. -/
def SMap.modify {α : Type} [DecidableEq α] (d : α) (m : SMap α) (k : Nat) (f : α → α) : SMap α :=
  SMap.put d m k (f (SMap.get d m k))

/-- Memory as bytes by address; an unlisted address reads as zero. -/
abbrev Memory := SMap Byte

/-- The canonical form of a memory (an unlisted byte reads zero). DESIGN CHOICE, log entry 66. -/
def Memory.wf (m : Memory) : Bool := SMap.wf (0 : Byte) m

/-- One byte of a memory. DESIGN CHOICE, log entry 66. -/
def Memory.read (m : Memory) (a : Nat) : Byte := SMap.get 0 m a

/-- One byte of a memory written. -/
def Memory.write (m : Memory) (a : Nat) (b : Byte) : Memory := SMap.put 0 m a b

/-- `n` bytes of a memory from address `a` upward. -/
def Memory.readBytes (m : Memory) (a : Nat) : Nat → List Byte
  | 0 => []
  | n + 1 => m.read a :: Memory.readBytes m (a + 1) n

/-- The bytes `bs` written from address `a` upward. -/
def Memory.writeBytes (m : Memory) (a : Nat) : List Byte → Memory
  | [] => m
  | b :: bs => Memory.writeBytes (m.write a b) (a + 1) bs

/-- The value of bytes read as a little-endian number (R6, R509). -/
def leNat : List Byte → Nat
  | [] => 0
  | b :: bs => b.toNat + 256 * leNat bs

/-- The value of bytes read as a big-endian number (R126). -/
def beNat (bs : List Byte) : Nat := bs.foldl (fun a b => 256 * a + b.toNat) 0

/-- A number as `n` little-endian bytes. -/
def natLE : Nat → Nat → List Byte
  | 0, _ => []
  | n + 1, v => BitVec.ofNat 8 v :: natLE n (v / 256)

/-- A number as `n` big-endian bytes. -/
def natBE (n v : Nat) : List Byte := (natLE n v).reverse

/-- The bytes `n` to `n + k - 1` of a record as a little-endian number; bytes past its end read zero. -/
def leAt (bs : List Byte) (n k : Nat) : Nat := leNat ((bs.drop n).take k)

/-- A byte list cut or padded with zero to `n` bytes. -/
def padTo (n : Nat) (bs : List Byte) : List Byte := (bs ++ List.replicate (n - bs.length) 0).take n

/-- Whether every byte is zero. -/
def allZero (bs : List Byte) : Bool := bs.all (· == 0)

/-- Bit `i` of a number. -/
def bitOf (v i : Nat) : Bool := (v / 2 ^ i) % 2 == 1

/-- Bits `[lo + w - 1 : lo]` of a number. -/
def bitsOf (v lo w : Nat) : Nat := (v / 2 ^ lo) % 2 ^ w

/-- The `i`-th element of a list replaced; the list is unchanged where it is shorter. -/
def setAt {α : Type} (l : List α) (i : Nat) (v : α) : List α := l.set i v

/-- The first power of two's exponent not below `n`. -/
def log2Ceil (n : Nat) : Nat := if 2 ^ Nat.log2 n = n then Nat.log2 n else Nat.log2 n + 1

/-- One step of the reflected CRC-32C over a byte. -/
def crc32cByte (c b : Nat) : Nat :=
  (List.range 8).foldl (fun c _ => if c % 2 = 1 then (c / 2) ^^^ 0x82F63B78 else c / 2) (c ^^^ b)

/-- CRC32-C of bytes with an initial value (R59). -/
def crc32c (seed : Nat) (bs : List Byte) : Nat :=
  (bs.foldl (fun c b => crc32cByte c b.toNat) seed) ^^^ 0xFFFFFFFF

end Sys2Proof.Machine
end

