-- ==== Sys2Proof/Machine/State.lean ====
section
/-! DEFINITION. The state of the device as plain data, the reasons a command can stop, and the state
after reset. Registers of BAR0 live in `regs`, by offset; every other piece of state the spec names has
a field of its own. -/

namespace Sys2Proof.Machine

/-- Why the machine stops with a fault. The spec stops no command, so no meaning raises it; the one
constructor is kept so that the type is inhabited. Safe: a stop proves nothing false. -/
inductive Fault
  /-- Raised by nothing. Safe. -/
  | none
  deriving DecidableEq, Repr

/-- Why a command is refused. -/
inductive Refusal
  /-- A command whose meaning is not written; raised by its arm of `exec` only. Safe. -/
  | notModelled (mnemonic : String)
  deriving DecidableEq, Repr

/-! ### What leaves the device -/

/-- What the device sends to the outside, in the order sent. -/
inductive Output
  /-- Bytes written to host memory by a function (R498). -/
  | hostWrite (fn : Fn) (addr : Word) (data : List Byte)
  /-- An MSI-X message (R499). -/
  | msix (fn : Fn) (vec : Nat) (addr : Word) (data : BitVec 32)
  /-- A failed read of a function reported through AER, with the status of DMA_ERR (R489, R498). -/
  | aer (fn : Fn) (status : Nat)
  /-- The data of a register read (R9). -/
  | readData (v : Word)
  /-- A mailbox response sent on a management-port connection (R549). -/
  | mgmtReply (conn : Nat) (record : List Byte) (buffer : List Byte)
  /-- A frame begun or sent on a line MAC (R365), with whether its FCS is sent inverted. -/
  | lineFrame (mac : Nat) (bytes : List Byte) (badFcs : Bool)
  /-- A PAUSE or PFC frame: its class vector and quanta per class (R367). -/
  | pauseFrame (mac : Nat) (pfc : Bool) (classes : Nat) (quanta : Nat)
  /-- A cell handed to a fabric lane (R386): lane, header fields as a word list, payload. -/
  | cell (lane : Nat) (kind : Nat) (fields : List Nat) (payload : List Byte)
  /-- A rally frame sent on a lane (R451): its header with the CRC, and its payload. -/
  | rally (lane : Nat) (header : Nat) (payload : List Byte)
  /-- A message to the umpire (R470): kind and fields. -/
  | umpire (kind : Nat) (fields : List Nat)
  /-- A flit's replay request on the die-to-die link (R16): module and sequence number. -/
  | d2dReplay (m : Nat) (seqNo : Nat)
  /-- The core supply target sent to the board's regulator in mV (R540). -/
  | avsTarget (mv : Nat)
  /-- Bits shifted out of the JTAG data register, and its length (R635). -/
  | jtagTdo (bits : Nat) (len : Nat)
  /-- A code printed on the UART (R523). -/
  | uart (code : Nat)
  /-- A response of an HBM controller to a user's request (R417, R428): request tag, status, data. -/
  | hbmResponse (chan : Nat) (tag : Nat) (status : Nat) (data : List Byte)
  deriving DecidableEq, Repr

/-! ### Host interface (chapter 13) -/

/-- One entry of a function's MSI-X table with its Pending Bit (R499, R501). -/
structure MsixEntry where
  addr : Word := 0
  data : BitVec 32 := 0
  masked : Bool := true
  pend : Bool := false
  deriving DecidableEq, Repr

/-- What a ring holds beside its registers: the entries counted towards its next message and the cycle
of the first of them (R499), the descriptors taken and not completed (R497), the events lost since
the last record (R510), and whether a Function Level Reset came while the ring was STARTING (R504). -/
structure RingX where
  coal : Nat := 0
  coalSince : Nat := 0
  taken : Nat := 0
  lostBefore : Nat := 0
  flr : Bool := false
  deriving DecidableEq, Repr

/-- A punt in the punt FIFO (R514, R515). `frame` names the frame whose FCS and ICV checks it awaits. -/
structure Punt where
  ring : Nat
  seq : Word
  ts : Word
  inMac : Nat
  source : Nat
  verdict : Nat
  reasons : Nat
  frameLen : Nat
  outLen : Nat
  domain : Nat
  prog : List (BitVec 32)
  bytes : List Byte
  frame : Nat
  trace : Nat
  deriving DecidableEq, Repr

/-- An injected packet read from its ring and waiting for its sequence number (R516). -/
structure InjPkt where
  ring : Nat
  idx : Nat
  mode : Nat
  dp : Nat
  target : Nat
  prog : List Byte
  bytes : List Byte
  deriving DecidableEq, Repr

/-- The host interface beside its registers (chapter 13). -/
structure HostSt where
  /-- MSI-X entries by function number × 4,096 + vector (R501). -/
  msix : SMap MsixEntry := []
  ringx : SMap RingX := []
  /-- The next event number (R510). -/
  eseq : Nat := 0
  punts : List Punt := []
  injHeld : List InjPkt := []
  /-- The inject ring whose turn is next (R516). -/
  injNext : Nat := 0
  /-- Whether PERST_N is asserted (R504). -/
  perst : Bool := false
  deriving DecidableEq, Repr

/-! ### Management, start-up, lifetime and updates (chapters 14 and 15) -/

/-- One log entry (R536). -/
structure LogEntry where
  seq : Nat
  code : Nat
  severity : Nat
  calKnown : Bool
  lifeS : Nat
  taiS : Nat
  loc : Word
  addr : Word
  data : List Byte
  deriving DecidableEq, Repr

/-- The lifetime record (R538). -/
structure Life where
  poweredS : Nat := 0
  hotHours : Nat := 0
  thermalCycles : Nat := 0
  powerCycles : Nat := 0
  /-- Sum over powered seconds of the hottest junction, of which mean_tj is the mean. -/
  tjSum : Nat := 0
  /-- Lowest eye margin by quad × 240 + month. -/
  serdesMargin : SMap Nat := []
  /-- Corrected count by channel × 240 + month, freezes, training failures and lane repairs by channel. -/
  hbmCorrected : SMap Nat := []
  hbmFreezes : SMap Nat := []
  hbmTrainFail : SMap Nat := []
  hbmLaneRepair : SMap Nat := []
  /-- Locations of rows and columns steered or to be steered at the next start (R25, R260, R284). -/
  memRepairs : List Word := []
  retiredModules : List Nat := []
  /-- Erases by range of sectors: the first × 65,536 + their number. A sector's count is the sum over the ranges it
  lies in. -/
  flashErases : SMap Nat := []
  /-- Failed and retired physical cores: cluster × 32 + physical core, holding 1 + the cause (R120 of
  the events: 0 self-test, 1 margin, 2 failed while running). -/
  cores : SMap Nat := []
  avsTarget : Nat := 700
  /-- The core supply target and the month of each step. -/
  avsSteps : List (Nat × Nat) := []
  firstPowerOn : Nat := 0
  lastCalendar : Nat := 0
  /-- TAI seconds and powered seconds of the last deep scrub (task 8) and yearly recalibration. -/
  deepTai : Nat := 0
  deepS : Nat := 0
  yearTai : Nat := 0
  yearS : Nat := 0
  logSeq : Nat := 0
  deriving DecidableEq, Repr

/-- A flash header record (R520, R544). -/
structure Hdr where
  active : Bool := false
  failCount : Nat := 0
  seq : Nat := 0
  stateA : Nat := 0
  stateB : Nat := 0
  reasonA : Nat := 0
  reasonB : Nat := 0
  digestA : BitVec 384 := 0
  digestB : BitVec 384 := 0
  secverA : Nat := 0
  secverB : Nat := 0
  deriving DecidableEq, Repr

/-- A settings copy (R561): erased, neither erased nor valid, or valid with its schema, sequence and
records (type, value). -/
inductive Settings
  | erased
  | invalid
  | valid (schema : BitVec 16) (seq : Nat) (records : List (Nat × List Byte))
  deriving DecidableEq, Repr

/-- The update session record (R550, R554). -/
structure Session where
  /-- 1 OPEN, 2 COMPLETE, 3 APPLYING, 4 APPLIED (R566). -/
  state : Nat
  seq : Nat
  target : BitVec 384
  base : BitVec 384
  holder : Nat
  kind : Nat
  dest : Nat
  pieceCount : Nat
  targetLen : Nat
  deltaLen : Nat
  secver : Nat
  lastActivity : Nat
  manifest : List Byte
  deriving DecidableEq, Repr

/-- The flash (R519) and the boot ROM's verification key digests (R517, R547): everything in them survives every
reset. -/
structure Flash where
  /-- Bytes of the devices at the two chip selects. -/
  cs0 : Nat := 0x20000000
  cs1 : Nat := 0
  keys : List (BitVec 384) := []
  hdr0 : Option Hdr := none
  hdr1 : Option Hdr := none
  slotA : List Byte := []
  slotB : List Byte := []
  playbooks : SMap (List Byte) := []
  set0 : Settings := .erased
  set1 : Settings := .erased
  /-- The flash log ring by position, and the position written next (R536). -/
  log : SMap LogEntry := []
  logPos : Nat := 0
  /-- The two halves of the lifetime record with their sequence numbers (R538). -/
  life0 : Option (Nat × Life) := none
  life1 : Option (Nat × Life) := none
  /-- The session records by their place in the two sectors, each with its sequence, which one without a session has too;
  the session, staged pieces by index and whether they are a retained set (R554, R559). -/
  recs : SMap (Nat × Option Session) := []
  session : Option Session := none
  pieces : SMap (List Byte) := []
  retained : Option Session := none
  deriving DecidableEq, Repr

/-- Start-up (chapter 14). -/
structure BootSt where
  /-- Start-up has begun at a reset release (R521) and is in the stage BOOT_STATUS shows. -/
  running : Bool := false
  /-- Cycle of the release and of the current stage's begin. -/
  since : Nat := 0
  stageSince : Nat := 0
  /-- The playbook RESTART named, if one did (R524). -/
  named : Option (Fin 4) := none
  /-- The playbook read and what it holds; whether the fallback is in use (R525). -/
  playbook : Option PlaybookInfo := none
  fallbackUsed : Bool := false
  /-- What the running image is (R522). -/
  image : Option ImageInfo := none
  /-- boot_fail_count found at the image's start (R563), and whether the next start does not count. -/
  failAtStart : Nat := 0
  noCount : Bool := false
  /-- The schema in which the settings were read, where one was (R562). -/
  readSchema : Option (BitVec 16) := none
  /-- Cycle at which stage 7 began, once it has (R559). -/
  stage7At : Option Nat := none
  accepted : Bool := false
  /-- The registers are sealed (R526). -/
  sealed : Bool := false
  /-- The management firmware runs and serves the mailbox (R532). -/
  mgmtUp : Bool := false
  /-- Slots that an image stage's timeout rejected in this start (R527): false A, true B. -/
  slotsOut : List Bool := []
  /-- The base tables have been given to the transaction engine, and one of their operations failed (R521, R525). -/
  baseBegun : Bool := false
  baseFailed : Bool := false
  deriving DecidableEq, Repr

/-- Management state beside the flash and the registers (chapters 14, 15). -/
structure MgmtSt where
  log : List LogEntry := []
  /-- Entries of severity NOTICE or higher waiting for flash (R536). -/
  logWait : List LogEntry := []
  life : Life := {}
  /-- Cycle at which `life.poweredS` was last brought up to date. -/
  lifeAt : Nat := 0
  lifeWrittenAt : Nat := 0
  /-- Seconds of the present hour with the hottest junction above 95 °C, and extremes (R538). -/
  hotS : Nat := 0
  tjLow : Nat := 0
  tjHigh : Nat := 0
  /-- TAI seconds and cycle at which the calendar became known (R539). -/
  calendar : Option (Nat × Nat) := none
  tripped : Bool := false
  /-- Cycle + 1 of the last DROOP post of each detector, 0 for none (R534). -/
  droopAt : SMap Nat := []
  /-- Cycle + 1 since which a cluster's margin stays below 40 ps at 0.80 V (R541). -/
  avsLow : SMap Nat := []
  lastAvs : Nat := 0
  /-- The step position of each groundskeeper task (R542). -/
  taskPos : SMap Nat := []
  /-- The members of the update session beside its holder (R550). -/
  members : List Nat := []
  /-- Whether the staging area still has to be erased before the next session (R559). -/
  stagingDirty : Bool := false
  /-- Pieces staged since the last WANT, and whether a session that was resumed has still to send its own (R555). -/
  sinceWant : Nat := 0
  wantDue : Bool := false
  /-- An apply is under way (R556), and there was activity that the session record does not show yet (R551). -/
  applying : Bool := false
  seen : Bool := false
  /-- Management events that wait while the firmware restarts: code, location, address and data (R532). -/
  held : List (Nat × Word × Word × List Byte) := []
  /-- The deep scrub's passes over the SRAMs and over the HBM are under way (R542). -/
  deepSram : Bool := false
  deepHbm : Bool := false
  lastNvm : Nat := 0
  /-- Tiles unavailable since their domain's start, by class and index (R25). -/
  tilesOut : List (Nat × Nat) := []
  /-- Clusters still to be reloaded after a management restart, one at a time (R532). -/
  reload : List Nat := []
  /-- The latest RESULT from the partner: index, status and detail (R555). -/
  partnerResult : Option (Nat × Nat × Nat) := none
  deriving DecidableEq, Repr

/-! ### Counters and tracing (chapter 16) -/

/-- One waypoint of a trace record (R581). -/
structure Waypoint where
  tick : Word
  code : Nat
  flags : Nat
  data : List Byte
  deriving DecidableEq, Repr

/-- An open or closed trace record (R583). -/
structure TraceRec where
  id : Nat := 0
  slot : Nat := 0
  seq : Word
  ts : Word := 0
  inMac : Nat := 0
  fromFabric : Bool := false
  flags : Nat := 0
  lost : Nat := 0
  reasons : Nat := 0
  frameLen : Nat := 0
  srcDev : Nat := 0
  pkt : Nat := 0
  openedAt : Nat := 0
  traceNo : Nat := 0
  points : List Waypoint := []
  deriving DecidableEq, Repr

/-- What happened to a counter in a cycle of its group's clock (R571): the cycle, the events counted in it, the value before
a clear or a reconfiguration in it, and whether it was reconfigured in it and so counts from the next. -/
structure CntEdge where
  cycle : Nat := 0
  n : Nat := 0
  before : Option (BitVec 48) := none
  fresh : Bool := false
  deriving DecidableEq, Repr

/-- Counters, sweep, whistle and tracing beside their registers (chapter 16). -/
structure CntSt where
  /-- Block counters by group × 8 + counter (R568). -/
  cnt : SMap (BitVec 48) := []
  /-- What happened to a counter in the latest cycle of its clock that touched it (R571). -/
  edge : SMap CntEdge := []
  sweepPage : SMap Word := []
  sweepNext : Nat := 0
  sweepStart : Nat := 0
  sweepEnd : Nat := 0
  pushSlot : Bool := false
  /-- The latched copy, the cycle of the whistle and whether it reached the Shoilany die, and the whistle page (R575,
  R576). -/
  latched : SMap (BitVec 48) := []
  latchAt : Nat := 0
  latchFar : Bool := false
  whistlePage : SMap Word := []
  whistleNo : Nat := 0
  whistleW : Nat := 0
  /-- The armed tick already lay in the past when it was written (R575). -/
  whistleLate : Bool := false
  /-- Open trace records, closed ones by slot of the trace buffer, and the counts of R583, R584. -/
  openTraces : List TraceRec := []
  traceBuf : SMap TraceRec := []
  nextTraceId : Nat := 1
  closedTraces : Nat := 0
  fullPosted : Bool := false
  /-- Records written since PF2 vector 2's last message, and the cycle of the first (R579). -/
  msiCount : Nat := 0
  msiSince : Nat := 0
  deriving DecidableEq, Repr

/-! ### Clocks, power and reset (chapters 17 and 18) -/

/-- What boundary scan does to the pins (R635). -/
inductive JtagPins
  | functional | extest | clamp | highZ
  deriving DecidableEq, Repr

/-- Clocks, device time, power domains, resets and pins (chapters 17, 18). -/
structure PowerSt where
  pwrGood : Bool := false
  /-- Cycle at which PWRGOOD was asserted (R494). -/
  pwrAt : Nat := 0
  pllLocked : Bool := false
  /-- A device reset is held (R597, R615). -/
  inReset : Bool := true
  /-- Device time (R598) and the accumulator of its rate in 10⁻⁹ tick (R599). -/
  time : Word := 0
  acc : Int := 0
  /-- The pending step: the tick A and the signed step (R600). -/
  step : Option (Nat × Int) := none
  /-- Domains waiting for the ramp slot in the order of their requests, and the one that holds it (R612). -/
  pdWait : List Nat := []
  pdSlot : Option Nat := none
  /-- Cycle at which each domain's start was requested. -/
  pdSince : SMap Nat := []
  /-- PPS_OUT's level and the tick at which it falls; the cycle of the last PPS_IN edge (R603). -/
  ppsOut : Bool := false
  ppsFall : Nat := 0
  ppsEdge : Nat := 0
  ppsLostPosted : Bool := false
  /-- The watchdog's deadline base cycle and whether the first stage has expired without a kick (R619). -/
  wdogSince : Nat := 0
  wdogFirst : Bool := false
  /-- THERMTRIP_N held low (R534); SERVE_OUT driven; the level its keeper holds (R632). -/
  thermTrip : Bool := false
  serveOut : Bool := false
  serveNet : Bool := false
  /-- RESET_N holds the device reset (R633). -/
  resetPin : Bool := false
  /-- The xSPI outputs are at high impedance (R523). -/
  xspiOff : Bool := false
  /-- JTAG: the instruction register, the boundary-scan register of 104 cells, and what it does to the
  pins (R635). -/
  jtagIr : BitVec 8 := 1
  jtagBsr : BitVec 104 := 0
  jtagPins : JtagPins := .functional
  deriving DecidableEq, Repr

/-! ### The die-to-die link (chapter 1) -/

/-- One die-to-die module beside its registers (R17). -/
structure D2dModule where
  fails : Nat := 0
  winFlits : Nat := 0
  winReplays : Nat := 0
  /-- Cycle at which its 10 ms window began. -/
  winSince : Nat := 0
  deriving DecidableEq, Repr

/-- The receive side of one direction of the link: the next sequence number in order and those received
ahead of it (R16). -/
structure D2dRx where
  next : Nat := 0
  ahead : List Nat := []
  deriving DecidableEq, Repr

/-- The die-to-die link beside its registers (R16-R21). -/
structure D2dSt where
  modules : SMap D2dModule := []
  rxTm : D2dRx := {}
  rxFe : D2dRx := {}
  /-- Control signals acted on: the number of the next one (R16). -/
  sigNext : Nat := 0
  deriving DecidableEq, Repr

/-! ### Packets (chapters 2 to 5) -/

/-- The answer to a lookup (R124): status, data bits [119:0] and the entry hit, named by its place and its
identity (R198). -/
structure LkResult where
  status : Nat
  data : Nat
  hit : Option (Nat × Nat) := none
  deriving DecidableEq, Repr

/-- One lookup in an engine or parked (R161 to R165): its number, whether the run-ahead unit issued it and
for which plan slot, the packet it belongs to, its table and key, its result once returned, the l register
it is bound to as (cluster, thread, l), the cluster whose parked-result buffer it holds an entry of, and
whether it was squashed. -/
structure Lookup where
  id : Nat
  rau : Bool
  slot : Nat
  seq : Nat
  table : Nat
  key : List Byte
  result : Option LkResult := none
  dest : Option (Nat × Nat × Nat) := none
  buf : Option Nat := none
  squashed : Bool := false
  trace : Nat := 0
  /-- Its waypoint in the packet's trace record, from 1; 0 where none was stored (R170, R581). -/
  way : Nat := 0
  /-- Hash and shift for ECMP and LAG (R206). -/
  hash : Nat := 0
  shift : Nat := 0
  deriving DecidableEq, Repr

/-- A packet for admission to a queue (R297): its sequence number, the frame whose checks it awaits (0 for
none), its bytes, the VOQ or egress queue it goes to, its drop precedence and its trace. -/
structure AdmPkt where
  seq : Nat
  fid : Nat := 0
  inMac : Nat := 0
  ts : Word := 0
  bytes : List Byte
  egress : Bool := false
  queue : Nat
  dp : Nat
  trace : Nat := 0
  tagged : Bool := false
  /-- Frames whose check decides this copy's fate are marked; a fast-break packet counts `stomped`. -/
  fastBreak : Bool := false
  /-- A charge was red with red_drop set, so the packet is not admitted (R342). -/
  red : Bool := false
  /-- The cycle in which it reached admission and, of a packet from reassembly, its section (R297). -/
  at' : Nat := 0
  sec : Nat := 0
  deriving DecidableEq, Repr

/-- A packet between the parser and its disposition (R37, R125): `seq` its number, `fid` the frame it came
in, and the parse result. -/
structure Pkt where
  seq : Nat
  fid : Nat
  mac : Nat
  ts : Word
  bytes : List Byte
  /-- The parse-memory bank in use when it entered its pipe (R55). -/
  bank : Nat
  hov : List (Nat × Nat)
  final : Nat
  kb : List Byte
  reasons : Nat
  lastEnd : Nat
  marked : Bool := false
  outer : Bool := false
  plan : Nat := 0
  hDisp : Nat := 0
  hEcmp : Nat := 0
  hLag : Nat := 0
  domain : Nat := 0
  trace : Nat := 0
  prog : List Byte := []
  deriving DecidableEq, Repr

/-- A walk between two nodes (R37, R49). -/
structure Walk where
  node : Nat
  off : Nat := 0
  /-- The header-offset vector so far: header_id and byte offset. -/
  hov : List (Nat × Nat) := []
  final : Nat
  kb : List Byte := List.replicate 128 0
  reasons : Nat := 0
  /-- Consecutive VLAN tags and MPLS labels before this node. -/
  vlans : Nat := 0
  labels : Nat := 0
  /-- Check class of the header directly before, and its byte 0. -/
  prevClass : Nat := 0
  prevByte0 : Nat := 0
  /-- Payload end of the enclosing IP header, where there is one that is evaluated (R49). -/
  ipEnd : Option Nat := none
  /-- Byte after the last header entered. -/
  lastEnd : Nat := 0
  deriving DecidableEq, Repr

/-- One position of the order keeper (R80 to R82): its packet's domain and number, whether it has committed,
whether it was skipped, the cycle since which it is the oldest of its domain, and what its release does: the
packets that go to admission, the punt, and for a fast-break packet its counter and its entry. -/
structure OrdEntry where
  domain : Nat
  seq : Nat
  done : Bool := false
  skipped : Bool := false
  since : Option Nat := none
  held : Bool := false
  outs : List AdmPkt := []
  punt : Option Punt := none
  fastBreak : Bool := false
  counter : Option (Nat × Nat) := none
  stamp : Option (Nat × Nat) := none
  trace : Nat := 0
  deriving DecidableEq, Repr

/-- One entry of a thread's deferred buffer (R146): a counter with packets and bytes, a policer with bytes,
or a learn record. -/
inductive Deferred
  | count (ctr packets bytes : Nat)
  | charge (pol bytes : Nat)
  | learn (record : List Byte)
  deriving DecidableEq, Repr

/-- A commit under way (R147): the packet's number (none for a resident thread), its disposition (0 EMIT,
1 DROP, 2 PUNT, 3 a resident thread's), its entries with the policer charges not yet answered, the colour so
far, the entries to stamp, the mirrors and the output. -/
structure Commit where
  seq : Option Nat
  kind : Nat
  mac : Nat := 0
  ts : Word := 0
  entries : List Deferred := []
  charges : List (Nat × Nat) := []
  colour : Nat := 0
  red : Bool := false
  stamps : List (Nat × Nat) := []
  mirrors : List AdmPkt := []
  out : Option AdmPkt := none
  punt : Option (Punt × Nat) := none
  domain : Nat := 0
  trace : Nat := 0
  deriving DecidableEq, Repr

/-- One l register (R124, R145): a lookup issued, its result once written, and whether it was waited on. -/
structure LReg where
  issued : Bool := false
  result : Option LkResult := none
  waited : Bool := false
  /-- Its waypoint in the packet's trace record, from 1; 0 where none was stored (R170, R581). -/
  way : Nat := 0
  deriving DecidableEq, Repr

/-- A slot a thread holds reserved (R91): cluster, channel and slot, and whether the debugger released it
(R113). -/
structure Reservation where
  cluster : Nat
  chan : Nat
  slot : Nat
  released : Bool := false
  /-- It was committed, so that stores to it are discarded until a reader frees it (R92). -/
  committed : Bool := false
  deriving DecidableEq, Repr

/-- A hardware thread (R85, R115, R123). `state`: 0 IDLE, 1 READY, 2 RUNNING, 3 WAIT, 4 HALTED; `under` is
the state a halted thread would otherwise hold. -/
structure Thread where
  state : Nat := 0
  under : Nat := 0
  pc : Nat := 0
  g : SMap Word := []
  m : SMap (BitVec 32) := []
  l : SMap LReg := []
  hdr : Memory := []
  scratch : Memory := []
  prepend : Memory := []
  kb : List Byte := []
  gen : Word := 0
  pkt : Option Pkt := none
  deferred : List Deferred := []
  mirrors : List AdmPkt := []
  stamps : List (Nat × Nat) := []
  resv : List Reservation := []
  waitKind : Nat := 0
  waitObj : Nat := 0
  waitSince : Nat := 0
  waitLine : Nat := 0
  /-- A long-wait event was raised for this wait (R106). -/
  longSeen : Bool := false
  /-- The debugger stepped the thread, which halts again when this instruction completes (R111). -/
  stepping : Bool := false
  /-- The line or flag the thread waited for has come, so its instruction completes when it issues again. -/
  ready : Bool := false
  deriving DecidableEq, Repr

/-- A remote PASS.COMMIT or SIGNAL under way (R142): the issuing cluster and the slot or flag it acts on. -/
inductive RemoteOp
  | commit (src cluster chan slot : Nat)
  | signal (src cluster flag : Nat)
  deriving DecidableEq, Repr

/-- A DMA under way (R141). -/
structure DmaJob where
  cluster : Nat
  thread : Nat
  src : Nat
  dst : Nat
  blocks : Nat
  isFlag : Bool
  obj : Nat
  /-- The status of a finished copy that waits for room in its channel. -/
  finished : Option Nat := none
  deriving DecidableEq, Repr

/-- Parser, run-ahead unit, order keeper, dispatcher and clusters beside their registers (chapters 2-5). -/
structure FpcSt where
  /-- Words of the inactive parse bank that differ from the active one, by address (R55). -/
  otherBank : SMap Word := []
  /-- Pipes in which a node cannot be read, as a bitmap, by bank × 1,024 + node (R57). -/
  badNodes : SMap Nat := []
  /-- The next packet's sequence number (R646). -/
  seqNext : Nat := 1
  /-- Frames that wait in the parser for a node to settle, by MAC (R36). -/
  waits : SMap (Option (Pkt × Walk)) := []
  /-- Packets waiting at the end of a pipe's fast-break stage (R81) and for the dispatcher (R74), by pipe. -/
  stage : SMap (List Pkt) := []
  dispq : SMap (List Pkt) := []
  order : List OrdEntry := []
  lookups : List Lookup := []
  nextLookup : Nat := 1
  commits : List Commit := []
  /-- Threads by cluster × 128 + thread; the current roster slot by cluster × 16 + core (R88). -/
  threads : SMap Thread := []
  cur : SMap Nat := []
  /-- The roster in force of a core whose ROSTER was written and has not switched yet, by cluster × 16 + core (R89). -/
  rosterOld : SMap (Option Word) := []
  /-- Cluster memories: instruction SRAM words by cluster × 131,072, shared memory by cluster × 2²⁰, channel
  memory by cluster × 2¹⁷ (R68). -/
  isram : SMap (BitVec 32) := []
  shared : Memory := []
  chanMem : Memory := []
  /-- Packets in a cluster's input queue (R74), and packets dispatched to it (R96). -/
  inq : SMap (List Pkt) := []
  dispatched : SMap Nat := []
  remote : List RemoteOp := []
  dmas : List DmaJob := []
  /-- Data-cache lines by cluster × 2²⁷ + line, and the program-data window (R70). -/
  dcache : SMap (List Byte) := []
  pdata : Memory := []
  /-- Cycle of the last change that made a cluster's dead-ball condition fail, and whether a halted
  dependency was reported since (R101, R103); a dead ball held (R104). -/
  quiet : SMap Nat := []
  depSeen : SMap Bool := []
  dbHeld : SMap Bool := []
  /-- The program images in the management window by cluster (R116), and the cycle of a cluster's stop. -/
  images : List CoreProgram := []
  stopSince : SMap Nat := []
  /-- Shared-memory words with bad check bits, by cluster × 2¹⁷ + word (R120). -/
  badShared : SMap Bool := []
  /-- Instruction words with bad check bits, by cluster × 2¹⁷ + word (R120). -/
  badIsram : SMap Bool := []
  /-- Packets dropped because their core failed while running, by cluster (R26). -/
  coreDrops : SMap Nat := []
  deriving DecidableEq, Repr

/-! ### Table state and transactions (chapter 6) -/

/-- One entry of a table: its data, its identity, and for exact match its hit bit, age stamp, owner (MAC + 1,
0 for none) and location; for LPM whether it lies in HBM (R190, R194). -/
structure TEntry where
  data : Nat
  id : Nat := 0
  hit : Bool := false
  stamp : Nat := 0
  owner : Nat := 0
  loc : Nat := 0
  deriving DecidableEq, Repr

/-- The committed state of an entry and at most one earlier state, which serves packets numbered below `at`
(R226). -/
structure Cell where
  cur : Option TEntry := none
  old : Option (Option TEntry) := none
  seq : Nat := 0
  deriving DecidableEq, Repr

/-- What a staged operation changes at its sequence point (R223). -/
inductive Staged
  /-- The entry at a place of a table becomes this. -/
  | cell (key : Nat) (v : Option TEntry)
  /-- The entry at `key` is evicted, with a record of this cause and insertion tag (R204). -/
  | evict (key cause tag : Nat)
  /-- A word of the parse-graph unit (R55), of a fast-break template (R185), and a REG_WRITE (R229). -/
  | parse (addr : Nat) (v : Word)
  | word (addr : Nat) (v : Word)
  | reg (addr : Nat) (v : Word)
  /-- AGE_TICK (R198) and CLEAR of counters (R208). -/
  | age
  | clear (first count : Nat)
  /-- A TCAM chain, by its first block, and a classifier table, changed by their own rules (R253, R271). -/
  | tcam (first : Nat)
  | dtc (table : Nat)
  /-- Shoilany's units (R300, R324, R337, R344, R356). -/
  | queue (q cfg : Nat)
  | sched (lvl n cfg : Nat)
  | shaper (n cfg : Nat)
  | policer (k cfg : Nat)
  | gateEntry (p e gates interval : Nat)
  | gateCtrl (p ctrl : Nat)
  deriving DecidableEq, Repr

/-- The outcome of one operation of the batch (R228). -/
structure OpResult where
  tag : Nat
  status : Nat
  cause : Nat
  unit : Nat
  seq : Nat := 0
  loc : Nat := 0
  flags : Nat := 0
  moves : Nat := 0
  read : List Byte := []
  deriving DecidableEq, Repr

/-- The batch in hand (R217): its ring (none for one forwarded by the partner), result address and header fields,
its operation records, the results so far, and what is staged and not committed with the number of its
operation. -/
structure Batch where
  ring : Option Nat
  resultAddr : Nat
  tag : Nat
  atomic : Bool
  stopOnFail : Bool
  ops : List (List Byte)
  results : List OpResult := []
  staged : List (Nat × Staged) := []
  /-- A non-atomic operation is staged and not committed. -/
  ready : Bool := false
  /-- An operation of an atomic batch failed (R224). -/
  failed : Bool := false
  /-- Cycle at which COMMIT_WAIT began (R226). -/
  waitSince : Option Nat := none
  /-- Cycle of the latest staging; the batch's number on the rally link and the operations that the follower
  reported staged (R461). -/
  stageSince : Nat := 0
  number : Nat := 0
  peerStaged : Nat := 0
  /-- The base tables of start-up, applied by the firmware (R521). -/
  boot : Bool := false
  deriving DecidableEq, Repr

/-- The Shoilany part of a commit held for the die-to-die link (R227): its sequence point and its changes. -/
structure HeldCommit where
  seq : Nat
  changes : List Staged
  /-- The ingress timestamp of packet `seq`, once it is known (R344). -/
  ts : Option Word := none
  deriving DecidableEq, Repr

/-- A completion that waits for room in its completion ring, with its submission ring (R507). -/
structure TxnReport where
  ring : Nat
  completion : List Byte
  deriving DecidableEq, Repr

/-- Tables, learning and transactions beside their registers (chapter 6). -/
structure TabSt where
  cells : SMap Cell := []
  /-- The place (plus 1) of the entry that holds an exact-match or fast-break way, by location (R195). -/
  ways : SMap Nat := []
  /-- Table generators (R196), and the identity of the next entry. -/
  gens : SMap Word := []
  nextId : Nat := 1
  /-- Earlier values of registers changed by REG_WRITE: the sequence point and the value (R226). -/
  regOld : SMap (Nat × Word) := []
  /-- Counters: packets + 2⁶⁴ × bytes (R208). -/
  counters : SMap Nat := []
  /-- Entries an age walk has still to reach, by exact-match table (R199). -/
  ageWalk : SMap (List Nat) := []
  batch : Option Batch := none
  /-- The submission ring whose turn is next (R506), and the number of the next batch on the rally link. -/
  ringTurn : Nat := 0
  nextBatch : Nat := 0
  report : Option TxnReport := none
  held : List HeldCommit := []
  /-- The sequence point up to which the parse graph's earlier state is held (R226). -/
  parseAt : Option Nat := none
  /-- Latest sequence point by unit, and audit progress by audit (R237): next record, mismatch seen. -/
  unitSeq : SMap Nat := []
  audit : SMap Nat := []
  /-- Age epoch history: epochs with the sequence points they began at (R198). -/
  epochs : List (Nat × Nat) := []
  deriving DecidableEq, Repr

/-! ### Line ports (chapter 10) -/

/-- A frame in a port's receive FIFO (R364): its number, its bytes as the parser sees them, the bytes it has
on the line with its FCS, its pause class, its ingress timestamp, whether its last byte has arrived, whether
it never reaches the parser, whether it entered its pipe, and the bytes that have left for the parser. -/
structure RxFrame where
  fid : Nat
  bytes : List Byte
  raw : List Byte
  size : Nat
  cls : Nat
  ts : Word
  ended : Bool := false
  /-- Dropped whole at a full FIFO (R32), or by MACsec (R379): it occupies no space. -/
  dropped : Bool := false
  /-- A MAC Control frame or a runt, which never reaches the parser (R363, R366). -/
  barred : Bool := false
  oversize : Bool := false
  icvBad : Bool := false
  /-- The MACsec slot and packet number that an accepted frame raises (R379). -/
  sa : Option (Nat × Nat) := none
  entered : Bool := false
  left : Nat := 0
  deriving DecidableEq, Repr

/-- What a received MAC Control frame asks (R366): PAUSE with its quanta, or PFC with its class vector and
quanta per class. -/
inductive PauseReq
  | pause (quanta : Nat)
  | pfc (enables : Nat) (quanta : List Nat)
  deriving DecidableEq, Repr

/-- A line port beside its registers (R364 to R370). -/
structure PortX where
  rx : List RxFrame := []
  /-- Received pause requests not yet reported to the scheduler. -/
  reports : List PauseReq := []
  /-- Cycle until which the whole port and each class is paused, by class; 8 is the port (R366). -/
  pausedUntil : SMap Nat := []
  /-- Cycle of the latest report that changed it, and whether the class was paused before (R329, R366). -/
  pauseAt : SMap (Nat × Bool) := []
  /-- Pause frames that wait for the end of the frame in transmission, with their quanta (R367). -/
  pauseQ : List (Nat × Nat) := []
  /-- Cycle of the latest pause frame sent, by class; 8 is the port (R367). -/
  pauseSent : SMap Nat := []
  /-- Transmit timestamps waiting (R369): type, sequence and timestamp. -/
  tsFifo : List (Nat × Nat × Nat) := []
  deriving DecidableEq, Repr

/-- Line side beside its registers. -/
structure LineSt where
  ports : SMap PortX := []
  /-- The state of a frame's checks by frame number: 1 not yet known, 2 failed; unlisted good (R29). -/
  frames : SMap Nat := []
  nextFid : Nat := 1
  /-- MACsec transmit or receive slots whose MACSEC_PN event was posted (R380). -/
  pnPosted : SMap Bool := []
  deriving DecidableEq, Repr

/-! ### TCAM and tree classifier (chapter 7) -/

/-- One row segment of a TCAM entry (R248, R256): value and care mask, whether the segment was written, and at
the first block of a chain priority, data and state (0 FREE, 1 STAGED, 2 LIVE, 3 LIVE_DEL, 4 ADDED,
5 REMOVED); whether the scrub killed its row; and what the block's parity shadow holds of it (R260). -/
structure TcamEnt where
  v : Nat := 0
  c : Nat := 0
  set : Bool := false
  p : Nat := 0
  d : Nat := 0
  state : Nat := 0
  killed : Bool := false
  parity : Nat := 0
  deriving DecidableEq, Repr

/-- One entry of a classifier table's pending list (R271): a leaf slot by relative line and slot that becomes
visible or invisible, or a tree's new root with its old one; and whether the change was committed. -/
inductive PendItem
  | slot (line k : Nat) (add committed : Bool)
  | root (tree : Nat) (old new : Word) (committed : Bool)
  deriving DecidableEq, Repr

/-- TCAM and classifier beside their registers (chapter 7). -/
structure ClsSt where
  /-- Segments by block × 4,096 + position. -/
  tcam : SMap TcamEnt := []
  /-- Rows killed since the start, by block × 2,048 + row, and the row the scrub reads next (R260). -/
  rowKills : SMap Nat := []
  scrubRow : Nat := 0
  /-- Cycle of the scrub's latest row read. -/
  scrubAt : Nat := 0
  /-- Node words by line × 8 + word, and rule bytes by body × 128 + byte (R267, R268). -/
  nodes : SMap Word := []
  rules : Memory := []
  pend : SMap (List PendItem) := []
  deriving DecidableEq, Repr

/-! ### Policers (chapter 9) -/

/-- A data or exception policer (R340, R343, R347): its record, its levels, its last boundary, its counts
(green, yellow, red, or passed and refused), WRITEs not yet applied with their sequence points and, once
packet S is known, their boundaries, and each record replaced with the boundary that replaced it, the latest first. -/
structure Policer where
  cfg : Nat := 0
  lvl0 : Nat := 0
  lvl1 : Nat := 0
  last : Nat := 0
  cnt0 : BitVec 32 := 0
  cnt1 : BitVec 32 := 0
  cnt2 : BitVec 32 := 0
  pend : List (Nat × Nat × Option Nat) := []
  prevs : List (Nat × Nat) := []
  deriving DecidableEq, Repr

/-! ### Twin operation (chapter 12) -/

/-- A rally lane beside its register (R450, R396): the cycle its state began, consecutive good and bad frames,
HELLOs with ack received in succession, whether a valid HELLO was received and one with ack sent, the cycle + 1 of
the latest HELLO sent, and the HELLOs received and not yet acted on. -/
structure RallyLane where
  since : Nat := 0
  good : Nat := 0
  bad : Nat := 0
  acks : Nat := 0
  heard : Bool := false
  ackSent : Bool := false
  helloAt : Nat := 0
  hello : List (List Byte) := []
  deriving DecidableEq, Repr

/-- An injected packet forwarded by the source (R454): its number, ring, descriptor fields and bytes. -/
structure RallyInj where
  seq : Nat
  mode : Nat
  dp : Nat
  target : Nat
  prog : List Byte
  bytes : List Byte
  deriving DecidableEq, Repr

/-- A frame that the receive FIFO of a device in step dropped, and whose DROPPED entry has not come to the follower
(R457) or has not been logged by the source (R455). -/
structure OwnDrop where
  mac : Nat
  fid : Nat
  len : Nat
  ts : Word
  deriving DecidableEq, Repr

/-- One entry of the copy (R467): the entry at a place of a table; a half of a TCAM position of a block; half a node
line and a quarter of a rule of a classifier table; a register by its offset; a table generator; a queue's, a node's, a
shaper's or a policer's record; and a gate list's entry and control record (0 administrative, 1 operational,
2 pending). -/
inductive CopyItem
  | cell (k : Nat)
  | tcam (block pos half : Nat)
  | node (table line half : Nat)
  | rule (table rule quarter : Nat)
  | reg (off : Nat)
  | gen (table : Nat)
  | queue (q : Nat)
  | sched (key : Nat)
  | shaper (n : Nat)
  | policer (k : Nat)
  | gateEntry (p e sel : Nat)
  | gateCtrl (p sel : Nat)
  deriving DecidableEq, Repr

/-- Twin logic beside its registers. -/
structure TwinSt where
  /-- The rally link (R450 to R454): its lanes, whether it is up, the cycle of the latest good frame, and the lane
  used last. -/
  lanes : SMap RallyLane := []
  linkUp : Bool := false
  goodAt : Nat := 0
  lanePtr : Nat := 7
  /-- The number of the next data frame, the frames kept for replay with their payload, the partner's ack and the
  cycle it advanced. -/
  txSeq : Nat := 1
  replay : List (Nat × List Byte) := []
  acked : Nat := 0
  ackAt : Nat := 0
  /-- Cycle of the latest TIME record sent (R459). -/
  timeAt : Nat := 0
  /-- The next frame in order, frames received ahead of it, and the words of the stream not yet consumed. -/
  rxNext : Nat := 1
  rxAhead : SMap (List Nat) := []
  rx : List Nat := []
  /-- The PKT record the source has open (R455): base_seq, base_tick and its entry words. -/
  pkt : Option (Nat × Nat × List Nat) := none
  /-- Words of the PKT record at the head of the received stream that were consumed, and numbers they took. -/
  pktPos : Nat := 0
  pktCount : Nat := 0
  /-- The partner's latest HELLO (R452): its flags and its step_ids. -/
  partner : Option (Nat × List Nat) := none
  /-- The step of STARTING (R466): 1 HELLO, 2 RESYNC, 3 JOIN with the line input held, 4 JOIN received. -/
  phase : Nat := 0
  /-- The device held the serve last of the two (R464). -/
  heldLast : Bool := false
  /-- What the source's copy has still to send, once it has begun; and what a device that is resynchronised has received
  of it or committed since (R467). -/
  copyQ : Option (List CopyItem) := none
  copySeen : List CopyItem := []
  /-- From HOLDING to JOIN at the source: the cycle from which J is chosen, and T_join (R468). -/
  joinWait : Option (Nat × Nat) := none
  joinT : Nat := 0
  /-- The first number in the folds, and later numbers that were skipped (R463, R468). -/
  foldFrom : Nat := 0
  skipped : List Nat := []
  /-- Folds of windows not yet closed, by window number (R463), and the next window to close. -/
  folds : SMap Word := []
  nextWindow : Nat := 0
  /-- Folds of closed windows, and folds the source sent, that were not compared. -/
  ownFolds : SMap Word := []
  peerFolds : SMap Word := []
  /-- Injected packets that wait for their entry, and frames the follower dropped. -/
  injects : List RallyInj := []
  ownDrops : List OwnDrop := []
  /-- Frames the source dropped at a receive FIFO whose DROPPED entry waits for the entries of earlier frames of the
  same MAC (R455). -/
  srcDrops : List OwnDrop := []
  /-- In-step operation was left with RALLY_LOST or SERVE_LOST and has not since restarted (R472). -/
  leftReady : Bool := false
  /-- A handover is under way since this cycle, and H (R469). -/
  handAt : Nat := 0
  handSeq : Nat := 0
  /-- The epoch of the latest PEER and the cycle it came (R477). -/
  peerEpoch : Nat := 0
  peerAt : Nat := 0
  /-- The cycle at which the lease counter reaches zero (R473), and of the latest HEARTBEAT (R471). -/
  leaseEnd : Nat := 0
  beatAt : Nat := 0
  deriving DecidableEq, Repr

/-! ### Queues and the packet buffer (chapter 8) -/

/-- One cell of a queue (R281, R282): the packet it belongs to (its number in the queue), its index in the packet, its
number in the buffer while it is on die, and its cell tag. A list of cells keeps the order of their links. -/
structure QCell where
  pkt : Nat
  idx : Nat
  cell : Nat
  tag : Nat := 0
  deriving DecidableEq, Repr

/-- A cell (R386): its header fields and its payload; for a pair cell on lanes that face endpoints the twins
still to be served (R395), and the trace and the packet it belongs to. -/
structure FCell where
  kind : Nat
  dst : Nat := 0
  pair : Bool := false
  src : Nat := 0
  void : Bool := false
  tag : Bool := false
  pkt : Nat := 0
  idx : Nat := 0
  len : Nat := 0
  port : Nat := 0
  cls : Nat := 0
  dp : Nat := 0
  srcPair : Bool := false
  payload : List Byte := []
  /-- Twins already served by a copy: 1 the even one, 2 the odd one. -/
  served : Nat := 0
  trace : Nat := 0
  last : Bool := false
  /-- The packet took the fast-break path (R177). -/
  fbk : Bool := false
  deriving DecidableEq, Repr

/-- A packet in a queue, of stored length `len` with its FCS (R282): how many of its cells have left (R287),
the channel of its first spilled cell, and whether a gate held it at least once (R354). -/
structure QPkt where
  id : Nat
  a : AdmPkt
  len : Nat
  sent : Nat := 0
  /-- It was admitted to an empty VOQ that held credit (R287); it was sent before its checks were known (R29). -/
  ct : Bool := false
  cut : Bool := false
  held : Bool := false
  /-- A block holds or held cells of it (R581, SPILL). -/
  spilled : Bool := false
  /-- The header its cells carry, once a VOQ began to send it. -/
  hdr : Option FCell := none
  deriving DecidableEq, Repr

/-- A block address (R288): the data channel, the block within it and the mirror channel. -/
structure BlockAt where
  chan : Nat
  num : Nat
  mirror : Nat
  deriving DecidableEq, Repr

/-- A spill block of a queue (R288, R289, R292): its address, its cells, its record (the tags of its cells and the
addresses of the blocks that follow), and its stage: 0 write pending, 1 written, 2 read pending, 3 read and waiting for
earlier blocks, 4 mirror record read pending. -/
structure SBlock extends BlockAt where
  cells : List QCell
  tags : List Nat := []
  next : List Nat := []
  void : Bool := false
  stage : Nat := 0
  /-- Its data cannot be read: its channel froze (R294). -/
  bad : Bool := false
  mirrorBad : Bool := false
  /-- Its number went back to the free list when its channel was released (R296). -/
  released : Bool := false
  deriving DecidableEq, Repr

/-- A queue (R285 to R302): its configuration with at most one earlier one and the sequence point of the
change, its lifecycle, its packets and cells, its spill context, and for a VOQ its credit balance (R330),
the cycle since which it has been empty with a balance above zero (R332) and of its latest REQUEST (R391). -/
structure Queue where
  cfg : Nat := 0
  cfgOld : Option (Nat × Nat) := none
  state : Nat := 0
  stop : Bool := false
  restart : Bool := false
  /-- Sequence point of the WRITE that began STOPPING (R301). -/
  stopAt : Nat := 0
  avg : Nat := 0
  offered : Nat := 0
  depth : Nat := 0
  count : Nat := 0
  pkts : List QPkt := []
  nextId : Nat := 0
  head : List QCell := []
  tail : List QCell := []
  blocks : List SBlock := []
  /-- Of a queue that holds a spill context (R290): the preallocated list, the addresses known of middle blocks that no
  read was issued for, and the channel it allocates from next (R291). -/
  ctx : Option (List BlockAt) := none
  ahead : List BlockAt := []
  nextChan : Nat := 0
  balance : Int := 0
  emptySince : Option Nat := none
  requestAt : Nat := 0
  deriving DecidableEq, Repr

/-! ### The egress hierarchy, shapers and time gates (chapter 9) -/

/-- A node of the hierarchy (R323, R326): its record, its deficit, and the child served last by group and
priority (plus 1). -/
structure SchedNode where
  cfg : Nat := 0
  deficit : Int := 0
  ptr : SMap Nat := []
  deriving DecidableEq, Repr

/-- A shaper (R335 to R337): its record, its levels in 1/256 byte, and a change that waits for its boundary
with the cycle of its arrival. -/
structure Shaper where
  cfg : Nat := 0
  com : Int := 0
  peak : Int := 0
  pend : Option (Nat × Nat) := none
  deriving DecidableEq, Repr

/-- A gate control list (R352): base, cycle_ticks, and entries (gate state, interval). -/
structure GateList where
  base : Nat := 0
  cycleTicks : Nat := 0
  entries : List (Nat × Nat) := []
  deriving DecidableEq, Repr

/-- The lists of a port (R356, R357): the administrative entries and control record, the operational list with
its control record and switch tick, and the pending list with its own. -/
structure GatePort where
  adm : SMap (Nat × Nat) := []
  ctrl : Nat := 0
  oper : GateList := {}
  operT : Nat := 0
  pend : Option (GateList × Nat) := none
  deriving DecidableEq, Repr

/-! ### The fabric (chapter 10) -/

/-- A fabric lane beside its registers (R387, R393 to R396). -/
structure Lane where
  /-- Cells handed to the lane and not yet sent (R396). -/
  tx : List FCell := []
  /-- Cycle at which its state began; whether FAB_LANE was posted for this SIGNAL. -/
  since : Nat := 0
  posted : Bool := false
  /-- Consecutive good and bad header checks. -/
  good : Nat := 0
  bad : Nat := 0
  /-- HELLOs with ack received in succession; whether a valid HELLO was received, and one with ack sent. -/
  acks : Nat := 0
  heard : Bool := false
  ackSent : Bool := false
  helloAt : Nat := 0
  statusAt : Nat := 0
  reachAt : Option Nat := none
  /-- A lane enabled while STOPPING starts again (R370). -/
  restart : Bool := false
  /-- Link messages received and not yet acted on, each with the cells of its priority received before it. -/
  link : List (Nat × Nat) := []
  /-- Credits the partner offers, and by priority (0 data, 1 control) the cells sent and the partner's latest
  CREDIT; for the receive side the cells received and those freed (R395). -/
  offer0 : Nat := 0
  offer1 : Nat := 0
  sent0 : Nat := 0
  sent1 : Nat := 0
  credit0 : Nat := 0
  credit1 : Nat := 0
  recv0 : Nat := 0
  recv1 : Nat := 0
  freed0 : Nat := 0
  freed1 : Nat := 0
  /-- Cells that the sender's latest SYNC showed as sent and that never came (R395). -/
  lost0 : Nat := 0
  lost1 : Nat := 0
  /-- Data cells in its receive FIFO that came before these counts began. -/
  old : Nat := 0
  reach : Nat := 0
  deriving DecidableEq, Repr

/-- A flow of the egress flow table (R392): its estimate in bytes and the cycle since which it has been zero. -/
structure Flow where
  src : Nat
  sys : Nat
  cls : Nat
  pair : Bool
  est : Nat
  zeroSince : Nat
  deriving DecidableEq, Repr

/-- A port's grant budget in 1/64 bit as of a cycle (R392), and the source served last by class (plus 1). -/
structure Budget where
  level : Nat := 0
  at' : Nat := 0
  last : SMap Nat := []
  deriving DecidableEq, Repr

/-- A reassembly context (R397): its first cell's header, the cells present with the bank of each, and its
creation. -/
structure Reasm where
  hdr : FCell
  cells : SMap (List Byte × Nat) := []
  void : Bool := false
  bad : Bool := false
  since : Nat
  deriving DecidableEq, Repr

/-- A frame selected on a port, on its way through the final edit to the line MAC (R328, R365). -/
structure TxFrame where
  a : AdmPkt
  start : Nat
  badEnd : Bool := false
  /-- Every byte has left its queue. -/
  whole : Bool := true
  id : Nat := 0
  queue : Nat := 0
  deriving DecidableEq, Repr

/-- Shoilany's traffic manager and fabric beside their registers (chapters 8 to 10). -/
structure TmSt where
  queues : SMap Queue := []
  /-- Rows in use by bank, and the bank of the latest allocation (R283); uncorrectable errors met since the start by
  bank × 4,096 + row (R284). -/
  bankRows : SMap (List Nat) := []
  bankPtr : Nat := 255
  rowUes : SMap Nat := []
  /-- Spill blocks allocated on each channel of stacks 0-3: block, mirror channel, and whether it is held (R291, R296). -/
  spill : SMap (List (Nat × Nat × Bool)) := []
  /-- Watermark instances whose level a change in this cycle may have moved (R305). -/
  wmDirty : List Nat := []
  /-- Nodes by level × 65,536 + node. -/
  nodes : SMap SchedNode := []
  shapers : SMap Shaper := []
  /-- Refill boundaries applied so far: the number of the next one (R335). -/
  refillNext : Nat := 1
  gates : SMap GatePort := []
  /-- The frame in a port's transmit path, by port (R328). -/
  tx : SMap (Option TxFrame) := []
  /-- VOQ served last by priority, plus 1 (R331). -/
  lastVoq : SMap Nat := []
  /-- Packet numbers by destination × 2 + pair (R386). -/
  pktNo : SMap Nat := []
  /-- Framer queues of data and control cells (R393), the pointer over the lanes, and last cells that await
  the checks of the frame they came in (R29), by frame number. -/
  dataQ : List FCell := []
  ctrlQ : List FCell := []
  lanePtr : Nat := 319
  tails : List (Nat × FCell) := []
  /-- Messages waiting for a control cell by destination × 2 + pair: the cycle of the first, and them (R390). -/
  msgs : SMap (Nat × List Nat) := []
  lanes : SMap Lane := []
  /-- Accepted data cells with the lane they came over, and control messages with their source and src_pair,
  in the order received. -/
  rxData : List (Nat × FCell) := []
  rxMsgs : List (Nat × Bool × Nat) := []
  /-- Lane and tick of the first cell of a tagged packet, by trace (R581). -/
  fabOut : SMap (Nat × Nat) := []
  flows : List Flow := []
  budgets : SMap Budget := []
  reasm : List Reasm := []
  deriving DecidableEq, Repr

/-! ### HBM controllers (chapter 11) -/

/-- A request (R407, R412, R413, R415): its maker's tag, the class it came with and the one it has now, its first granule
and how many it takes, the bytes it writes (none for a read), its arrival and its place in it, whether it is the
groundskeeper's scrub, whether it was promoted, and the number of its choice (0 while it was not chosen). -/
structure HReq where
  tag : Nat
  home : Nat
  cls : Nat
  gran : Nat
  n : Nat := 1
  wdata : Option (List Byte)
  at' : Nat
  id : Nat
  scrub : Bool := false
  /-- The queue whose block transfer it is (R292, R293). -/
  queue : Option Nat := none
  /-- Granules of a read answered from older writes, with their bytes (R415). -/
  fwd : List (Nat × List Byte) := []
  promoted : Bool := false
  turn : Nat := 0
  deriving DecidableEq, Repr

/-- A bank of a pseudo-channel (R419 to R422): its open row, its predictor, the row and the cycle of its latest
access, its rolling activation count and its postponed refreshes. -/
structure HBank where
  row : Option Nat := none
  pred : Nat := 2
  last : Option Nat := none
  lastAt : Nat := 0
  acts : Nat := 0
  postponed : Nat := 0
  deriving DecidableEq, Repr

/-- A command issued to a stack (R444), with the granule it serves and the cycle of its issue. -/
structure HCmd where
  cmd : Nat
  cls : Nat := 3
  bank : Nat
  row : Nat := 0
  col : Nat := 0
  gran : Option Nat := none
  at' : Nat := 0
  deriving DecidableEq, Repr

/-- A training command under way (R440): its code, pseudo-channel, pattern and bursts, and whether the training area was
saved for it by a write of TRAIN_CTRL (R424). -/
structure TrainCmd where
  cmd : Nat
  pc : Nat := 0
  pattern : Nat := 0
  bursts : Nat := 0
  saved : Bool := false
  deriving DecidableEq, Repr

/-- An HBM controller beside its registers. -/
structure HChan where
  /-- The pending queue in arrival order, requests that wait at the input, and the choices made so far. -/
  queue : List HReq := []
  input : List HReq := []
  turns : Nat := 0
  /-- Requests that have come so far. -/
  arrived : Nat := 0
  banks : SMap HBank := []
  /-- The last 64 commands, latest first. -/
  cmds : List HCmd := []
  /-- STOPPING or STARTING belongs to a release (R430). -/
  releasing : Bool := false
  /-- Cycle + 1 at which the channel was paused for retraining (R426), of its last oscillator check, and the stack
  temperature at which it was last trained, in 0.125 °C. -/
  pausedAt : Nat := 0
  oscAt : Nat := 0
  trainedTemp : Int := 0
  /-- Delays and references by command, pseudo-channel and lane (R440), and the command under way. -/
  settings : SMap Nat := []
  cmdRunning : Option TrainCmd := none
  /-- What the patterns made of the training area while the save buffer holds its data (R424). -/
  save : Option (List Byte) := none
  deriving DecidableEq, Repr

/-- The HBM of the device: controllers by stack × 32 + channel, what each stack reported over its IEEE 1500 port, and stack
contents by controller × 2³⁰ + address. -/
structure HbmSt where
  chans : SMap HChan := []
  reports : SMap HbmStack := []
  mem : Memory := []
  /-- By controller × 2²⁴ + granule, what a unit held there when a request wrote the granule: the model's own field. -/
  snaps : SMap (List Nat) := []
  deriving DecidableEq, Repr

/-! ### The whole machine -/

/-- The state of the device. -/
structure State where
  /-- The commands waiting, first in first out: the model's own field, not the spec's. -/
  pending : List Instr := []
  /-- CLK_CORE cycles (0.5 ns) that have passed, never stepped: the model's own measure of elapsed time. -/
  cycle : Nat := 0
  /-- Argument of the next free value: the model's own field, not the spec's. -/
  freeCount : Nat := 0
  /-- What the device has sent, newest first: the model's own record of its outputs. -/
  out : List Output := []
  /-- The registers of BAR0 by offset; one not listed holds its reset value (R11). -/
  regs : SMap Word := []
  host : HostSt := {}
  flash : Flash := {}
  /-- Security version in the fuses (R560). -/
  fused : Nat := 0
  boot : BootSt := {}
  mgmt : MgmtSt := {}
  cnt : CntSt := {}
  pwr : PowerSt := {}
  d2d : D2dSt := {}
  fpc : FpcSt := {}
  tab : TabSt := {}
  line : LineSt := {}
  cls : ClsSt := {}
  pols : SMap Policer := []
  twin : TwinSt := {}
  adm : List AdmPkt := []
  tm : TmSt := {}
  hbm : HbmSt := {}
  deriving DecidableEq, Repr

/-- The machine right after a power-on reset: every register at its reset value (R11), every memory,
FIFO and queue empty, every function OFF (R615), device time zero (R598). DESIGN CHOICE, log entries 3, 14, 66. -/
def State.reset : State := {}

end Sys2Proof.Machine
end

