-- ==== Sys2Proof/Machine/Ops.lean ====
section
/-! DEFINITION. The named operations every command is built from: reading and writing the register
store, sending outputs, rings and messages, events and the log, access errors, counters and the shared
function lifecycle. -/

namespace Sys2Proof.Machine

/-- The outcome of a command: every meaning answers one of these. -/
abbrev Res := Host.Outcome State Fault Refusal

/-! ### Small helpers of the meanings -/

/-- A meaning that always goes on. -/
def go (s : State) : Res := .next s

/-- `f` where the condition holds, else the state unchanged. DESIGN CHOICE, log entry 2. -/
def State.when (s : State) (c : Bool) (f : State → State) : State := if c then f s else s

/-- Numbers from `a` on. -/
def numbersFrom (a n : Nat) : List Nat := (List.range n).map (a + ·)

/-- A state change applied for each element of a list in turn. -/
def State.each {α : Type} (s : State) (l : List α) (f : State → α → State) : State := l.foldl f s

/-! ### The register store -/

/-- The stored word of a register (R11 where it was never written). DEDUCED, log entry 11. -/
def State.rd (s : State) (r : Reg) (ix : List Nat) : Word :=
  SMap.get (r.resetValue ix) s.regs (r.addr ix)

/-- Store a register's word; the reset value is not listed. DEDUCED, log entry 11. -/
def State.wr (s : State) (r : Reg) (ix : List Nat) (v : Word) : State :=
  { s with regs := SMap.put (r.resetValue ix) s.regs (r.addr ix) v }

/-- The value of a register's field. -/
def State.fld (s : State) (r : Reg) (ix : List Nat) (f : Fld) : Nat := f.get (s.rd r ix)

/-- Whether a one-bit field is 1. -/
def State.flag (s : State) (r : Reg) (ix : List Nat) (f : Fld) : Bool := s.fld r ix f == 1

/-- Hardware sets a register's field. -/
def State.setFld (s : State) (r : Reg) (ix : List Nat) (f : Fld) (v : Nat) : State :=
  s.wr r ix (f.set (s.rd r ix) v)

/-- Hardware sets a one-bit field. -/
def State.setFlag (s : State) (r : Reg) (ix : List Nat) (f : Fld) (b : Bool) : State :=
  s.setFld r ix f (if b then 1 else 0)

/-- Hardware adds to a counter field that saturates (R12). -/
def State.addSat (s : State) (r : Reg) (ix : List Nat) (f : Fld) (n : Nat) : State :=
  s.setFld r ix f (min (s.fld r ix f + n) (2 ^ f.width - 1))

/-- Hardware adds to a counter field that wraps (R12). -/
def State.addWrap (s : State) (r : Reg) (ix : List Nat) (f : Fld) (n : Nat) : State :=
  s.setFld r ix f (s.fld r ix f + n)

/-- A two's-complement field of a register as an integer. -/
def State.sfld (s : State) (r : Reg) (ix : List Nat) (f : Fld) : Int :=
  let v := s.fld r ix f
  if v < 2 ^ (f.width - 1) then (v : Int) else (v : Int) - 2 ^ f.width

/-! ### Outputs, free values and elapsed time -/

/-- Something leaves the device. DESIGN CHOICE, log entry 17. -/
def State.emit (s : State) (o : Output) : State := { s with out := o :: s.out }

/-- A value the spec leaves open, and the state that will answer another one next. DESIGN CHOICE, log entry 4. -/
def State.free (s : State) : Word × State :=
  (Config.freeValue s.freeCount, { s with freeCount := s.freeCount + 1 })

/-- CLK_CORE cycles in one microsecond (R595). -/
def cyclesPerUs : Nat := 2000

/-- Whether `n` CLK_CORE cycles have passed since the cycle `since`. -/
def State.passed (s : State) (since n : Nat) : Bool := decide (since + n ≤ s.cycle)

/-- Powered seconds now (R538): those of the lifetime record and those since it was brought up to date. -/
def State.poweredS (s : State) : Nat :=
  s.mgmt.life.poweredS + (s.cycle - s.mgmt.lifeAt) / 2000000000

/-- Whether a power domain is ON (R614). -/
def State.pdOn (s : State) (n : Nat) : Bool := s.fld .cpr_PD_STATUS [n] f_cpr_PD_STATUS_state == 2

/-- TAI in ticks since the PTP epoch (R602). -/
def State.tai (s : State) : Nat := (s.pwr.time + s.rd .cpr_TAI_OFFSET []).toNat

/-- TAI seconds while calendar time is known (R539): from SET_TIME, or from device time locked to PTP. -/
def State.calendarNow (s : State) : Option Nat :=
  match s.mgmt.calendar with
  | some (t, c) => some (t + (s.cycle - c) / 2000000000)
  | none =>
    if s.flag .cpr_TIME_CFG [] f_cpr_TIME_CFG_tai_valid && s.fld .cpr_TIME_CFG [] f_cpr_TIME_CFG_src == 1
    then some (s.tai / 2000000000) else none

/-! ### MSI-X messages and rings (R496 to R501) -/

/-- The key of a function in the MSI-X tables: PF0-PF3 as 0-3, VF v as 3 + v. -/
def fnKey : Fn → Nat
  | .pf i => i.val
  | .vf v => 3 + v.val

/-- A vector's message: sent, or its Pending Bit set while the vector is masked (R499). PRESUMED, log entry 10. -/
def State.sendMsix (s : State) (fn : Fn) (vec : Nat) : State :=
  let k := fnKey fn * 4096 + vec
  let e := SMap.get {} s.host.msix k
  if e.masked then
    { s with host := { s.host with msix := SMap.put {} s.host.msix k { e with pend := true } } }
  else s.emit (.msix fn vec e.addr e.data)

/-- The VF a punt ring (0-1,023) or inject ring is assigned to and its number within the VF (R502). -/
def State.vfOf (s : State) (i : Nat) (base count : Fld) : Option (Nat × Nat) :=
  (List.range 63).findSome? fun v =>
    let b := s.fld .pci_VF_RINGS [v] base
    let n := s.fld .pci_VF_RINGS [v] count
    if b ≤ i ∧ i < b + n then some (v + 1, i - b) else none

/-- The function that owns a ring and the vector of its message (R496, R501). -/
def State.ringOwner (s : State) (r : Nat) : Fn × Nat :=
  if r < 16 then (.pf 0, 0)
  else if r < 32 then (.pf 0, r - 16)
  else if r < 42 then (.pf 0, r - 16)
  else if r < 64 then (.pf 3, r - 42)
  else if r < 1088 then
    match s.vfOf (r - 64) f_pci_VF_RINGS_punt_base f_pci_VF_RINGS_punt_count with
    | some (v, i) => (.vf (Fin.ofNat 64 v), i)
    | none => (.pf 1, r - 64)
  else
    match s.vfOf (r - 1088) f_pci_VF_RINGS_inject_base f_pci_VF_RINGS_inject_count with
    | some (v, i) => (.vf (Fin.ofNat 64 v), 64 + i)
    | none => (.pf 1, 1024 + (r - 1088))

/-- Whether the host writes descriptors to a ring (R496). -/
def hostPosted (r : Nat) : Bool := decide (r < 16) || r == 42 || decide (64 ≤ r)

/-- Whether the ring exists (R496). -/
def ringUsed (r : Nat) : Bool := decide (r < 44) || (decide (64 ≤ r) && decide (r < 2112))

/-- Whether a ring's kind produces interrupts (R499). -/
def ringInterrupts (r : Nat) : Bool := decide (16 ≤ r) && r != 42

/-- The entry count of a ring (R497, R500). -/
def State.ringSize (s : State) (r : Nat) : Nat :=
  2 ^ (max 6 (min 16 (s.fld .pci_RING_CFG [r] f_pci_RING_CFG_size_log2)))

/-- PIDX and the other index of a ring, and its state. -/
def State.ringPidx (s : State) (r : Nat) : Nat := s.fld .pci_RING_PIDX [r] f_pci_RING_PIDX_pidx
def State.ringCidx (s : State) (r : Nat) : Nat := s.fld .pci_RING_CIDX [r] f_pci_RING_CIDX_index
def State.ringState (s : State) (r : Nat) : Nat := s.fld .pci_RING_STATUS [r] f_pci_RING_STATUS_state
def State.ringErr (s : State) (r : Nat) : Nat := s.fld .pci_RING_STATUS [r] f_pci_RING_STATUS_err_code

/-- A ring is ON and takes work: it does not rest before a stop that is pending (R503, R620). -/
def State.ringWorks (s : State) (r : Nat) : Bool :=
  s.ringState r == 2 && !s.flag .pci_RING_STATUS [r] f_pci_RING_STATUS_stop_pending

/-- Entries between the two indices, modulo 2³² (R497). -/
def State.ringFill (s : State) (r : Nat) : Nat :=
  (s.ringPidx r + 2 ^ 32 - s.ringCidx r) % 2 ^ 32

/-- The host address of entry `n` of a ring (R497). -/
def State.ringEntryAddr (s : State) (r n : Nat) : Word :=
  BitVec.ofNat 64 (s.fld .pci_RING_BASE [r] f_pci_RING_BASE_base * 4096 + 64 * (n % s.ringSize r))

/-- A write of the device to host memory for a ring; the writes of a function under a Function Level
Reset are discarded (R504). -/
def State.ringWrite (s : State) (r : Nat) (addr : Word) (data : List Byte) : State :=
  if s.ringErr r == 3 then s else s.emit (.hostWrite (s.ringOwner r).1 addr data)

/-- The write-back of a ring's device-side index (R498, R500). -/
def State.ringWriteBack (s : State) (r idx : Nat) : State :=
  if s.flag .pci_RING_WB [r] f_pci_RING_WB_wb_en then
    s.ringWrite r (BitVec.ofNat 64 (s.fld .pci_RING_WB [r] f_pci_RING_WB_wb_addr * 8)) (natLE 8 idx)
  else s

/-- The bookkeeping of a ring changed. -/
def State.modRingx (s : State) (r : Nat) (f : RingX → RingX) : State :=
  { s with host := { s.host with ringx := SMap.modify {} s.host.ringx r f } }

/-- One entry more towards the ring's next message, which is sent at coal_count entries (R499). -/
def State.ringCoalesce (s : State) (r : Nat) : State :=
  if ringInterrupts r && s.ringErr r != 3 then
    let x := SMap.get {} s.host.ringx r
    let n := max 1 (s.fld .pci_RING_CFG [r] f_pci_RING_CFG_coal_count)
    if n ≤ x.coal + 1 then
      let (fn, vec) := s.ringOwner r
      (s.modRingx r fun x => { x with coal := 0 }).sendMsix fn vec
    else
      s.modRingx r fun x =>
        { x with coal := x.coal + 1, coalSince := if x.coal = 0 then s.cycle else x.coalSince }
  else s

/-- A device-written ring has room for a record and is ON (R497, R503). DEDUCED, log entry 13. -/
def State.ringRoom (s : State) (r : Nat) : Bool :=
  s.ringWorks r && decide (s.ringFill r < s.ringSize r)

/-- A record for a device-written ring: written at PIDX, or lost and counted in drops (R497, R498).
DEDUCED, log entry 13. -/
def State.ringPut (s : State) (r : Nat) (entry : List Byte) : State :=
  if s.ringRoom r then
    let p := s.ringPidx r
    let q := (p + 1) % 2 ^ 32
    let s := s.ringWrite r (s.ringEntryAddr r p) entry
    let s := s.setFld .pci_RING_PIDX [r] f_pci_RING_PIDX_pidx q
    (s.ringWriteBack r q).ringCoalesce r
  else s.addSat .pci_RING_STATUS [r] f_pci_RING_STATUS_drops 1

/-- The next descriptor of a host-posted ring completes: DONE advances (R497, R498). -/
def State.ringDone (s : State) (r : Nat) : State :=
  let q := (s.ringCidx r + 1) % 2 ^ 32
  let s := s.setFld .pci_RING_CIDX [r] f_pci_RING_CIDX_index q
  (s.ringWriteBack r q).ringCoalesce r

/-! ### The log and events (R510, R511, R536) -/

/-- The severity of an event (R537, R565); other chapters give none. DESIGN CHOICE, log entry 12. -/
def eventSeverity (code : Nat) : Nat :=
  if code = 0x100 ∨ code = 0x130 ∨ code = 0x131 ∨ code = 0x181 ∨ code = 0x184 then 1
  else if code = 0x120 ∨ code = 0x121 ∨ code = 0x180 ∨ code = 0x182 ∨ code = 0x185 ∨ code = 0x186 ∨
    code = 0x188 ∨ code = 0x189 ∨ code = 0x18B then 2
  else if code = 0x110 ∨ code = 0x112 ∨ code = 0x140 ∨ code = 0x183 then 3
  else if code = 0x101 ∨ code = 0x111 ∨ code = 0x122 ∨ code = 0x187 ∨ code = 0x18A then 4
  else if code = 0x102 then 5
  else Config.eventSeverity code % 6

/-- An entry written to the log: the on-die ring keeps the latest 8,192, and an entry of severity NOTICE
or higher waits for flash (R536). DESIGN CHOICE, log entry 12. -/
def State.logPut (s : State) (code severity : Nat) (loc addr : Word) (data : List Byte) : State :=
  let life := s.mgmt.life
  let e : LogEntry :=
    { seq := life.logSeq, code, severity, calKnown := s.calendarNow.isSome, lifeS := s.poweredS,
      taiS := s.calendarNow.getD 0, loc, addr, data := padTo 24 data }
  let l := s.mgmt.log ++ [e]
  { s with mgmt := { s.mgmt with
      log := if 8192 < l.length then l.drop 1 else l
      logWait := if 2 ≤ severity then s.mgmt.logWait ++ [e] else s.mgmt.logWait
      life := { life with logSeq := life.logSeq + 1 } } }

/-- The bytes of a log entry (R536). -/
def LogEntry.bytes (e : LogEntry) : List Byte :=
  natLE 4 e.seq ++ natLE 2 e.code ++ natLE 1 e.severity ++ natLE 1 (if e.calKnown then 1 else 0) ++
    natLE 8 e.lifeS ++ natLE 8 e.taiS ++ natLE 8 e.loc.toNat ++ natLE 8 e.addr.toNat ++ padTo 24 e.data

/-- The bytes of an event record (R510). DESIGN CHOICE, log entry 12. -/
def eventBytes (code lostBefore eseq : Nat) (time loc addr : Word) (data : List Byte) : List Byte :=
  natLE 2 code ++ natLE 2 (min lostBefore 0xFFFF) ++ natLE 4 eseq ++ natLE 8 time.toNat ++
    natLE 8 loc.toNat ++ natLE 8 addr.toNat ++ padTo 32 data

/-- An event is posted: it takes the next eseq, is written to the event ring its route names or is lost
and counted, and enters the log; a route that is disabled posts nothing (R510, R511, R536). -/
def State.postEventAt (s : State) (code : Nat) (loc addr : Word) (data : List Byte) : State :=
  if s.flag .glb_EVT_ROUTE [code] f_glb_EVT_ROUTE_enable then
    let r := 34 + s.fld .glb_EVT_ROUTE [code] f_glb_EVT_ROUTE_ring
    let n := s.host.eseq
    let lost := (SMap.get {} s.host.ringx r).lostBefore
    let room := s.ringRoom r
    let full := s.ringWorks r && !room
    let s := { s with host := { s.host with eseq := (n + 1) % 2 ^ 32 } }
    let s := s.ringPut r (eventBytes code lost n s.pwr.time loc addr data)
    let s := s.modRingx r fun x =>
      { x with lostBefore := if room then 0 else if full then min 0xFFFF (x.lostBefore + 1) else x.lostBefore }
    s.logPut code (eventSeverity code) loc addr data
  else s

/-- An event without a location (R510). DESIGN CHOICE, log entry 12. -/
def State.postEvent (s : State) (code : Nat) (data : List Byte) : State := s.postEventAt code 0 0 data

/-- The location word of an error report (R22). -/
def locWord (found contained die cluster cls idx mac word bit : Nat) : Word :=
  BitVec.ofNat 64 (found * 2 ^ 61 + contained * 2 ^ 58 + die * 2 ^ 56 + cluster * 2 ^ 50 + cls * 2 ^ 45 +
    idx * 2 ^ 35 + mac * 2 ^ 23 + word * 2 ^ 8 + bit)

/-- A location word that names a tile only (R22, R23). -/
def locTile (found contained die cluster cls idx : Nat) : Word :=
  locWord found contained die cluster cls idx 0xFFF 0x7FFF 0xFF

/-- An uncorrectable error that no more specific event reports: MEM_UE (R22, R512). -/
def State.reportUe (s : State) (loc addr : Word) : State := s.postEventAt 0x007 loc addr []

/-- A row to be steered onto a spare at the next start (R25, R538). DESIGN CHOICE, log entry 69. -/
def State.noteRepair (s : State) (loc : Word) : State :=
  { s with mgmt := { s.mgmt with
      life := { s.mgmt.life with memRepairs := s.mgmt.life.memRepairs ++ [loc] } } }

/-- The tile class and index and the row that a location word names (R22). -/
def locClass (loc : Word) : Nat := bitsOf loc.toNat 45 5
def locIndex (loc : Word) : Nat := bitsOf loc.toNat 35 10
def locRow (loc : Word) : Nat := bitsOf loc.toNat 8 15

/-- Spare rows of a macro: 8 in a TCAM macro, 4 in any other (R23, R25). -/
def spareRows (cls : Nat) : Nat := if cls = 4 then 8 else 4

/-- The macros whose rows noted for repair outnumber their spares, each by one of its location words (R25).
DEDUCED, log entry 75. -/
def State.spentMacros (s : State) : List Word :=
  let l := s.mgmt.life.memRepairs
  let mac (x : Word) : Nat := x.toNat / 2 ^ 23 % 2 ^ 35
  let rows (x : Word) : List Nat := ((l.filter fun y => mac y == mac x).map locRow).eraseDups
  (l.foldl (fun acc x => if acc.any fun y => mac y == mac x then acc else acc ++ [x]) []).filter fun x =>
    decide (spareRows (locClass x) < (rows x).length)

/-- A tile is unavailable (R25). DEDUCED, log entry 75. -/
def State.tileOut (s : State) (cls idx : Nat) : Bool := s.mgmt.tilesOut.contains (cls, idx)

/-- The errors found in one cycle, one for each macro: that of its lowest-numbered word (R24). -/
def perMacro (locs : List Word) : List Word :=
  locs.foldl (fun acc x =>
    let same (y : Word) : Bool := y.toNat / 2 ^ 23 == x.toNat / 2 ^ 23
    if acc.any same then acc.map fun y => if same y && decide (locRow x < locRow y) then x else y
    else acc ++ [x]) []

/-- An uncorrectable error met in a row of a buffer bank is counted (R321), and the second one since the start notes the
row for a spare (R284). -/
def State.bankUe (s : State) (bank row : Nat) : State :=
  let key := bank * 4096 + row
  let n := SMap.get 0 s.tm.rowUes key + 1
  let s := s.addSat .buf_STATUS [] f_buf_STATUS_ue_count 1
  let s := s.setFld .buf_STATUS [] f_buf_STATUS_last_ue_bank bank
  let s := s.setFld .buf_STATUS [] f_buf_STATUS_last_ue_row row
  let s := { s with tm := { s.tm with rowUes := SMap.put 0 s.tm.rowUes key n } }
  if n = 2 then s.noteRepair (locWord 2 2 1 0x3F 10 bank 0 row 0xFF) else s

/-- The uncorrectable errors found in one cycle are reported (R24). -/
def State.reportUes (s : State) (locs : List Word) : State := s.each (perMacro locs) fun s loc => s.reportUe loc 0

/-! ### Through which BAR (R491, R492, R505) -/

/-- What an access reaches: a BAR0 offset of PF0, a place in a snapshot area, a place in the MSI-X table or PBA of a
function, a place that reads zero and takes no write, or nothing that answers. -/
inductive Target
  | map (off : Nat)
  | pages (off : Nat)
  | vfPages (off : Nat)
  | msix (off : Nat)
  | empty
  | none
  deriving DecidableEq, Repr

/-- The BAR0 offset of a place in the window of a ring. -/
def ringWindow (r o : Nat) : Target := .map (Reg.addr .pci_RING_BASE [r] + o % 64)

/-- How the functions identify themselves (R490, R502): the Vendor ID of each, its Device ID and its class code; and the
VFs that PF1 offers. -/
def vendorId : Nat := 0x1D7A
def deviceId : Fn → Nat
  | .pf i => 0x5120 + i
  | .vf _ => 0x5124
def classCode : Fn → Nat
  | .pf 1 | .vf _ => 0x028000
  | .pf 3 => 0x0C8000
  | .pf _ => 0x120000
def totalVfs : Nat := 63

/-- The bytes of a BAR, 64-bit and non-prefetchable; zero for one that is not implemented (R491). VF numbers start at 1
(R502). -/
def barSize : Fn → Bar → Nat
  | .pf 0, .bar0 => 0x10000000
  | .pf 1, .bar0 => 0x20000
  | .pf 2, .bar0 => 0x1000000
  | .pf _, .bar0 => 0x10000
  | .pf _, .bar2 => 0
  | .pf _, .bar4 => 0x20000
  | .vf v, b => if v = 0 ∨ totalVfs < v.val then 0 else match b with
    | .bar0 => 0x4000
    | .bar2 => 0x10000
    | .bar4 => 0x2000

/-- What a host access reaches (R491, R492). A ring assigned to a VF is not reached through PF1. -/
def State.hostTarget (s : State) (fn : Fn) (bar : Bar) (off : Nat) : Target :=
  if barSize fn bar ≤ off then .none else match fn, bar with
  | _, .bar4 => .msix off
  | .pf i, .bar0 =>
    if i = 0 then .map off
    else if i = 1 then
      if off < 0x10000 then
        (if (s.vfOf (off / 64) f_pci_VF_RINGS_punt_base f_pci_VF_RINGS_punt_count).isSome then .empty
         else ringWindow (64 + off / 64) off)
      else
        let i := (off - 0x10000) / 64
        (if (s.vfOf i f_pci_VF_RINGS_inject_base f_pci_VF_RINGS_inject_count).isSome then .empty
         else ringWindow (1088 + i) off)
    else if i = 2 then .pages off
    else if off < 0x40 then ringWindow 42 off
    else if off < 0x80 then ringWindow 43 off
    else .empty
  | .pf _, .bar2 => .none
  | .vf v, .bar0 =>
    let w := s.rd .pci_VF_RINGS [v.val - 1]
    if off < 0x1000 then
      (if off / 64 < f_pci_VF_RINGS_punt_count.get w then
        ringWindow (64 + f_pci_VF_RINGS_punt_base.get w + off / 64) off else .empty)
    else if off < 0x2000 then
      (if (off - 0x1000) / 64 < f_pci_VF_RINGS_inject_count.get w then
        ringWindow (1088 + f_pci_VF_RINGS_inject_base.get w + (off - 0x1000) / 64) off else .empty)
    else .empty
  | .vf _, .bar2 => .vfPages off

/-! ### Access errors (R508) -/

/-- last_func and last_vf of an access (R508); the management cores' accesses are recorded as PF0's. -/
def Requester.func : Requester → Nat × Nat
  | .host (.pf i) _ => (i.val, 0)
  | .host (.vf v) _ => (4, v.val)
  | .mgmt => (0, 0)

/-- The offset in PF0 BAR0 of what an access reaches, where it is a register's. -/
def State.bar0Of (s : State) (a : Access) : Option Nat :=
  match a.who with
  | .mgmt => some a.off.toNat
  | .host fn bar => match s.hostTarget fn bar a.off.toNat with
    | .map off => some off
    | _ => none

/-- The location word and the address word of an access error (R22, R23): the register block, and its BAR0 offset.
DEDUCED, log entry 11. -/
def accessLoc (off : Option Nat) : Word × Word :=
  match off with
  | some o => (locTile 2 2 (if o < 0x2000000 then 0 else 1) 0x3F 12 (o / 0x10000), BitVec.ofNat 64 o)
  | none => (locTile 2 2 0 0x3F 0 0x3FF, 0)

/-- An access error of a kind is counted and recorded, and ACCESS_ERR posted on the first count (R508).
DEDUCED, log entry 11. -/
def State.accessError (s : State) (kind : Nat) (a : Access) : State :=
  let first := s.fld .pci_ERR_STATUS [] f_pci_ERR_STATUS_count == 0
  let (fn, vf) := Requester.func a.who
  let s := s.addSat .pci_ERR_STATUS [] f_pci_ERR_STATUS_count 1
  let s := s.setFld .pci_ERR_STATUS [] f_pci_ERR_STATUS_last_kind kind
  let s := s.setFld .pci_ERR_STATUS [] f_pci_ERR_STATUS_last_func fn
  let s := s.setFld .pci_ERR_STATUS [] f_pci_ERR_STATUS_last_vf vf
  let s := s.setFld .pci_ERR_STATUS [] f_pci_ERR_STATUS_last_offset a.off.toNat
  let (loc, addr) := accessLoc (s.bar0Of a)
  if first then s.postEventAt 0x008 loc addr (natLE 8 (s.rd .pci_ERR_STATUS []).toNat) else s

/-- An access through PF0 BAR0 to a register. DEDUCED, log entry 11. -/
def regAccess (r : Reg) (ix : List Nat) : Access := ⟨.host (.pf 0) .bar0, BitVec.ofNat 28 (r.addr ix)⟩

/-- The die-to-die link's health (R19): 0 FULL_RATE, 1 LIMITED, 2 FAILED. -/
def State.d2dHealth (s : State) : Nat := s.fld .d2d_STATUS [] f_d2d_STATUS_health

/-- The Shoilany range while the die-to-die link is FAILED (R18). -/
def State.tmClosed (s : State) (off : Nat) : Bool := s.d2dHealth == 2 && decide (0x2000000 ≤ off)

/-- A write of a register has its effect, unless it is discarded because the die-to-die link is FAILED (R18). -/
def State.tmWrite (s : State) (r : Reg) (ix : List Nat) (f : State → State) : State :=
  if s.tmClosed (r.addr ix) then s.accessError 2 (regAccess r ix) else f s

/-! ### Block counters (R568 to R571) -/

/-- The power domain that holds a counter group (R611). -/
def groupDomain (g : Nat) : Nat :=
  if g < 32 then 2 + g / 4
  else if g < 49 then 11
  else if g = 54 then 11
  else if g < 95 then 10
  else if g < 111 then 11
  else if g < 143 then 12
  else if g < 175 then 13
  else if g < 210 then 14
  else if g < 250 then 16
  else if g < 290 then 17
  else if g < 306 then 18
  else if g < 314 then 19
  else if g = 314 then 21
  else if g = 315 then 22
  else if g = 316 then 20
  else if g = 318 then 23
  else if g = 319 then 1
  else 0

/-- The mode of a port and its lanes (R361). -/
def State.portMode (s : State) (m : Nat) : Nat := s.fld .lmac_PORT_CFG [m] f_lmac_PORT_CFG_mode
def modeLanes (mode : Nat) : Nat := match mode with | 1 => 1 | 2 => 1 | 3 => 2 | 4 => 4 | 5 => 8 | _ => 0

/-- The state of an HBM channel's lifecycle: those of the Shoilany die first, then the Pyrlys die's (R430). -/
def State.chanLife (s : State) (k : Nat) : Nat :=
  if k < 128 then s.fld .tm_hmc_CH_STATUS [k] f_tm_hmc_CH_STATUS_state
  else s.fld .fe_hmc_CH_STATUS [k - 128] f_fe_hmc_CH_STATUS_state

/-- A group's block is clock-gated: every function in it is OFF (R570, R595, R620): the cluster, the ports of the quad's
MACs, the quad's lanes, or the group's channels. DESIGN CHOICE, log entry 60. -/
def State.groupGated (s : State) (g : Nat) : Bool :=
  if g < 32 then s.fld .fpc_CL_STATUS [g] f_fpc_CL_STATUS_state == 0
  else if 111 ≤ g ∧ g < 175 then
    (numbersFrom (4 * (g - 112)) 8).all fun p =>
      s.fld .lmac_PORT_STATUS [p] f_lmac_PORT_STATUS_state == 0 ||
        decide (p + max 1 (modeLanes (s.portMode p)) ≤ 4 * (g - 111)) || decide (4 * (g - 111) + 3 < p)
  else if 210 ≤ g ∧ g < 290 then
    (numbersFrom (4 * (g - 210)) 4).all fun l => s.fld .fab_LANE_STATUS [l] f_fab_LANE_STATUS_state == 0
  else if 290 ≤ g ∧ g < 314 then (numbersFrom (8 * (g - 290)) 8).all fun k => s.chanLife k == 0
  else false

/-- A group is neither OFF nor gated, so that a sweep writes its entries (R572). DESIGN CHOICE, log entry 60. -/
def State.groupShown (s : State) (g : Nat) : Bool :=
  s.fld .cpr_PD_STATUS [groupDomain g] f_cpr_PD_STATUS_state != 0 && !s.groupGated g

/-- A group's counters advance: its domain is ON or STOPPING, and its block is not gated; while the domain is STARTING
they keep their values until the start (R570). DESIGN CHOICE, log entry 60. -/
def State.groupRuns (s : State) (g : Nat) : Bool :=
  decide (2 ≤ s.fld .cpr_PD_STATUS [groupDomain g] f_cpr_PD_STATUS_state) && !s.groupGated g

/-- The clock of a counter group, in MHz (R568, R595); HBM controllers run at 1 GHz. -/
def groupMHz (g : Nat) : Nat :=
  if g < 175 ∨ g = 315 then 2000
  else if g < 210 ∨ g = 314 then 1600
  else if g < 314 then 1000
  else 800

/-- The cycle of a group's clock that is under way. -/
def State.groupCycle (s : State) (g : Nat) : Nat := s.cycle * groupMHz g / 2000

/-- What has happened to a counter in the present cycle of its clock (R571). -/
def State.cntEdge (s : State) (g k : Nat) : CntEdge :=
  let e := SMap.get {} s.cnt.edge (g * 8 + k)
  if e.cycle = s.groupCycle g then e else { cycle := s.groupCycle g }

/-- The value of a counter that a reading in this cycle sees: the one before a clear or a reconfiguration in it (R571). -/
def State.cntSeen (s : State) (g k : Nat) : BitVec 48 :=
  (s.cntEdge g k).before.getD (SMap.get 0 s.cnt.cnt (g * 8 + k))

/-- Whether the latch of a counter is still open: the first cycle of its clock that begins at or after the whistle has not
ended, the whistle reached its die, and nothing cleared it in that cycle (R571, R575). DESIGN CHOICE, log entry 14. -/
def State.latchOpen (s : State) (g : Nat) (e : CntEdge) : Bool :=
  s.fld .skp_STATUS [] f_skp_STATUS_whistle_state == 1 && e.before.isNone &&
    (s.cnt.latchFar || decide (g < 175) || decide (306 ≤ g)) &&
    decide (s.groupCycle g * 2000 < s.cnt.latchAt * groupMHz g + 2000)

/-- Events added to a counter (R569, R571, R575): one that was reconfigured in this cycle of its clock counts from the
next, and a whistle latches the value at the end of its cycle. -/
def State.cntPlus (s : State) (g k n : Nat) : State :=
  let e := s.cntEdge g k
  if e.fresh then s
  else
    let i := g * 8 + k
    let plus (m : SMap (BitVec 48)) : SMap (BitVec 48) := SMap.modify 0 m i (· + BitVec.ofNat 48 n)
    { s with cnt := { s.cnt with
      cnt := plus s.cnt.cnt
      edge := SMap.put {} s.cnt.edge i { e with n := e.n + n }
      latched := if s.latchOpen g e then plus s.cnt.latched else s.cnt.latched } }

/-- A counter zeroed by a clear, or by a reconfiguration (`fresh`): the events of the cycle are counted after a clear, and
not at all after a reconfiguration (R571). -/
def State.cntZero (s : State) (g k : Nat) (fresh : Bool) : State :=
  let e := s.cntEdge g k
  let i := g * 8 + k
  let v := if fresh ∨ e.fresh then 0 else BitVec.ofNat 48 e.n
  let before := s.cntSeen g k - (if e.before.isSome then 0 else BitVec.ofNat 48 e.n)
  { s with cnt := { s.cnt with
    cnt := SMap.put 0 s.cnt.cnt i v
    edge := SMap.put {} s.cnt.edge i { e with before := some before, fresh := fresh || e.fresh } } }

/-- Occurrences of an event source: each counter of the group in event mode that selects it adds them
(R569), unless the group's block does not run (R570). -/
def State.countEvents (s : State) (g src n : Nat) : State :=
  if s.groupRuns g then
    (List.range 8).foldl (fun s k =>
      if s.fld .skp_CNT_CFG [g, k] f_skp_CNT_CFG_mode = 1 ∧ s.fld .skp_CNT_CFG [g, k] f_skp_CNT_CFG_source = src
      then s.cntPlus g k n
      else s) s
  else s

/-- The counter group of the pipe that serves a lookup or a packet (R568). DESIGN CHOICE, log entry 4. -/
def lpmGroup (id : Nat) : Nat := 55 + Config.lpmPipe id % 24
def edtGroup (seq : Nat) : Nat := 95 + Config.edtPipe seq % 16

/-- One occurrence of an event source. DESIGN CHOICE, log entry 69. -/
def State.count1 (s : State) (g src : Nat) : State := s.countEvents g src 1

/-- All 8 counters of a group set to zero at its domain's start (R570). -/
def State.zeroGroup (s : State) (g : Nat) : State :=
  (List.range 8).foldl
    (fun s k => { s with cnt := { s.cnt with cnt := SMap.put 0 s.cnt.cnt (g * 8 + k) 0 } }) s

/-! ### The function lifecycle (R620 to R622) -/

/-- The place where a function keeps its lifecycle: its status register and the fields of its state
(0 OFF, 1 STARTING, 2 ON, 3 STOPPING), restart_pending and stop_pending. -/
structure LcReg where
  reg : Reg
  ix : List Nat
  state : Fld
  restart : Fld
  stop : Fld
  deriving DecidableEq, Repr

/-- What a lifecycle operation begins: nothing, a start or a stop. -/
inductive LcEdge
  | stay | beginStart | beginStop
  deriving DecidableEq, Repr

/-- The lifecycle state of a function. -/
def State.lc (s : State) (d : LcReg) : Nat := s.fld d.reg d.ix d.state

/-- A function is ON and takes work: it does not rest in ON before a stop that is pending (R620).
DEDUCED, log entry 71. -/
def State.lcWorks (s : State) (d : LcReg) : Bool := s.lc d == 2 && !s.flag d.reg d.ix d.stop

/-- A request for ON or OFF (R620); a start begins only where `canStart` (R622). A function that rests in OFF before
a restart, or in ON before a stop, drops it at a request for the state it is in. DEDUCED, log entry 71. -/
def State.lcRequest (s : State) (d : LcReg) (on canStart : Bool) : State × LcEdge :=
  match s.lc d, on with
  | 0, true =>
    if canStart && !s.flag d.reg d.ix d.restart then (s.setFld d.reg d.ix d.state 1, .beginStart) else (s, .stay)
  | 0, false => (s.setFld d.reg d.ix d.restart 0, .stay)
  | 1, true => (s.setFld d.reg d.ix d.stop 0, .stay)
  | 1, false => (s.setFld d.reg d.ix d.stop 1, .stay)
  | 2, true => (s.setFld d.reg d.ix d.stop 0, .stay)
  | 2, false => if s.flag d.reg d.ix d.stop then (s, .stay) else (s.setFld d.reg d.ix d.state 3, .beginStop)
  | _, true => (s.setFld d.reg d.ix d.restart 1, .stay)
  | _, false => (s.setFld d.reg d.ix d.restart 0, .stay)

/-- A start completes: the function is ON. A stop that is pending stays so for the cycle in which the function rests
(R620). DEDUCED, log entry 71. -/
def State.lcStartDone (s : State) (d : LcReg) : State := s.setFld d.reg d.ix d.state 2

/-- A start fails: the function is OFF and nothing is pending (R621). -/
def State.lcStartFail (s : State) (d : LcReg) : State :=
  ((s.setFld d.reg d.ix d.state 0).setFld d.reg d.ix d.stop 0).setFld d.reg d.ix d.restart 0

/-- A stop completes: the function is OFF. A restart that is pending stays so for the cycle in which the function
rests (R620). DEDUCED, log entry 71. -/
def State.lcStopDone (s : State) (d : LcReg) : State := s.setFld d.reg d.ix d.state 0

/-- The cycle of rest ends (R620): a function that is OFF begins the restart that was pending, where `canStart` (R622),
and one that is ON the stop that was. DEDUCED, log entry 71. -/
def State.lcRest (s : State) (d : LcReg) (canStart : Bool) : State × LcEdge :=
  if s.lc d = 0 ∧ s.flag d.reg d.ix d.restart then
    let s := s.setFld d.reg d.ix d.restart 0
    if canStart then (s.setFld d.reg d.ix d.state 1, .beginStart) else (s, .stay)
  else if s.lc d = 2 ∧ s.flag d.reg d.ix d.stop then
    ((s.setFld d.reg d.ix d.stop 0).setFld d.reg d.ix d.state 3, .beginStop)
  else (s, .stay)

/-- The function is forced OFF without a transition (R615). -/
def State.lcForceOff (s : State) (d : LcReg) : State := s.lcStartFail d

/-- The program image of a cluster in the management window (R116). -/
def State.program (s : State) (c : Nat) : Option CoreProgram := s.fpc.images.find? fun p => p.cluster.val == c

end Sys2Proof.Machine
end

