-- ==== Sys2Proof/Machine/TwinOps.lean ====
section
/-! DEFINITION. Operations of the twin logic that other units call: the health word, whether the device is in
step and as which of the two, the log it keeps, and the end of in-step operation (chapter 12). -/

namespace Sys2Proof.Machine

/-- The in-step state (R482): 0 OFF, 1 STARTING, 2 ON, 3 STOPPING; in step as source or as follower. -/
def State.twinState (s : State) : Nat := s.fld .twn_STATUS [] f_twn_STATUS_state
def State.inStep (s : State) : Bool := s.twinState == 2
def State.isSource (s : State) : Bool := s.inStep && s.flag .twn_STATUS [] f_twn_STATUS_log_source
def State.isFollower (s : State) : Bool := s.inStep && !s.flag .twn_STATUS [] f_twn_STATUS_log_source

/-- Whether the device holds the serve (R473, R474). -/
def State.serves (s : State) : Bool := s.flag .twn_STATUS [] f_twn_STATUS_serve

/-- A device in twin operation without the serve whose latest PEER names a non-zero epoch of the last 8 µs
schedules in the shadow of its partner; with neither it is in the gap between two holders (R477). -/
def State.shadow (s : State) : Bool :=
  s.flag .twn_CFG [] f_twn_CFG_enable && !s.serves && s.twin.peerEpoch != 0 && !s.passed (s.twin.peerAt + 1) 16000
def State.gap (s : State) : Bool := s.flag .twn_CFG [] f_twn_CFG_enable && !s.serves && !s.shadow

/-- HBM channels frozen or training_failed: H of R472. -/
def State.hbmBad (s : State) : Nat :=
  ((List.range 64).filter fun k => s.flag .fe_hmc_CH_STATUS [k] f_fe_hmc_CH_STATUS_frozen ||
      s.flag .fe_hmc_CH_STATUS [k] f_fe_hmc_CH_STATUS_training_failed).length +
  ((List.range 128).filter fun k => s.flag .tm_hmc_CH_STATUS [k] f_tm_hmc_CH_STATUS_frozen ||
      s.flag .tm_hmc_CH_STATUS [k] f_tm_hmc_CH_STATUS_training_failed).length

/-- Enabled fabric lanes not UP: F of R472. -/
def State.lanesBad (s : State) : Nat :=
  ((List.range 320).filter fun l => bitOf (s.rd .fab_LANE_EN [l / 64]).toNat (l % 64) &&
    s.fld .fab_LANE_STATUS [l] f_fab_LANE_STATUS_state != 4).length

/-- Enabled line ports whose link is down: P of R472. -/
def State.portsBad (s : State) : Nat :=
  ((List.range 256).filter fun m => s.flag .lmac_PORT_CTRL [m] f_lmac_PORT_CTRL_enable &&
    !s.flag .lmac_PORT_STATUS [m] f_lmac_PORT_STATUS_link_up).length

/-- serve_ready of a device whose level is above zero (R472): in step, or left step with RALLY_LOST or SERVE_LOST and
not since restarted, or forced. DESIGN CHOICE, log entry 53. -/
def State.serveReady (s : State) : Bool :=
  s.inStep || s.twin.leftReady || s.flag .twn_CTRL [] f_twn_CTRL_force_ready

/-- The health word now (R472). DESIGN CHOICE, log entry 53. -/
def State.healthWord (s : State) : Nat :=
  if s.d2dHealth = 2 ∨ s.boot.playbook.isNone then 0
  else
    let wt (f : Fld) : Nat := s.fld .twn_HEALTH_WT [] f
    let h := s.hbmBad
    let level := 255 - wt f_twn_HEALTH_WT_hbm_wt * h -
      wt f_twn_HEALTH_WT_d2d_wt * (if s.d2dHealth = 1 then 1 else 0) -
      wt f_twn_HEALTH_WT_fab_wt * ((s.lanesBad + 7) / 8) - wt f_twn_HEALTH_WT_port_wt * s.portsBad
    let cause := s.fld .twn_STATUS [] f_twn_STATUS_break_cause
    let ready := decide (0 < level) && s.serveReady
    let b (x : Bool) (i : Nat) : Nat := if x then 2 ^ i else 0
    level * 2 ^ 24 + b s.inStep 23 + b s.serves 22 + b ready 21 + b s.isSource 20 + s.twinState * 2 ^ 16 +
      min h 255 * 2 ^ 8 + cause

/-- CRC-8 with polynomial 0x07 (R470). -/
def crc8 (bs : List Byte) : Nat :=
  bs.foldl (fun c b =>
    (List.range 8).foldl (fun c _ => if 0x80 ≤ c then (c * 2) % 0x100 ^^^ 0x07 else c * 2) (c ^^^ b.toNat)) 0

/-- The CRC of a frame of the umpire link: over its type and message bytes (R470). DESIGN CHOICE, log entry 55. -/
def umpireCrc (type msg : Nat) : Nat := crc8 (natLE 1 type ++ natBE 4 msg)

/-- A frame leaves on the umpire link with its CRC (R470): 1 HEARTBEAT, 2 HEALTH, 3 RELINQUISH.
DESIGN CHOICE, log entry 55. -/
def State.umpireSend (s : State) (type msg : Nat) : State := s.emit (.umpire type [msg, umpireCrc type msg])

/-- The health word is sent when it has changed, while the umpire link runs (R471, R484). -/
def State.healthCheck (s : State) : State :=
  if s.flag .twn_CFG [] f_twn_CFG_enable && s.pdOn 21 then
    let w := s.healthWord
    if w = s.fld .twn_HEALTH [] f_twn_HEALTH_word then s
    else (s.setFld .twn_HEALTH [] f_twn_HEALTH_word w).umpireSend 2 w
  else s

/-! ### The rally link (R450 to R454) -/

/-- A 64-bit value as two words, the most significant first (R454). -/
def w64 (v : Nat) : List Nat := [v / 2 ^ 32 % 2 ^ 32, v % 2 ^ 32]

/-- Bytes as 32-bit words in the order they are sent, padded to a whole word (R454). -/
def toWords (bs : List Byte) : List Nat :=
  (List.range ((bs.length + 3) / 4)).map fun i => beNat (padTo 4 ((bs.drop (4 * i)).take 4))

/-- Words as the bytes that send them. -/
def ofWords (ws : List Nat) : List Byte := ws.flatMap (natBE 4)

def State.rallyLane (s : State) (i : Nat) : RallyLane := SMap.get {} s.twin.lanes i
def State.modRally (s : State) (i : Nat) (f : RallyLane → RallyLane) : State :=
  { s with twin := { s.twin with lanes := SMap.modify {} s.twin.lanes i f } }
def State.rallyState (s : State) (i : Nat) : Nat := s.fld .twn_RALLY_LANE [i] f_twn_RALLY_LANE_state

/-- The CRC of a frame (R451): over bytes 0-11 of the header and the payload. -/
def rallyCrc (header : Nat) (payload : List Byte) : Nat :=
  crc32c 0xFFFFFFFF ((natBE 16 header).take 12 ++ padTo 256 payload)

/-- A frame sent on a lane (R451): type 0 idle, 1 data, 2 link. DESIGN CHOICE, log entries 14, 52. -/
def State.rallyFrame (s : State) (lane type fseq used : Nat) (payload : List Byte) : State :=
  let ack := (s.twin.rxNext + 2 ^ 32 - 1) % 2 ^ 32
  let h := type * 2 ^ 126 + 2 ^ 120 + fseq * 2 ^ 88 + ack * 2 ^ 56 + lane * 2 ^ 48 + used * 2 ^ 39
  s.emit (.rally lane (h + rallyCrc h payload) (padTo 256 payload))

/-- The UP lane that follows the one used last (R453). -/
def State.rallyNextLane (s : State) : Option Nat :=
  ((List.range 8).map fun i => (s.twin.lanePtr + 1 + i) % 8).find? fun i => s.rallyState i == 4

/-- A data frame leaves on the next UP lane (R453). DESIGN CHOICE, log entry 52. -/
def State.rallySend (s : State) (fseq : Nat) (payload : List Byte) : State :=
  match s.rallyNextLane with
  | some i =>
    ({ s with twin := { s.twin with lanePtr := i } }.rallyFrame i 1 fseq payload.length payload).count1 314 4
  | none => s

/-- A list cut into pieces of at most 64 words. -/
def frameChunks : Nat → List Nat → List (List Nat)
  | 0, _ => []
  | n + 1, l => if l.isEmpty then [] else l.take 64 :: frameChunks n (l.drop 64)

/-- Words of the stream leave in frames, of which the last 4,096 are kept for replay (R453). -/
def State.rallyStream (s : State) (words : List Nat) : State :=
  s.each (frameChunks words.length words) fun s ws =>
    let n := s.twin.txSeq
    let p := ofWords ws
    let l := s.twin.replay ++ [(n, p)]
    let s := { s with twin := { s.twin with
      txSeq := (n + 1) % 2 ^ 32, replay := l.drop (l.length - 4096)
      ackAt := if s.twin.replay.isEmpty then s.cycle else s.twin.ackAt } }
    s.rallySend n p

/-- A record (R454): its header word and the words that follow. -/
def State.rallyRecord (s : State) (rtype low : Nat) (words : List Nat) : State :=
  s.rallyStream ((rtype * 2 ^ 28 + words.length * 2 ^ 8 + low) :: words)

/-- The open PKT record is closed and placed in the stream (R455). -/
def State.pktClose (s : State) : State :=
  match s.twin.pkt with
  | some (base, tick, es) =>
    { s with twin := { s.twin with pkt := none } }.rallyRecord 1 0 (w64 base ++ w64 tick ++ es)
  | none => s

/-- A record placed in the rally stream, after the PKT record that is open (R454, R455). While the link is lost
nothing is placed. DESIGN CHOICE, log entry 52. -/
def State.rallyPut (s : State) (rtype low : Nat) (words : List Nat) : State :=
  if s.twin.linkUp then s.pktClose.rallyRecord rtype low words else s

/-! ### The received stream -/

/-- The record at the head of a stream, once it is complete: rtype, type-specific field, words and what follows. -/
def headRecord : List Nat → Option (Nat × Nat × List Nat × List Nat)
  | [] => none
  | h :: l =>
    let n := h / 2 ^ 8 % 2 ^ 20
    if n ≤ l.length then some (h / 2 ^ 28, h % 2 ^ 8, l.take n, l.drop n) else none

def State.rallyHead (s : State) : Option (Nat × Nat × List Nat × List Nat) := headRecord s.twin.rx

/-- The stream through its last complete PKT record: `acc` what was passed, `best` the answer so far. -/
def throughPkt : Nat → List Nat → List Nat → List Nat → List Nat
  | 0, _, _, best => best
  | k + 1, l, acc, best =>
    match headRecord l with
    | some (t, _, _, rest) =>
      let acc := acc ++ l.take (l.length - rest.length)
      throughPkt k rest acc (if t = 1 then acc else best)
    | none => best

/-- In-step operation rests in ON, or in OFF, before the transition that is pending (R620). DEDUCED, log entry 71. -/
def State.stepRests (s : State) : Bool :=
  (s.twinState == 2 && s.flag .twn_STATUS [] f_twn_STATUS_stop_pending) ||
    (s.twinState == 0 && s.flag .twn_STATUS [] f_twn_STATUS_restart_pending)

/-- The follower takes its packets from the log: in step, at the end of it, and once JOIN came (R456, R465, R468). -/
def State.following (s : State) : Bool :=
  s.isFollower || s.twinState == 3 ||
    (s.twinState == 1 && !s.flag .twn_STATUS [] f_twn_STATUS_log_source && s.twin.phase == 4)

/-- The device takes the records of the log: it follows it, it is being resynchronised, or it has given up the serve
and the partner's log may follow its own (R465, R466, R469). -/
def State.takesLog (s : State) : Bool :=
  s.following || (s.isSource && s.flag .twn_STATUS [] f_twn_STATUS_handover) ||
    (s.twinState == 1 && !s.flag .twn_STATUS [] f_twn_STATUS_log_source && decide (2 ≤ s.twin.phase))

/-- Transactions are forwarded: from RESYNC on, by the source (R461, R466). -/
def State.forwards (s : State) : Bool :=
  s.isSource || (s.twinState == 1 && s.flag .twn_STATUS [] f_twn_STATUS_log_source && decide (2 ≤ s.twin.phase))

/-! ### Leaving step (R464, R465) -/

/-- The in-step lifecycle reaches OFF (R466). A restart that is pending stays so for the cycle of rest (R620). -/
def State.stepOff (s : State) : State :=
  let s := s.setFld .twn_STATUS [] f_twn_STATUS_state 0
  let s := { s with twin := { s.twin with
    phase := 0, rx := [], pktPos := 0, pktCount := 0, injects := [], ownDrops := [], srcDrops := [], joinWait := none } }
  s.healthCheck

/-- What an end of in-step operation and a refusal have in common (R464): the cause is shown and posted, and
in_step_en is cleared. -/
def State.stepCause (s : State) (cause state : Nat) : State :=
  let s := s.setFld .twn_STATUS [] f_twn_STATUS_break_cause cause
  let s := s.postEvent 0x017 (natLE 1 cause ++ natLE 1 state)
  let s := s.setFlag .twn_CTRL [] f_twn_CTRL_in_step_en false
  s.setFlag .twn_STATUS [] f_twn_STATUS_stop_pending false

/-- A start is refused or given up (R464): the device returns to OFF with its cause. DESIGN CHOICE, log entry 53. -/
def State.stepRefuse (s : State) (cause : Nat) : State :=
  let s := s.stepCause cause 1
  (s.setFlag .twn_STATUS [] f_twn_STATUS_log_source false).stepOff

/-- In-step operation ends with a cause (R464, R465): the device sends LEAVE unless the rally link is lost, and the
follower goes on with the log up to its last complete PKT record. DESIGN CHOICE, log entry 53. -/
def State.stepEnd (s : State) (cause : Nat) : State :=
  if s.inStep then
    let source := s.flag .twn_STATUS [] f_twn_STATUS_log_source
    let s := s.rallyPut 0xA 4 [cause]
    let s := { s with twin := { s.twin with pkt := none, srcDrops := [], leftReady := cause == 15 || cause == 16 } }
    let s := s.addWrap .twn_CNT [4] f_twn_CNT_count 1
    let s := s.stepCause cause 3
    let s := s.setFld .twn_STATUS [] f_twn_STATUS_state 3
    let s := s.setFlag .twn_STATUS [] f_twn_STATUS_log_source false
    let s := s.setFlag .twn_STATUS [] f_twn_STATUS_handover false
    let s := s.setFld .twn_STATUS [] f_twn_STATUS_lag 0
    let s := s.setFlag .dsp_DISP_STATUS [] f_dsp_DISP_STATUS_override_active
      (s.flag .dsp_DISP_CFG [] f_dsp_DISP_CFG_override_en)
    let log := if source then [] else throughPkt s.twin.rx.length s.twin.rx [] []
    let s := { s with twin := { s.twin with rx := log } }
    if log.isEmpty then s.stepOff else s.healthCheck
  else s

/-! ### The log (R455, R463, R468) -/

/-- Packet `seq` is outside the folds: the follower skips it at a join (R463, R468). -/
def State.foldSkip (s : State) (seq : Nat) : State :=
  { s with twin := { s.twin with skipped := s.twin.skipped ++ [seq] } }

/-- In-step operation begins with packet `seq` (R468): nothing is folded, and the override is inactive (R73). -/
def State.stepOn (s : State) (seq : Nat) : State :=
  let s := s.setFld .twn_STATUS [] f_twn_STATUS_state 2
  let s := { s with twin := { s.twin with
    phase := 0, foldFrom := seq, nextWindow := seq / 2 ^ 20, folds := [], ownFolds := [], peerFolds := []
    leftReady := false } }
  let s := s.setFlag .dsp_DISP_STATUS [] f_dsp_DISP_STATUS_override_active false
  s.healthCheck

/-- The source chooses J, the first packet to enter at least 64 cycles after HOLDING: JOIN is placed, and it logs from
J on (R468). -/
def State.joinPoint (s : State) : State :=
  match s.twin.joinWait with
  | some (from', t) =>
    if from' ≤ s.cycle then
      let j := s.fpc.seqNext
      let s := s.rallyPut 0xA 3 (w64 j ++ w64 t)
      let s := { s with twin := { s.twin with joinWait := none, joinT := t, skipped := [] } }
      s.stepOn j
    else s
  | none => s

/-- The words of a PKT entry (R455): FRAME_LONG where the offset of a frame does not fit. -/
def pktEntry (kind mac len : Nat) (tick : Nat) (ts : Word) : List Nat :=
  if kind = 3 then [3 * 2 ^ 22]
  else
    let off : Int := (ts - BitVec.ofNat 64 tick).toInt
    let head (k : Nat) : Nat := mac * 2 ^ 24 + k * 2 ^ 22 + len % 256 * 2 ^ 14
    if kind = 0 ∧ ¬(-8192 ≤ off ∧ off < 8192) then head 1 :: w64 ts.toNat
    else [head kind + (off % 16384).toNat]

/-- The entries in the words that follow base_tick of a PKT record: FRAME_LONG takes three words (R455).
DESIGN CHOICE, log entry 54. -/
def entryCount : List Nat → Nat
  | e :: a :: b :: l => if bitsOf e 22 2 = 1 then entryCount l + 1 else entryCount (a :: b :: l) + 1
  | l => l.length

/-- The source logs what enters its parser next (R455): `kind` 0 FRAME, 2 DROPPED, 3 INJECT. A PKT record closes after
240 entries and after 64 ticks. -/
def State.logEntry (s : State) (kind mac len : Nat) (ts : Word) : State :=
  let s := s.when (kind != 2) State.joinPoint
  if s.isSource && !s.stepRests then
    let now := s.pwr.time.toNat
    let s := match s.twin.pkt with
      | some (_, tick, es) => s.when (decide (tick + 64 ≤ now) || decide (240 ≤ entryCount es)) State.pktClose
      | none => s
    let (base, tick, es) := s.twin.pkt.getD (s.fpc.seqNext, now, [])
    let s := { s with twin := { s.twin with pkt := some (base, tick, es ++ pktEntry kind mac len tick ts) } }
    s.when (kind == 0 && decide (ts.toNat < s.twin.joinT)) (·.foldSkip s.fpc.seqNext)
  else s

/-- The drops of MAC `m` before frame number `first`, the next of that MAC to enter (none: no frame waits), are logged
in the order received, each behind the frames before it (R455). After HANDOVER the log takes no entry (R469).
DESIGN CHOICE, log entry 54. -/
def State.logDrops (s : State) (m : Nat) (first : Option Nat) : State :=
  let due (d : OwnDrop) : Bool := d.mac == m && (match first with | some n => decide (d.fid < n) | none => true)
  if s.flag .twn_STATUS [] f_twn_STATUS_handover then s
  else
    let l := s.twin.srcDrops.filter due
    let s := { s with twin := { s.twin with srcDrops := s.twin.srcDrops.filter fun d => !due d } }
    s.each l fun s d => s.logEntry 2 m d.len d.ts

/-! ### Consuming the received stream (R454) -/

/-- Whether a record is of a type, code and subkind the tables list (R454, R555). -/
def knownRecord (rtype low : Nat) (w : List Nat) : Bool :=
  match rtype with
  | 1 | 2 | 4 | 6 | 8 | 9 => true
  | 3 | 5 | 7 => decide (low ≤ 1)
  | 0xA => decide (1 ≤ low ∧ low ≤ 5)
  | 0xB => decide (1 ≤ w.headD 0 / 2 ^ 24 ∧ w.headD 0 / 2 ^ 24 ≤ 3)
  | _ => false

/-- Padding and unlisted records at the head of a stream are passed over, unlisted ones counted. -/
def settleWords : Nat → List Nat → Nat → List Nat × Nat
  | 0, l, n => (l, n)
  | k + 1, l, n =>
    if l.headD 1 = 0 then settleWords k (l.drop 1) n
    else match headRecord l with
      | some (t, low, w, rest) => if knownRecord t low w then (l, n) else settleWords k rest (n + 1)
      | none => (l, n)

/-- The received stream becomes `rest`, settled; at its end a follower that is leaving step is OFF (R465). -/
def State.rallyNext (s : State) (rest : List Nat) : State :=
  let (l, bad) := settleWords rest.length rest 0
  let s := { s with twin := { s.twin with rx := l, pktPos := 0, pktCount := 0 } }
  let s := s.addWrap .twn_CNT [8] f_twn_CNT_count bad
  let s := s.when (decide (bad ≠ 0) && s.isFollower) (·.stepEnd 15)
  s.when (s.twinState == 3 && s.twin.rx.isEmpty) State.stepOff

/-- The record at the head of the stream, where it is of a type, and the state without it. -/
def State.rallyTake (s : State) (rtype : Nat) : Option (Nat × List Nat × State) :=
  match s.rallyHead with
  | some (t, low, w, rest) => if t = rtype then some (low, w, s.rallyNext rest) else none
  | none => none

/-- A 64-bit value at word `i` of a record. -/
def at64 (w : List Nat) (i : Nat) : Nat := w.getD i 0 * 2 ^ 32 + w.getD (i + 1) 0

end Sys2Proof.Machine
end

