-- ==== Sys2Proof/Machine/D2d.lean ====
section
/-! DEFINITION. The die-to-die link: flits, control signals, modules and the link's health (chapter 1,
R15 to R21). -/

namespace Sys2Proof.Machine

/-- The state of a die-to-die module (R20): 0 OFF, 1 TRAINING, 2 UP, 3 RETRAINING, 4 RETIRED. -/
def State.d2dMod (s : State) (m : Nat) : Nat := s.fld .d2d_MOD_STATUS [m] f_d2d_MOD_STATUS_state

/-- Modules in a state. -/
def State.d2dCount (s : State) (st : Nat) : Nat :=
  ((List.range 40).filter fun m => s.d2dMod m == st).length

/-- The health that a number of modules UP gives (R18): 0 FULL_RATE, 1 LIMITED, 2 FAILED. -/
def d2dHealthOf (up : Nat) : Nat := if 30 ≤ up then 0 else if 8 ≤ up then 1 else 2

/-- The link's state from its modules (R19): DOWN with every module OFF or RETIRED, TRAINING until
enough are UP, then UP or FAILED. DESIGN CHOICE, log entry 16. -/
def State.d2dLinkState (s : State) : Nat :=
  let up := s.d2dCount 2
  if 8 ≤ up then 2
  else if 0 < s.d2dCount 1 then 1
  else if up = 0 ∧ s.d2dCount 3 = 0 ∧ s.d2dCount 4 = 0 then 0
  else 3

/-- The link's summary after module `m` (none: 0x3FF) changed: counts, link state and health, with D2D_HEALTH posted and
the twin health word sent on a change of health (R18, R19, R23). DESIGN CHOICE, log entry 16. -/
def State.d2dRefresh (s : State) (m : Nat := 0x3FF) : State :=
  let old := s.d2dHealth
  let up := s.d2dCount 2
  let new := d2dHealthOf up
  let s := s.setFld .d2d_STATUS [] f_d2d_STATUS_modules_up up
  let s := s.setFld .d2d_STATUS [] f_d2d_STATUS_modules_retired (s.d2dCount 4)
  let s := s.setFld .d2d_STATUS [] f_d2d_STATUS_link_state s.d2dLinkState
  let s := s.setFld .d2d_STATUS [] f_d2d_STATUS_health new
  if old = new then s
  else
    let s := s.when (new == 1) (·.setFlag .d2d_STATUS [] f_d2d_STATUS_limited_seen true)
    let s := s.when (new == 2) (·.setFlag .d2d_STATUS [] f_d2d_STATUS_failed_seen true)
    let loc := if new = 0 then 0 else locTile 4 7 2 0x3F 9 m
    let s := s.postEventAt 0x018 loc 0 (natLE 8 (s.rd .d2d_STATUS []).toNat)
    s.healthCheck

/-- The bookkeeping of a module changed. -/
def State.modD2d (s : State) (m : Nat) (f : D2dModule → D2dModule) : State :=
  { s with d2d := { s.d2d with modules := SMap.modify {} s.d2d.modules m f } }

/-- A flit is replayed by a module (R16, R17, R21). DESIGN CHOICE, log entry 16. -/
def State.d2dReplayOn (s : State) (m n : Nat) : State :=
  let s := s.addSat .d2d_MOD_ERR [m] f_d2d_MOD_ERR_replays 1
  let s := s.modD2d m fun x => { x with winReplays := x.winReplays + 1 }
  (s.count1 315 5).emit (.d2dReplay m n)

/-- A module beyond its spare lanes, or retired, is reported in the log, found and contained at its own level (R22, R23);
an event of its own the spec does not give it. DESIGN CHOICE, log entry 16. -/
def State.d2dModReport (s : State) (m : Nat) : State :=
  s.logPut 0x018 (eventSeverity 0x018) (locTile 4 4 2 0x3F 9 m) 0 (natLE 8 (s.rd .d2d_STATUS []).toNat)

/-- A module begins to retrain; its flits in flight are replayed on the other modules that are UP, spread over them by
their sequence numbers (R17). DESIGN CHOICE, log entry 16. -/
def State.d2dRetrain (s : State) (m : Nat) (inFlight : List Nat) : State :=
  let s := s.setFld .d2d_MOD_STATUS [m] f_d2d_MOD_STATUS_state 3
  let s := s.addSat .d2d_MOD_STATUS [m] f_d2d_MOD_STATUS_retrain_count 1
  let up := (List.range 40).filter fun k => s.d2dMod k == 2
  let s := s.each inFlight fun s n => match up[n % up.length]? with
    | some k => s.d2dReplayOn k n
    | none => s
  s.d2dRefresh m

/-- Sequence numbers received ahead that now follow in order. -/
def drainAhead : Nat → List Nat → Nat → Nat × List Nat
  | 0, ahead, n => (n, ahead)
  | k + 1, ahead, n => if ahead.contains n then drainAhead k (ahead.erase n) (n + 1) else (n, ahead)

/-- A good flit restored to order by its sequence number; a number already received is discarded (R16).
DESIGN CHOICE, log entry 16. -/
def D2dRx.receive (rx : D2dRx) (n : Nat) : D2dRx :=
  if n < rx.next ∨ rx.ahead.contains n then rx
  else
    let ahead := n :: rx.ahead
    let (next, ahead) := drainAhead ahead.length ahead rx.next
    { next, ahead }

/-- D2D_FLIT_RECEIVE (R16, R17, R21): a flit with a bad CRC is counted and replayed from the sender's
replay buffer, which counts on the module it arrived on; a good one is restored to order. Flits arrive only on a module
that is UP. DESIGN CHOICE, log entry 16. -/
def execD2dFlitReceive (m : Fin 40) (dir : D2dDir) (crcOk : Bool) (seqNo : Nat) (s : State) : Res :=
  if s.d2dMod m ≠ 2 then go s
  else
    let s := s.modD2d m fun x => { x with winFlits := x.winFlits + 1 }
    if crcOk then
      go <| match dir with
        | .toShoilany => { s with d2d := { s.d2d with rxTm := s.d2d.rxTm.receive seqNo } }
        | .toPyrlys => { s with d2d := { s.d2d with rxFe := s.d2d.rxFe.receive seqNo } }
    else
      let s := s.addSat .d2d_MOD_ERR [m] f_d2d_MOD_ERR_crc_errors 1
      go (s.d2dReplayOn m seqNo)

/-- D2D_REPLAY_WINDOW (R17): at the end of a 10 ms window a module whose replay rate exceeded one flit in
10⁶ retrains, with these flits in flight on it; a new window begins. DESIGN CHOICE, log entries 15, 16. -/
def execD2dReplayWindow (m : Fin 40) (s : State) (inFlight : List Nat := []) : Res :=
  let x := SMap.get {} s.d2d.modules m
  if s.d2dMod m = 2 ∧ s.passed x.winSince (10000 * cyclesPerUs) then
    let bad := decide (x.winFlits < x.winReplays * 1000000)
    let s := s.modD2d m fun x => { x with winFlits := 0, winReplays := 0, winSince := s.cycle }
    go (s.when bad (·.d2dRetrain m inFlight))
  else go s

/-- D2D_LANE_LOSS (R17, R19, R20): the module moves to a spare lane of that direction, or retrains, with these flits in
flight on it, when all four are in use. -/
def execD2dLaneLoss (m : Fin 40) (dir : D2dDir) (s : State) (inFlight : List Nat := []) : Res :=
  if s.d2dMod m ≠ 2 then go s
  else
    let f := match dir with
      | .toShoilany => f_d2d_MOD_STATUS_tx_spares_used
      | .toPyrlys => f_d2d_MOD_STATUS_rx_spares_used
    if s.fld .d2d_MOD_STATUS [m] f < 4 then
      let s := s.addSat .d2d_MOD_STATUS [m] f 1
      go (s.addSat .d2d_STATUS [] f_d2d_STATUS_lanes_repaired 1)
    else go ((s.d2dModReport m).d2dRetrain m inFlight)

/-- D2D_MODULE_TRAIN_DONE (R17, R18): the module enters UP; a third failure in succession retires it until
the next device start and enters it in the lifetime record; another failure trains again. -/
def execD2dModuleTrainDone (m : Fin 40) (ok : Bool) (s : State) : Res :=
  if s.d2dMod m ≠ 1 ∧ s.d2dMod m ≠ 3 then go s
  else if ok then
    let s := s.modD2d m fun x => { x with fails := 0, winFlits := 0, winReplays := 0, winSince := s.cycle }
    go ((s.setFld .d2d_MOD_STATUS [m] f_d2d_MOD_STATUS_state 2).d2dRefresh m)
  else
    let n := (SMap.get {} s.d2d.modules m).fails + 1
    let s := s.modD2d m fun x => { x with fails := n }
    if n < 3 then go s
    else
      let s := s.setFld .d2d_MOD_STATUS [m] f_d2d_MOD_STATUS_state 4
      let life := s.mgmt.life
      let s := { s with mgmt := { s.mgmt with life :=
        { life with retiredModules := life.retiredModules ++ [m.val] } } }
      go ((s.d2dModReport m).d2dRefresh m)

end Sys2Proof.Machine
end

