-- ==== Sys2Proof/Machine/TxnBase.lean ====
section
/-! DEFINITION. The completion of a transaction batch that waits for room in its ring (R507). -/

namespace Sys2Proof.Machine

/-- A completion record is written to completion ring t + 16, or lost where that ring is not ON, DONE of ring t
advances, and the engine is free for its next batch (R507). After a Function Level Reset the record is discarded
(R504). -/
def State.txnComplete (s : State) (r : TxnReport) : State :=
  let s := (s.when (s.ringErr r.ring != 3) (·.ringPut (16 + r.ring) r.completion)).ringDone r.ring
  let s := { s with tab := { s.tab with batch := none, report := none } }
  s.setFld .pci_TXN_STATUS [] f_pci_TXN_STATUS_state 0

/-- A completion is written, or waits while its completion ring is ON and full (R507). -/
def State.txnPost (s : State) (r : TxnReport) : State :=
  if s.ringErr r.ring != 3 && s.ringState (16 + r.ring) == 2 && !s.ringRoom (16 + r.ring) then
    { s with tab := { s.tab with report := some r } }
  else s.txnComplete r

/-- A completion that waits is looked at again (R507). -/
def State.txnPostPending (s : State) : State :=
  match s.tab.report with
  | some r => s.txnPost r
  | none => s

/-- A batch taken from ring `r` has not ended (R503). -/
def State.txnBusyWith (s : State) (r : Nat) : Bool :=
  (match s.tab.batch with | some b => b.ring == some r | none => false) ||
    (match s.tab.report with | some x => x.ring == r | none => false)

end Sys2Proof.Machine
end

