-- ==== Sys2Proof/Machine/Host.lean ====
section
/-! DEFINITION. Rings, MSI-X, virtual functions and the resets of the endpoint (chapter 13, R496 to
R505). -/

namespace Sys2Proof.Machine

/-- Where a ring keeps its lifecycle (R500, R503). -/
def ringLc (r : Nat) : LcReg :=
  ⟨.pci_RING_STATUS, [r], f_pci_RING_STATUS_state, f_pci_RING_STATUS_restart_pending,
    f_pci_RING_STATUS_stop_pending⟩

/-- A completion ring has changed: a completion that waits for it is looked at again (R507). -/
def State.ringChanged (s : State) (r : Nat) : State := s.when (decide (16 ≤ r ∧ r < 32)) State.txnPostPending

/-- A ring is requested ON or OFF; a start waits for PD20 (R611, R622). DEDUCED, log entry 13. -/
def State.ringRequest (s : State) (r : Nat) (on : Bool) : State :=
  (s.lcRequest (ringLc r) on (s.pdOn 20)).1.ringChanged r

/-- The cycle of rest of a ring ends (R503, R620). -/
def State.ringRest (s : State) (r : Nat) : State := (s.lcRest (ringLc r) (s.pdOn 20)).1.ringChanged r

/-- An error sets err_code and starts STOPPING of the ring, and RING_ERR is posted with the register block of the ring's
status (R22, R497, R503); err_code FLR stands until the ring starts again (R504). DEDUCED, log entries 11, 13. -/
def State.ringStopErr (s : State) (r code : Nat) : State :=
  let s := s.when (s.ringErr r != 3) (·.setFld .pci_RING_STATUS [r] f_pci_RING_STATUS_err_code code)
  let (loc, addr) := accessLoc (some (Reg.addr .pci_RING_STATUS [r]))
  (s.ringRequest r false).postEventAt 0x009 loc addr (natLE 2 r ++ natLE 1 code)

/-- A write of PIDX to a host-posted ring (R497): discarded while the ring is OFF or STARTING; an index
that runs backward or past the ring's size is an OVERRUN. -/
def State.ringDoorbell (s : State) (r pidx : Nat) : State :=
  if !hostPosted r || s.ringState r < 2 then s
  else
    let old := s.ringPidx r
    let s := s.setFld .pci_RING_PIDX [r] f_pci_RING_PIDX_pidx pidx
    if 2 ^ 31 < (pidx + 2 ^ 32 - old) % 2 ^ 32 ∨ s.ringSize r < s.ringFill r then s.ringStopErr r 1 else s

/-- A write of CIDX to a device-written ring (R497); a completion ring is looked at again for a record
that waits (R507). -/
def State.ringCidxWrite (s : State) (r cidx : Nat) : State :=
  if hostPosted r || s.ringState r < 2 then s
  else
    let s := s.setFld .pci_RING_CIDX [r] f_pci_RING_CIDX_index cidx
    let s := if s.ringSize r < s.ringFill r then s.ringStopErr r 1 else s
    s.ringChanged r

/-- The bits of RING_CFG that may not change while the ring is not OFF (R500). -/
def ringCfgFixed : Word :=
  f_pci_RING_CFG_size_log2.mask ||| f_pci_RING_CFG_mode_mask.mask ||| f_pci_RING_CFG_fixed.mask |||
    f_pci_RING_CFG_target.mask

/-- The bits of RING_CFG that are stored. -/
def ringCfgBits : Word :=
  ringCfgFixed ||| f_pci_RING_CFG_enable.mask ||| f_pci_RING_CFG_coal_count.mask |||
    f_pci_RING_CFG_coal_timer.mask

/-- A write of RING_CFG (R500, R503): while the ring is not OFF, one that would change a fixed field is
discarded and recorded; otherwise the fields are stored and enable requests ON or OFF. -/
def State.ringCfgWrite (s : State) (a : Access) (r : Nat) (v : Word) : State :=
  let old := s.rd .pci_RING_CFG [r]
  if s.ringState r ≠ 0 ∧ (v &&& ringCfgFixed) ≠ (old &&& ringCfgFixed) then s.accessError 4 a
  else
    let s := s.wr .pci_RING_CFG [r] (v &&& ringCfgBits)
    s.ringRequest r (f_pci_RING_CFG_enable.get v == 1)

/-- A write of RING_BASE (R500). -/
def State.ringBaseWrite (s : State) (a : Access) (r : Nat) (v : Word) : State :=
  let new := v &&& f_pci_RING_BASE_base.mask
  if s.ringState r ≠ 0 ∧ new ≠ s.rd .pci_RING_BASE [r] then s.accessError 4 a
  else s.wr .pci_RING_BASE [r] new

/-- The host's writes reach the registers: the BARs report ready, and PERST_N is not asserted (R504, R505). -/
def State.barsOpen (s : State) : Bool :=
  s.flag .glb_BOOT_STATUS [] f_glb_BOOT_STATUS_ready && !s.host.perst && !s.pwr.inReset

/-- RING_DOORBELL (R497, R505). -/
def execRingDoorbell (r : Fin 2112) (pidx : BitVec 32) (s : State) : Res :=
  go (s.when s.barsOpen (·.ringDoorbell r pidx.toNat))

/-- RING_CIDX_WRITE (R497, R505). -/
def execRingCidxWrite (r : Fin 2112) (cidx : BitVec 32) (s : State) : Res :=
  go (s.when s.barsOpen (·.ringCidxWrite r cidx.toNat))

/-- RING_CFG_WRITE (R500, R505): a write of RING_BASE or RING_CFG; a ring that is not used holds no register
(R496, R8). -/
def execRingCfgWrite (r : Fin 2112) (isBase : Bool) (v : Word) (s : State) : Res :=
  if !ringUsed r || !s.barsOpen then go s
  else if isBase then go (s.ringBaseWrite (regAccess .pci_RING_BASE [r.val]) r v)
  else go (s.ringCfgWrite (regAccess .pci_RING_CFG [r.val]) r v)

/-- RING_START_DONE (R503): the indices are zeroed, err_code is cleared and the ring is ON, or stops again
where a stop is pending; a Function Level Reset during the start has set err_code since (R504).
DEDUCED, log entry 13. -/
def execRingStartDone (r : Fin 2112) (s : State) : Res :=
  if s.ringState r ≠ 1 then go s
  else
    let s := s.setFld .pci_RING_PIDX [r] f_pci_RING_PIDX_pidx 0
    let s := s.setFld .pci_RING_CIDX [r] f_pci_RING_CIDX_index 0
    let reset := (SMap.get {} s.host.ringx r).flr
    let s := s.setFld .pci_RING_STATUS [r] f_pci_RING_STATUS_err_code (if reset then 3 else 0)
    let s := s.modRingx r fun x => { x with coal := 0, coalSince := 0, taken := 0, flr := false }
    go (s.lcStartDone (ringLc r))

/-- A ring holds work already taken: a descriptor of its own or the transaction batch (R503). -/
def State.ringBusy (s : State) (r : Nat) : Bool :=
  (SMap.get {} s.host.ringx r).taken != 0 || s.txnBusyWith r

/-- RING_STOP_DONE (R503): once the work already taken is finished, the device-side index is written back
and the ring is OFF; after an error or a Function Level Reset enable reads 0, and a restart that is pending
begins. -/
def execRingStopDone (r : Fin 2112) (s : State) : Res :=
  if s.ringState r ≠ 3 ∨ s.ringBusy r then go s
  else
    let s := s.ringWriteBack r (if hostPosted r then s.ringCidx r else s.ringPidx r)
    let failed := s.ringErr r != 0 && !s.flag .pci_RING_STATUS [r] f_pci_RING_STATUS_restart_pending
    let s := s.when failed (·.setFlag .pci_RING_CFG [r] f_pci_RING_CFG_enable false)
    let s := s.lcStopDone (ringLc r)
    go (s.ringChanged r)

/-- A device read failed: it is reported through AER, and DMA_ERR is posted with the register block of the ring's status
(R22, R489, R498, R512). DEDUCED, log entry 11. -/
def State.dmaErr (s : State) (r : Nat) (status : BitVec 8) : State :=
  let s := s.emit (.aer (s.ringOwner r).1 status.toNat)
  let (loc, addr) := accessLoc (some (Reg.addr .pci_RING_STATUS [r]))
  s.postEventAt 0x00A loc addr (natLE 2 r ++ [status])

/-- The completion fields of a punt descriptor (R514): bytes 16-31. -/
def State.puntComplete (s : State) (r written status : Nat) (seq : Word) : State :=
  let a := s.ringEntryAddr r (s.ringCidx r) + 16
  (s.ringWrite r a (natLE 4 written ++ natLE 4 status ++ natLE 8 seq.toNat)).ringDone r

/-- The completion fields of an inject descriptor (R516): the sequence number taken at bytes 16-23 and the
status at byte 56. -/
def State.injectComplete (s : State) (r : Nat) (seq : Word) (status : Nat) : State :=
  let a := s.ringEntryAddr r (s.ringCidx r)
  let s := s.ringWrite r (a + 16) (natLE 8 seq.toNat)
  (s.ringWrite r (a + 56) (natLE 1 status)).ringDone r

/-- DMA_READ_ERROR (R489, R498, R514, R516): DMA_ERR is posted; a failed descriptor read stops the ring
with DMA_READ, a failed punt or inject buffer read fails only its descriptor, and a failed batch read is
the batch's. -/
def execDmaReadError (r : Fin 2112) (use : DmaUse) (status : BitVec 8) (s : State) : Res :=
  if s.ringState r < 2 then go s
  else
    let s := s.dmaErr r status
    match use with
    | .batch => go s
    | .buffer =>
      if s.ringFill r = 0 then go s
      else if 64 ≤ r.val ∧ r.val < 1088 then
        let (seq, s) := s.free
        go (s.puntComplete r 0 3 seq)
      else if 1088 ≤ r.val ∧ (SMap.get {} s.host.ringx r.val).taken = 0 then go (s.injectComplete r 0 5)
      else go s
    | .descriptor => go (s.ringStopErr r 2)

/-- COALESCE_TIMER (R499): coal_timer µs after the first entry since the last message, the ring sends its
MSI-X message. DESIGN CHOICE, log entry 2. -/
def execCoalesceTimer (r : Fin 2112) (s : State) : Res :=
  let x := SMap.get {} s.host.ringx r.val
  let t := s.fld .pci_RING_CFG [r.val] f_pci_RING_CFG_coal_timer
  if x.coal ≠ 0 ∧ t ≠ 0 ∧ s.passed x.coalSince (t * cyclesPerUs) then
    let (fn, vec) := s.ringOwner r
    go ((s.modRingx r fun x => { x with coal := 0 }).sendMsix fn vec)
  else go s

/-- A ring range of VF_RINGS, and whether ring `i` lies in it. -/
def inRange (base count i : Nat) : Bool := decide (base ≤ i) && decide (i < base + count)

/-- Whether a VF_RINGS write is refused (R502): a range runs past ring 1,023, a ring would belong to two
VFs, or a ring added or removed is not OFF. `v` counts from 0 for VF 1. -/
def State.vfRingsRefused (s : State) (v : Nat) (w : Word) : Bool :=
  let old := s.rd .pci_VF_RINGS [v]
  let bad (base count : Fld) (first : Nat) : Bool :=
    let b := base.get w
    let n := count.get w
    decide (1024 < b + n) ||
      (List.range 63).any (fun u => u != v &&
        (let b' := s.fld .pci_VF_RINGS [u] base
         let n' := s.fld .pci_VF_RINGS [u] count
         decide (n ≠ 0) && decide (n' ≠ 0) && decide (b < b' + n') && decide (b' < b + n))) ||
      (List.range 1024).any (fun i =>
        inRange b n i != inRange (base.get old) (count.get old) i && s.ringState (first + i) != 0)
  bad f_pci_VF_RINGS_punt_base f_pci_VF_RINGS_punt_count 64 ||
    bad f_pci_VF_RINGS_inject_base f_pci_VF_RINGS_inject_count 1088

/-- A write of VF_RINGS (R502). -/
def State.vfRingsWrite (s : State) (a : Access) (v : Nat) (w : Word) : State :=
  if s.vfRingsRefused v w then s.accessError 4 a
  else s.wr .pci_VF_RINGS [v] (w &&& (f_pci_VF_RINGS_inject_count.mask ||| f_pci_VF_RINGS_inject_base.mask |||
    f_pci_VF_RINGS_punt_count.mask ||| f_pci_VF_RINGS_punt_base.mask))

/-- VF_RINGS_WRITE (R502, R505). -/
def execVfRingsWrite (v : Fin 63) (w : Word) (s : State) : Res :=
  go (s.when s.barsOpen (·.vfRingsWrite (regAccess .pci_VF_RINGS [v.val]) v w))

/-- A Function Level Reset reaches one ring: err_code FLR, and the ring stops and sends no message for what it
completed before (R504). DEDUCED, log entry 13. -/
def State.ringFlr (s : State) (r : Nat) : State :=
  if s.ringState r = 0 then s
  else
    let starting := s.ringState r == 1
    let s := s.modRingx r fun x => { x with coal := 0, flr := starting }
    (s.setFld .pci_RING_STATUS [r] f_pci_RING_STATUS_err_code 3).ringRequest r false

/-- A Function Level Reset stops every ring the function owns, and its MSI-X table returns to its reset contents; a batch
of its rings already taken runs to its end, counted in TXN_STATUS, with its writes discarded by the ring's err_code
(R504, R234). DEDUCED, log entry 13. -/
def State.functionReset (s : State) (fn : Fn) : State :=
  let s := s.each (List.range 2112) fun s r =>
    if ringUsed r && (s.ringOwner r).1 == fn then s.ringFlr r else s
  { s with host := { s.host with msix := s.host.msix.filter fun e => e.1 / 4096 != fnKey fn } }

/-- FLR (R504). DEDUCED, log entry 11. -/
def execFlr (fn : Fn) (s : State) : Res := go (s.functionReset fn)

/-- PERST (R504, R615): the endpoint and every ring are reset, as by a Function Level Reset of all
functions; the MSI-X tables, which are the endpoint's, return to their reset contents. -/
def execPerst (s : State) : Res :=
  let s := s.each (List.range 2112) fun s r => if ringUsed r then s.ringFlr r else s
  go { s with host := { s.host with perst := true, msix := [] } }

/-- PERST_RELEASE (R505): the endpoint is out of reset and answers configuration requests. -/
def execPerstRelease (s : State) : Res := go { s with host := { s.host with perst := false } }

/-- A vector is unmasked; a message that is pending is sent (R499). PRESUMED, log entry 10. -/
def State.msixUnmask (s : State) (fn : Fn) (vec : Nat) : State :=
  let k := fnKey fn * 4096 + vec
  let e := SMap.get {} s.host.msix k
  let s := { s with host := { s.host with
    msix := SMap.put {} s.host.msix k { e with masked := false, pend := false } } }
  if e.pend then s.emit (.msix fn vec e.addr e.data) else s

/-- MSIX_VECTOR_UNMASK (R499). PRESUMED, log entry 10. -/
def execMsixVectorUnmask (fn : Fn) (vec : Fin 2048) (s : State) : Res := go (s.msixUnmask fn vec)

end Sys2Proof.Machine
end

