-- ==== Sys2Proof/Machine/ResetOps.lean ====
section
/-! DEFINITION. What resets leave (chapter 17, R615 to R617; R525, R534), and the requests of power
domains that other units make (R612, R622). -/

namespace Sys2Proof.Machine

/-- The registers kept by an operation that clears the device: those whose offset satisfies `keep`. -/
def keepRegs (keep : Nat → Bool) (m : SMap Word) : SMap Word := m.filter fun p => keep p.1

/-- A device reset (R615, R616): both dies and every domain except the always-on logic of PD00, all
registers and memories. Flash, fuses and RESET_CAUSE are kept, and so are the pins' own levels, the JTAG
TAP, which only a power-on reset reaches (R635), and THERMTRIP_N. Log entries that wait for flash and calendar time
last as long as the power does (R536, R539). The serve's driver is off and the net keeps
its level. The reset is held until its release. DESIGN CHOICE, log entry 59. -/
def State.deviceReset (s : State) (cause : Nat) : State :=
  let r := s.rd .cpr_RESET_CAUSE []
  let base : State := State.reset
  let s' : State :=
    { base with
      pending := s.pending, cycle := s.cycle, freeCount := s.freeCount, out := s.out
      flash := s.flash, fused := s.fused
      mgmt := { base.mgmt with logWait := s.mgmt.logWait, calendar := s.mgmt.calendar }
      host := { base.host with perst := s.host.perst }
      pwr := { base.pwr with
        pwrGood := s.pwr.pwrGood, pwrAt := s.pwr.pwrAt, pllLocked := s.pwr.pllLocked, inReset := true
        thermTrip := s.pwr.thermTrip, serveNet := s.pwr.serveNet, resetPin := s.pwr.resetPin
        jtagIr := s.pwr.jtagIr, jtagBsr := s.pwr.jtagBsr, jtagPins := s.pwr.jtagPins } }
  let s' := (s'.wr .cpr_RESET_CAUSE [] r).wr .glb_IDENT [] (s.rd .glb_IDENT [])
  let s' := s'.addSat .cpr_RESET_CAUSE [] f_cpr_RESET_CAUSE_device_resets 1
  s'.setFld .cpr_RESET_CAUSE [] f_cpr_RESET_CAUSE_cause cause

/-- A power-on reset (R615): everything but the flash's contents and the fuses. DESIGN CHOICE, log entry 59. -/
def State.powerOnReset (s : State) : State :=
  let base : State := State.reset
  let s' : State := { base with
    pending := s.pending, cycle := s.cycle, freeCount := s.freeCount, out := s.out
    flash := s.flash, fused := s.fused
    host := { base.host with perst := s.host.perst }
    pwr := { base.pwr with serveNet := s.pwr.serveNet } }
  s'.wr .glb_IDENT [] (s.rd .glb_IDENT [])

/-- The lifecycle state fields of every function outside PD00, by offset, with the bits they hold. -/
def lifecycleMask (off : Nat) : Option Word :=
  match findReg off with
  | some (.fpc_CL_STATUS, _) => some (f_fpc_CL_STATUS_state.mask ||| f_fpc_CL_STATUS_stop_pending.mask |||
      f_fpc_CL_STATUS_restart_pending.mask)
  | some (.lmac_PORT_STATUS, _) => some (f_lmac_PORT_STATUS_state.mask |||
      f_lmac_PORT_STATUS_stop_pending.mask ||| f_lmac_PORT_STATUS_restart_pending.mask |||
      f_lmac_PORT_STATUS_link_up.mask)
  | some (.fab_LANE_STATUS, _) => some f_fab_LANE_STATUS_state.mask
  | some (.fe_hmc_CH_STATUS, _) => some (f_fe_hmc_CH_STATUS_state.mask |||
      f_fe_hmc_CH_STATUS_stop_pending.mask ||| f_fe_hmc_CH_STATUS_restart_pending.mask)
  | some (.tm_hmc_CH_STATUS, _) => some (f_tm_hmc_CH_STATUS_state.mask |||
      f_tm_hmc_CH_STATUS_stop_pending.mask ||| f_tm_hmc_CH_STATUS_restart_pending.mask)
  | some (.pci_RING_STATUS, _) => some (f_pci_RING_STATUS_state.mask |||
      f_pci_RING_STATUS_stop_pending.mask ||| f_pci_RING_STATUS_restart_pending.mask)
  | some (.gkp_TASK_STATUS, _) => some (f_gkp_TASK_STATUS_state.mask |||
      f_gkp_TASK_STATUS_stop_pending.mask ||| f_gkp_TASK_STATUS_restart_pending.mask)
  | some (.twn_STATUS, _) => some (f_twn_STATUS_state.mask ||| f_twn_STATUS_stop_pending.mask |||
      f_twn_STATUS_restart_pending.mask ||| f_twn_STATUS_serve.mask ||| f_twn_STATUS_log_source.mask |||
      f_twn_STATUS_lanes_up.mask)
  | some (.twn_RALLY_LANE, _) => some f_twn_RALLY_LANE_state.mask
  | some (.d2d_MOD_STATUS, _) => some f_d2d_MOD_STATUS_state.mask
  | some (.cpr_PD_STATUS, [0]) => none
  | some (.cpr_PD_STATUS, _) => some (f_cpr_PD_STATUS_state.mask ||| f_cpr_PD_STATUS_stop_pending.mask |||
      f_cpr_PD_STATUS_restart_pending.mask ||| f_cpr_PD_STATUS_waiting.mask)
  | _ => none

/-- Every power domain but PD00 is switched OFF by hardware, every function of them OFF without a
transition, and what the data path held is lost (R534, R615). Management state and registers stay. -/
def State.allDomainsOff (s : State) : State :=
  let base : State := State.reset
  let regs := s.regs.filterMap fun p =>
    match lifecycleMask p.1 with
    | some m =>
      let v := p.2 &&& ~~~ m
      let dflt := match findReg p.1 with
        | some (r, ix) => r.resetValue ix
        | none => 0
      if v = dflt then none else some (p.1, v)
    | none => some p
  let s' : State := { base with
    pending := s.pending, cycle := s.cycle, freeCount := s.freeCount, out := s.out, regs
    flash := s.flash, fused := s.fused, boot := s.boot, mgmt := s.mgmt
    host := { base.host with perst := s.host.perst, eseq := s.host.eseq, msix := s.host.msix }
    cnt := s.cnt
    pwr := { s.pwr with pdWait := [], pdSlot := none, serveOut := false } }
  s'.d2dRefresh

/-- Where a power domain keeps its lifecycle (R614). -/
def pdLc (n : Nat) : LcReg :=
  ⟨.cpr_PD_STATUS, [n], f_cpr_PD_STATUS_state, f_cpr_PD_STATUS_restart_pending,
    f_cpr_PD_STATUS_stop_pending⟩

/-- PD_STATE after a change of a domain's state (R624). -/
def State.pdEvent (s : State) (n : Nat) : State :=
  s.postEvent 0x1C0 (natLE 1 n ++ natLE 1 (s.lc (pdLc n)))

/-- A domain that begins STARTING waits for the ramp slot in the order of the requests (R612). -/
def State.pdBegin (s : State) (n : Nat) : State :=
  let s := s.setFlag .cpr_PD_STATUS [n] f_cpr_PD_STATUS_waiting true
  let s := { s with pwr := { s.pwr with
    pdWait := s.pwr.pdWait ++ [n], pdSince := SMap.put 0 s.pwr.pdSince n s.cycle } }
  s.pdEvent n

/-- A request for ON of a domain (R612, R620, R622). PD00 is always ON. -/
def State.pdRequestOn (s : State) (n : Nat) : State :=
  if n = 0 then s
  else
    let s := s.setFlag .cpr_PD_CTRL [n] f_cpr_PD_CTRL_enable true
    match s.lcRequest (pdLc n) true true with
    | (s, .beginStart) => s.pdBegin n
    | (s, _) => s

/-- A write of 1 to the enable of a function whose domain is OFF or STOPPING requests ON of the domain
(R622). -/
def State.pdWanted (s : State) (n : Nat) : State :=
  if s.lc (pdLc n) = 0 ∨ s.lc (pdLc n) = 3 then s.pdRequestOn n else s

end Sys2Proof.Machine
end

