-- ==== Sys2Proof/Machine/Mgmt.lean ====
section
/-! DEFINITION. The mailbox, sensors, log, lifetime record, supply and groundskeeper (chapter 14, R530 to
R543) and the watchdog (R619). -/

namespace Sys2Proof.Machine

/-! ### Erases, events of the firmware and the calendar (R532, R538, R539) -/

/-- Erases of `n` sectors from `first` on, counted in the lifetime record (R538). DESIGN CHOICE, log entry 64. -/
def State.countErases (s : State) (first n : Nat) : State :=
  { s with mgmt := { s.mgmt with
      life := { s.mgmt.life with flashErases := SMap.modify 0 s.mgmt.life.flashErases (first * 65536 + n) (· + 1) } } }

/-- The erase count of a sector (R538). DESIGN CHOICE, log entry 64. -/
def Life.eraseCount (l : Life) (sector : Nat) : Nat :=
  ((l.flashErases.filter fun (e : Nat × Nat) =>
    decide (e.1 / 65536 ≤ sector) && decide (sector < e.1 / 65536 + e.1 % 65536)).map (·.2)).foldl (· + ·) 0

/-- The month number of the service life by powered time (R538). DESIGN CHOICE, log entry 51. -/
def State.lifeMonth (s : State) : Nat := min 239 (s.poweredS / 2592000)

/-- A management event is posted by the firmware; while it restarts the event waits (R532, R537).
DESIGN CHOICE, log entry 57. -/
def State.fwPost (s : State) (code : Nat) (loc addr : Word) (data : List Byte) : State :=
  if s.boot.mgmtUp || s.fld .glb_BOOT_STATUS [] f_glb_BOOT_STATUS_stage != 7 then s.postEventAt code loc addr data
  else { s with mgmt := { s.mgmt with held := s.mgmt.held ++ [(code, loc, addr, data)] } }

/-- Calendar time is known from this moment, from the host (0) or through PTP (1): in the first power cycle it tells the
time of the first power-on as well (R537 to R539). DESIGN CHOICE, log entry 51. -/
def State.calendarSet (s : State) (t source : Nat) : State :=
  let life := s.mgmt.life
  let up := (s.cycle - s.pwr.pwrAt) / 2000000000
  let life := { life with
    lastCalendar := t
    firstPowerOn := if life.firstPowerOn = 0 ∧ life.powerCycles ≤ 1 then t - up else life.firstPowerOn }
  { s with mgmt := { s.mgmt with calendar := some (t, s.cycle), life } }.postEvent 0x130 (natLE 8 t ++ natLE 1 source)

/-- BOOT_STATUS as it reads: elapsed is the seconds since power-good (R494). -/
def State.bootStatus (s : State) : Word :=
  f_glb_BOOT_STATUS_elapsed.set (s.rd .glb_BOOT_STATUS []) (min 0xFFFF ((s.cycle - s.pwr.pwrAt) / 2000000000))

/-! ### The flash's two-copy records -/

/-- The header the boot ROM uses: the valid copy with the higher sequence number, else slot A with
boot_fail_count 0 (R520). -/
def State.header (s : State) : Hdr :=
  match s.flash.hdr0, s.flash.hdr1 with
  | some a, some b => if a.seq < b.seq then b else a
  | some a, none => a
  | none, some b => b
  | none, none => {}

/-- A changed header is written to the older copy with the next sequence number (R520). -/
def State.writeHeader (s : State) (h : Hdr) : State :=
  let s := s.countErases 0 1
  let h := { h with seq := s.header.seq + 1 }
  let first := match s.flash.hdr0, s.flash.hdr1 with
    | some a, some b => decide (a.seq < b.seq)
    | none, _ => true
    | some _, none => false
  if first then { s with flash := { s.flash with hdr0 := some h } }
  else { s with flash := { s.flash with hdr1 := some h } }

/-- The slot fields of a header: state, held reason, digest and security version of slot `b` (false A). -/
def Hdr.slotState (h : Hdr) (b : Bool) : Nat := if b then h.stateB else h.stateA
def Hdr.secver (h : Hdr) (b : Bool) : Nat := if b then h.secverB else h.secverA
def Hdr.setSlot (h : Hdr) (b : Bool) (st reason : Nat) : Hdr :=
  if b then { h with stateB := st, reasonB := reason } else { h with stateA := st, reasonA := reason }
def Hdr.setImage (h : Hdr) (b : Bool) (digest : BitVec 384) (secver : Nat) : Hdr :=
  if b then { h with digestB := digest, secverB := secver } else { h with digestA := digest, secverA := secver }

/-- SLOT_STATUS shows the header's slot fields and the fused version (R567). -/
def State.showSlots (s : State) : State :=
  let h := s.header
  let s := s.setFld .mgs_SLOT_STATUS [] f_mgs_SLOT_STATUS_fused s.fused
  let s := s.setFld .mgs_SLOT_STATUS [] f_mgs_SLOT_STATUS_running_secver
    ((s.boot.image.map fun i => i.secver.val).getD 0)
  let s := s.setFlag .mgs_SLOT_STATUS [] f_mgs_SLOT_STATUS_active h.active
  let s := s.setFld .mgs_SLOT_STATUS [] f_mgs_SLOT_STATUS_reason_b h.reasonB
  let s := s.setFld .mgs_SLOT_STATUS [] f_mgs_SLOT_STATUS_state_b h.stateB
  let s := s.setFld .mgs_SLOT_STATUS [] f_mgs_SLOT_STATUS_reason_a h.reasonA
  s.setFld .mgs_SLOT_STATUS [] f_mgs_SLOT_STATUS_state_a h.stateA

/-- The sequence number of a valid settings copy. -/
def Settings.seqOf : Settings → Option Nat
  | .valid _ n _ => some n
  | _ => none

/-- The settings the firmware reads: the valid copy with the higher sequence (R561). -/
def State.settings (s : State) : Settings :=
  match s.flash.set0.seqOf, s.flash.set1.seqOf with
  | some a, some b => if a < b then s.flash.set1 else s.flash.set0
  | some _, none => s.flash.set0
  | none, some _ => s.flash.set1
  | none, none => s.flash.set0

/-- The records of the settings in use. -/
def State.settingsRecords (s : State) : List (Nat × List Byte) :=
  match s.settings with
  | .valid _ _ r => r
  | _ => []

/-- The schema settings are written in: before acceptance the one they were read in, afterwards the running
image's own (R562). -/
def State.writeSchema (s : State) : BitVec 16 :=
  let own := (s.boot.image.map (·.schema)).getD 0
  if s.boot.accepted then own else s.boot.readSchema.getD own

/-- A change of the settings is written to the older copy, with the next sequence (R561).
DESIGN CHOICE, log entry 58. -/
def State.writeOlder (s : State) (schema : BitVec 16) (records : List (Nat × List Byte)) : State :=
  let n := max (s.flash.set0.seqOf.getD 0) (s.flash.set1.seqOf.getD 0)
  let new := Settings.valid schema (n + 1) records
  if s.flash.set0.seqOf.getD 0 ≤ s.flash.set1.seqOf.getD 0 then
    { s with flash := { s.flash with set0 := new } }.countErases 0x1401 1
  else { s with flash := { s.flash with set1 := new } }.countErases 0x1411 1

/-- New records written to both settings copies, the older copy first (R524, R530, R562, R564).
DESIGN CHOICE, log entry 58. -/
def State.writeSettings (s : State) (schema : BitVec 16) (records : List (Nat × List Byte)) : State :=
  (s.writeOlder schema records).writeOlder schema records

/-- The settings are left untouched: safe mode with fail_code SETTINGS (R563). -/
def State.settingsHeld (s : State) : Bool :=
  s.fld .glb_BOOT_STATUS [] f_glb_BOOT_STATUS_stage == 8 &&
    s.fld .glb_BOOT_STATUS [] f_glb_BOOT_STATUS_fail_code == 0x20

/-! ### The mailbox -/

/-- The answer to a command: its effect, status, detail (R553), inline bytes 16-63 and buffer data. -/
structure MboxReply where
  state : State
  status : Nat := 0
  detail : Nat := 0
  inline : List Byte := []
  buffer : Option (List Byte) := none

/-- The sequence of start-up has the firmware serving commands. -/
def State.mgmtServes (s : State) : Bool := s.boot.mgmtUp

/-- The 64-byte response record (R530, R552). -/
def mboxRecord (opcode : Nat) (d : MboxDesc) (status detail len : Nat) (inline : List Byte) : List Byte :=
  natLE 4 d.tag.toNat ++ natLE 2 opcode ++ natLE 1 status ++ natLE 1 detail ++ natLE 8 len ++ padTo 48 inline

/-- The bytes of a buffer that fit the descriptor's length (R530). -/
def mboxFit (d : MboxDesc) (bs : List Byte) : List Byte := bs.take d.len.toNat

/-- The firmware takes a command from a source now (R530, R549). -/
def State.commandReady (s : State) (src : Nat) : Bool :=
  s.mgmtServes && (if src = 0 then s.ringWorks 42 && decide (s.ringFill 42 ≠ 0) else s.pdOn 1 && decide (src < 5))

/-- A descriptor keeps the layout of R530. -/
def mboxWell (d : MboxDesc) : Bool := d.restZero && decide (d.buf.toNat % 64 = 0)

/-- One command from a source (R530, R549): source 0 is the mailbox, whose ring must be ON and hold the
descriptor; sources 1-4 are management-port connections; source 5, the partner, sends PIECE records and no command. A
descriptor with a bad layout is answered BAD_DESC. -/
def State.command (s : State) (src opcode : Nat) (d : MboxDesc) (body : State → MboxReply) : State :=
  if !s.commandReady src then s
  else
    let r : MboxReply := if mboxWell d then body s else { state := s, status := 1 }
    let len := (r.buffer.map (·.length)).getD 0
    let rec' := mboxRecord opcode d r.status r.detail len r.inline
    let data := mboxFit d (r.buffer.getD [])
    if src = 0 then
      let s := if data = [] then r.state else r.state.ringWrite 43 d.buf data
      (s.ringPut 43 rec').ringDone 42
    else r.state.emit (.mgmtReply src rec' data)

/-- An argument byte (bytes 20-31 of the descriptor). -/
def mboxArg (d : MboxDesc) (i : Nat) : Nat := (d.args.toNat / 2 ^ (8 * i)) % 256

/-- The first 16 bytes of a digest. -/
def digest16 (d : BitVec 384) : List Byte := (natBE 48 d.toNat).take 16

/-- GET_INFO (R530): BOOT_STATUS, the slots' digests cut to 16 bytes and the playbook's step_id. -/
def execGetInfo (d : MboxDesc) (s : State) : Res :=
  go <| s.command 0 0x01 d fun s =>
    let h := s.header
    { state := s
      inline := natLE 8 s.bootStatus.toNat ++ digest16 h.digestA ++ digest16 h.digestB ++
        natLE 8 ((s.boot.playbook.map fun (p : PlaybookInfo) => p.stepId).getD 0).toNat }

/-- A management restart begins: the management cores stop serving (R532, R617). -/
def State.mgmtRestartBegin (s : State) : State :=
  let s := s.addSat .cpr_RESET_CAUSE [] f_cpr_RESET_CAUSE_mgmt_restarts 1
  { s with boot := { s.boot with mgmtUp := false }, mgmt := { s.mgmt with applying := false } }

/-- A device reset by RESTART: an in-step source tells its partner first, which leaves step with cause PEER (R531). -/
def State.restartReset (s : State) : State := (s.when s.isSource (·.stepEnd 1)).deviceReset 2

/-- RESTART (R530, R531, R532): the response is written, then a device reset or a management restart begins,
with the playbook it names. -/
def execRestart (d : MboxDesc) (s : State) : Res :=
  let pb := mboxArg d 0
  let kind := mboxArg d 1
  let ok := (decide (pb < 4) || pb == 0xFF) && decide (kind < 2)
  let taken := s.commandReady 0 && mboxWell d
  let s := s.command 0 0x02 d fun s => { state := s, status := if ok then 0 else 2 }
  if !(ok && taken) then go s
  else if kind = 1 then go s.mgmtRestartBegin
  else
    let s := s.restartReset
    go { s with boot := { s.boot with named := if pb < 4 then some (Fin.ofNat 4 pb) else none } }

/-- SET_OVERRIDE (R530, R561): the next-boot override in both settings copies. -/
def execSetOverride (d : MboxDesc) (s : State) : Res :=
  go <| s.command 0 0x03 d fun s =>
    let p := mboxArg d 0
    if ¬ (p < 4 ∨ p = 0xFF) then { state := s, status := 2 }
    else if s.settingsHeld then { state := s, status := 4 }
    else
      let rest := s.settingsRecords.filter fun r => r.1 != 1
      let records := if p < 4 then (1, natLE 1 p) :: rest else rest
      { state := s.writeSettings s.writeSchema records }

/-- SET_TIME (R530, R539): calendar time is known from this moment. -/
def execSetTime (d : MboxDesc) (s : State) : Res :=
  go <| s.command 0 0x04 d fun s =>
    let t := d.args.toNat % 2 ^ 64
    { state := s.calendarSet t 0 }

/-- LOG_READ (R530): entries from a sequence number on, oldest first, from the on-die or the flash ring. -/
def execLogRead (d : MboxDesc) (s : State) : Res :=
  go <| s.command 0 0x05 d fun s =>
    let first := d.args.toNat % 2 ^ 32
    let which := mboxArg d 4
    let entries := if which = 0 then s.mgmt.log else (s.flash.log.map (·.2)).mergeSort fun a b => a.seq ≤ b.seq
    if 1 < which then { state := s, status := 2 }
    else { state := s, buffer := some ((entries.filter fun e => first ≤ e.seq).flatMap LogEntry.bytes) }

/-- The scalar fields of the lifetime record (R538); the spec gives the fields and no byte layout. -/
def Life.scalars (l : Life) : List Nat :=
  [l.poweredS, l.hotHours, l.thermalCycles, l.powerCycles, if l.poweredS = 0 then 0 else l.tjSum / l.poweredS,
   l.avsTarget, l.firstPowerOn, l.lastCalendar, l.deepTai, l.yearTai, l.logSeq] ++
    l.retiredModules ++ (l.avsSteps.flatMap fun p => [p.1, p.2]) ++ l.memRepairs.map (·.toNat) ++
    (l.serdesMargin ++ l.hbmCorrected ++ l.hbmFreezes ++ l.hbmTrainFail ++ l.hbmLaneRepair ++ l.flashErases ++
      l.cores).flatMap fun p => [p.1, p.2]

/-- LIFE_READ (R530): the lifetime record copied to the buffer, in the implementation's layout.
DESIGN CHOICE, log entry 64. -/
def execLifeRead (d : MboxDesc) (s : State) : Res :=
  go <| s.command 0 0x06 d fun s => { state := s, buffer := some (Config.lifeBytes s.mgmt.life.scalars) }

/-- SENSOR_READ (R530, R533): every sensor's value in order. DESIGN CHOICE, log entry 63. -/
def execSensorRead (d : MboxDesc) (s : State) : Res :=
  go <| s.command 0 0x07 d fun s =>
    { state := s
      buffer := some ((List.range 158).flatMap fun i =>
        natLE 2 (s.fld .mgs_SENSOR [i] f_mgs_SENSOR_value)) }

/-- The opcodes the mailbox lists (R530, R552). -/
def mboxListed (op : Nat) : Bool := (decide (1 ≤ op) && decide (op ≤ 7)) || (decide (0x40 ≤ op) && decide (op ≤ 0x48))

/-- MAILBOX_UNKNOWN_OPCODE (R530): an unlisted opcode is answered UNKNOWN. -/
def execMailboxUnknownOpcode (opcode : BitVec 16) (d : MboxDesc) (s : State) : Res :=
  if mboxListed opcode.toNat then go s
  else go (s.command 0 opcode.toNat d fun s => { state := s, status := 6 })

/-! ### Sensors -/

/-- The junction temperature a thermal state is entered at, in 0.125 °C (R534). -/
def thermEntry : Nat → Nat
  | 0 => 0
  | 1 => 800
  | 2 => 840
  | _ => 920

/-- The thermal state after a sample of the hottest junction: the highest state whose entry threshold is
reached, or the present one while the temperature is above 3 °C below its threshold (R534). -/
def thermNext (old hot : Nat) : Nat :=
  let entered := if 920 ≤ hot then 3 else if 840 ≤ hot then 2 else if 800 ≤ hot then 1 else 0
  let kept := if 2 ≤ old ∧ 840 < hot + 24 then 2 else if 1 ≤ old ∧ 800 < hot + 24 then 1 else 0
  max entered kept

/-- The hottest of sensors 0-47: its index (the lowest where several are equal) and value (R534).
DESIGN CHOICE, log entry 63. -/
def State.hottest (s : State) : Nat × Nat :=
  (List.range 48).foldl (fun (best : Nat × Nat) i =>
    let v := s.fld .mgs_SENSOR [i] f_mgs_SENSOR_value
    if best.2 < v then (i, v) else best) (0, s.fld .mgs_SENSOR [0] f_mgs_SENSOR_value)

/-- The lifetime record brought up to date (R538): powered seconds, the mean temperature, hot hours and
thermal cycles. -/
def State.lifeAdvance (s : State) : State :=
  let n := (s.cycle - s.mgmt.lifeAt) / 2000000000
  let hot := s.hottest.2
  let l := s.mgmt.life
  let hotS := if 760 < hot then s.mgmt.hotS + n else s.mgmt.hotS
  let newHour := decide ((l.poweredS + n) / 3600 ≠ l.poweredS / 3600)
  let low := if s.mgmt.tjHigh = 0 then hot else min s.mgmt.tjLow hot
  let high := max s.mgmt.tjHigh hot
  let cyc := decide (low + 320 ≤ high)
  { s with mgmt := { s.mgmt with
      lifeAt := s.mgmt.lifeAt + n * 2000000000
      hotS := if newHour then 0 else hotS
      tjLow := if cyc then hot else low
      tjHigh := if cyc then hot else high
      life := { l with
        poweredS := l.poweredS + n
        tjSum := l.tjSum + n * hot
        hotHours := l.hotHours + (if newHour && decide (1800 < hotS) then 1 else 0)
        thermalCycles := l.thermalCycles + (if cyc then 1 else 0) } } }

/-- The thermal state is re-evaluated (R534). -/
def State.thermEval (s : State) : State :=
  let (i, hot) := s.hottest
  let old := s.fld .mgs_THERM [] f_mgs_THERM_state
  let new := thermNext old hot
  let s := s.setFld .mgs_THERM [] f_mgs_THERM_hottest i
  if s.mgmt.tripped then s
  else if new = 3 then
    let s := s.allDomainsOff
    { s with mgmt := { s.mgmt with tripped := true }, pwr := { s.pwr with thermTrip := true } }
  else
    let s := s.setFld .mgs_THERM [] f_mgs_THERM_state new
    let s := if old < 1 ∧ new = 1 then s.fwPost 0x110 0 0 (natLE 1 i ++ natLE 2 hot) else s
    if old ≠ 2 ∧ new = 2 then s.fwPost 0x111 0 0 (natLE 1 i ++ natLE 2 hot ++ natLE 1 1)
    else if old = 2 ∧ new ≠ 2 then s.fwPost 0x111 0 0 (natLE 1 i ++ natLE 2 hot ++ natLE 1 0)
    else s

/-- SENSOR_SAMPLE (R533, R534, R535): a sampled sensor takes its value, max keeps the highest, and a junction
temperature re-evaluates the thermal state. Droop detectors (136-151) are not sampled. DESIGN CHOICE, log entry 63. -/
def execSensorSample (i : Fin 158) (v : BitVec 16) (s : State) : Res :=
  if 136 ≤ i.val ∧ i.val < 152 then go s
  else if !s.pdOn 23 then go s
  else
    let s := s.lifeAdvance
    let s := s.setFld .mgs_SENSOR [i] f_mgs_SENSOR_value v.toNat
    let s := s.setFld .mgs_SENSOR [i] f_mgs_SENSOR_max (max v.toNat (s.fld .mgs_SENSOR [i] f_mgs_SENSOR_max))
    go (if i.val < 48 then s.thermEval else s)

/-- The droop threshold in mV as it acts: 10 to 100 (R535). DESIGN CHOICE, log entry 63. -/
def State.droopMv (s : State) : Nat := max 10 (min 100 (s.fld .mgs_THERM [] f_mgs_THERM_droop_mv))

/-- DROOP_DETECT (R533 to R535): the supply stood `drop` mV below target for `ns` nanoseconds; past the threshold for
more than 2 ns the detector's count rises, and DROOP is posted at most once per second. DESIGN CHOICE, log entry 63. -/
def execDroopDetect (i : Fin 16) (s : State) (drop : BitVec 16 := 0xFFFF) (ns : BitVec 16 := 0xFFFF) : Res :=
  if !(s.pdOn 23 && decide (s.droopMv < drop.toNat) && decide (2 < ns.toNat)) then go s
  else
    let k := 136 + i.val
    let s := s.addSat .mgs_SENSOR [k] f_mgs_SENSOR_value 1
    let n := s.fld .mgs_SENSOR [k] f_mgs_SENSOR_value
    let s := s.setFld .mgs_SENSOR [k] f_mgs_SENSOR_max (max n (s.fld .mgs_SENSOR [k] f_mgs_SENSOR_max))
    let last := SMap.get 0 s.mgmt.droopAt i.val
    if last = 0 ∨ s.passed (last - 1) 2000000000 then
      let s := { s with mgmt := { s.mgmt with droopAt := SMap.put 0 s.mgmt.droopAt i.val (s.cycle + 1) } }
      go (s.fwPost 0x112 0 0 (natLE 1 i.val ++ natLE 2 n))
    else go s

/-! ### Log and lifetime record in flash -/

/-- LOG_FLASH_WRITE (R536): the oldest entry waiting is written to the flash ring; before a new 64 KiB sector
is written, its 1,024 old entries are erased. The ring lies at flash offset 0x1421_0000. -/
def execLogFlashWrite (s : State) : Res :=
  match s.mgmt.logWait with
  | [] => go s
  | e :: rest =>
    let p := s.flash.logPos
    let sector := p / 1024
    let s := if p % 1024 = 0 then
        let log := s.flash.log.filter fun q => q.1 / 1024 != sector
        { s with flash := { s.flash with log } }.countErases (0x1421 + sector) 1
      else s
    go { s with
      mgmt := { s.mgmt with logWait := rest }
      flash := { s.flash with log := SMap.insert s.flash.log p e, logPos := (p + 1) % 262144 } }

/-- The lifetime record's valid half with the higher sequence number (R538). -/
def State.flashLife (s : State) : Option (Nat × Life) :=
  match s.flash.life0, s.flash.life1 with
  | some a, some b => if a.1 < b.1 then some b else some a
  | some a, none => some a
  | none, b => b

/-- A groundskeeper task is ON, and neither the thermal state nor a management restart pauses it; TCAM scrubbing needs no
firmware (R532, R534, R542, R543). -/
def State.taskRuns (s : State) (t : Nat) : Bool :=
  s.fld .gkp_TASK_STATUS [t] f_gkp_TASK_STATUS_state == 2 && (t == 1 || s.boot.mgmtUp) &&
    (t == 0 || t == 1 || t == 2 || t == 8 || s.fld .mgs_THERM [] f_mgs_THERM_state != 2)

/-- LIFETIME_WRITE (R538): every 600 s the record is written to the alternate half with the next sequence
number. -/
def execLifetimeWrite (s : State) : Res :=
  if !(s.taskRuns 7 && s.passed s.mgmt.lifeWrittenAt (600 * 2000000000)) then go s
  else
    let s := s.lifeAdvance
    let n := (s.flashLife.map (·.1)).getD 0 + 1
    let older0 := decide ((s.flash.life0.map (·.1)).getD 0 ≤ (s.flash.life1.map (·.1)).getD 0)
    let s := s.countErases (if older0 then 0x1521 else 0x1529) 8
    let copy := some (n, s.mgmt.life)
    let s := if older0 then { s with flash := { s.flash with life0 := copy } }
      else { s with flash := { s.flash with life1 := copy } }
    let s := s.addSat .gkp_TASK_STATUS [7] f_gkp_TASK_STATUS_passes 1
    go { s with mgmt := { s.mgmt with lifeWrittenAt := s.cycle } }

/-! ### Supply and retirement -/

/-- The lowest of the margins of the clusters (R540). DESIGN CHOICE, log entry 63. -/
def lowestMargin (ms : List (BitVec 16)) : Nat := ms.foldl (fun m x => min m x.toNat) 0xFFFF

/-- AVS_CHECK (R540, R541): every hour, a margin below 40 ps raises the core supply target by 5 mV up to
800 mV; a setting the regulator reports it cannot hold lowers it, to 620 mV at least. The clusters whose margin
stays low at 800 mV are noted. DESIGN CHOICE, log entry 63. -/
def execAvsCheck (margins : List (BitVec 16)) (unheld : Option (BitVec 16)) (s : State) : Res :=
  if !(s.taskRuns 7 && s.passed s.mgmt.lastAvs (3600 * 2000000000)) then go s
  else
    let s := { s with mgmt := { s.mgmt with lastAvs := s.cycle } }
    let old := s.mgmt.life.avsTarget
    let low := lowestMargin margins
    let new := match unheld with
      | some v => max 620 (min old v.toNat)
      | none => if low < 40 then min 800 (old + 5) else old
    let lows := (margins.zipIdx).foldl (fun m (p : BitVec 16 × Nat) =>
      if old = 800 ∧ p.1.toNat < 40 then
        (if SMap.get 0 m p.2 = 0 then SMap.put 0 m p.2 (s.cycle + 1) else m)
      else SMap.put 0 m p.2 0) s.mgmt.avsLow
    let s := { s with mgmt := { s.mgmt with avsLow := lows } }
    if new = old then go s
    else
      let life := { s.mgmt.life with avsTarget := new, avsSteps := s.mgmt.life.avsSteps ++ [(new, s.lifeMonth)] }
      let s := ({ s with mgmt := { s.mgmt with life } }).emit (.avsTarget new)
      go (if old < new then s.postEvent 0x121 (natLE 2 new ++ natLE 2 low) else s)

/-- A physical core is retired: entered in the lifetime record and reported (R541, R537). -/
def State.retireCore (s : State) (c phys cause : Nat) : State :=
  let life := { s.mgmt.life with cores := SMap.put 0 s.mgmt.life.cores (c * 32 + phys) (cause + 1) }
  ({ s with mgmt := { s.mgmt with life } }).fwPost 0x120 (locTile 4 4 0 c 1 phys) 0
    (natLE 1 c ++ natLE 1 phys ++ natLE 1 cause)

/-! ### The groundskeeper -/

/-- Where a groundskeeper task keeps its lifecycle (R543). -/
def taskLc (t : Nat) : LcReg :=
  ⟨.gkp_TASK_STATUS, [t], f_gkp_TASK_STATUS_state, f_gkp_TASK_STATUS_restart_pending,
    f_gkp_TASK_STATUS_stop_pending⟩

/-- Tasks start in stage 7; TCAM scrubbing runs from stage 0 (R543). PD23 holds the groundskeeper (R611). -/
def State.taskMayRun (s : State) (t : Nat) : Bool :=
  s.pdOn 23 && (t == 1 || s.fld .glb_BOOT_STATUS [] f_glb_BOOT_STATUS_stage == 7)

/-- A task is requested ON or OFF. -/
def State.taskRequest (s : State) (t : Nat) (on : Bool) : State :=
  (s.lcRequest (taskLc t) on (s.taskMayRun t)).1

/-- The cycle of rest of a task ends (R542, R620). -/
def State.taskRest (s : State) (t : Nat) : State := (s.lcRest (taskLc t) (s.taskMayRun t)).1

/-- A write of TASK_CFG (R543): tasks 9-15 hold no register, task 7 has retire_restart, and task 3 ignores
enable. -/
def State.taskCfgWrite (s : State) (t : Nat) (v : Word) : State :=
  if 9 ≤ t then s
  else
    let bits := if t = 7 then f_gkp_TASK_CFG_enable.mask ||| f_gkp_TASK_CFG_retire_restart.mask
      else f_gkp_TASK_CFG_enable.mask
    let s := s.wr .gkp_TASK_CFG [t] (v &&& bits)
    if t = 3 then s else s.taskRequest t (f_gkp_TASK_CFG_enable.get v == 1)

/-- TASK_ENABLE (R542, R543). -/
def execTaskEnable (t : Fin 16) (v : Word) (s : State) : Res := go (s.taskCfgWrite t v)

/-- TASK_START_DONE (R542). -/
def execTaskStartDone (t : Fin 9) (s : State) : Res :=
  if s.lc (taskLc t) = 1 then go (s.lcStartDone (taskLc t)) else go s

/-- TASK_STOP_DONE (R542): the task ends its current step and is OFF. -/
def execTaskStopDone (t : Fin 9) (s : State) : Res :=
  if s.lc (taskLc t) = 3 then go (s.lcStopDone (taskLc t)) else go s

/-- One step of a task: delayed by its budget and counted, or done, with the pass counted where the step
ends it (R542, R543). DESIGN CHOICE, log entries 15, 64. -/
def State.taskStep (s : State) (t : Nat) (overBudget lastOfPass : Bool) (f : State → State) : State :=
  if !s.taskRuns t then s
  else if overBudget then (s.addSat .gkp_TASK_STATUS [t] f_gkp_TASK_STATUS_delays 1).count1 318 5
  else
    let s := { s with mgmt := { s.mgmt with
      taskPos := SMap.put 0 s.mgmt.taskPos t (if lastOfPass then 0 else SMap.get 0 s.mgmt.taskPos t + 1) } }
    let s := f (s.count1 318 4)
    if lastOfPass then s.addSat .gkp_TASK_STATUS [t] f_gkp_TASK_STATUS_passes 1 else s

/-- One step of the deep scrub's pass over the SRAMs or the HBM, within task 8's budget; the pass over both is complete
once the last step of each is done (R542). DESIGN CHOICE, log entry 64. -/
def State.deepStep (s : State) (hbm overBudget last : Bool) (f : State → State) : State :=
  if !(if hbm then s.mgmt.deepHbm else s.mgmt.deepSram) then s
  else s.taskStep 8 overBudget false fun s =>
    let s := f s
    if !last then s
    else
      let s := { s with mgmt := { s.mgmt with
        deepSram := s.mgmt.deepSram && hbm, deepHbm := s.mgmt.deepHbm && !hbm } }
      s.when (!s.mgmt.deepSram && !s.mgmt.deepHbm) (·.addSat .gkp_TASK_STATUS [8] f_gkp_TASK_STATUS_passes 1)

/-- SERDES_ADAPT_STEP (R542, R538): one quad is adapted, and its lowest eye margin of the month is kept. -/
def execSerdesAdaptStep (quad : Fin 146) (margin : BitVec 16) (overBudget lastOfPass : Bool) (s : State) : Res :=
  go <| s.taskStep 4 overBudget lastOfPass fun s =>
    let k := quad.val * 240 + s.lifeMonth
    let life := s.mgmt.life
    let m := match SMap.find? life.serdesMargin k with
      | some old => min old margin.toNat
      | none => margin.toNat
    { s with mgmt := { s.mgmt with life := { life with serdesMargin := SMap.insert life.serdesMargin k m } } }

/-- NVM_WEAR_STEP (R542): one sector is erased for wear rotation, at most one in 10 s; the spec does not say
which. DESIGN CHOICE, log entry 64. -/
def execNvmWearStep (s : State) : Res :=
  if !(s.taskRuns 6 && s.passed s.mgmt.lastNvm (10 * 2000000000)) then go s
  else
    let s := { s with mgmt := { s.mgmt with lastNvm := s.cycle } }
    go <| s.taskStep 6 false false fun s =>
      let (v, s) := s.free
      s.countErases (v.toNat % 0x1931) 1

/-- The civil year and month of a TAI second count since 1970-01-01, as 12 × year + month (R539).
DESIGN CHOICE, log entry 51. -/
def calendarMonth (t : Nat) : Nat :=
  let z := t / 86400 + 719468
  let era := z / 146097
  let doe := z % 146097
  let yoe := (doe - doe / 1460 + doe / 36524 - doe / 146096) / 365
  let doy := doe - (365 * yoe + yoe / 4 - yoe / 100)
  let mp := (5 * doy + 2) / 153
  let m := if mp < 10 then mp + 3 else mp - 9
  let y := yoe + era * 400 + (if m ≤ 2 then 1 else 0)
  12 * y + (m - 1)

/-- A calendar task is due (R539): its calendar period has changed since its last run, or, while the calendar
has never been known, enough powered seconds have passed. `per` reduces a month number to the period.
DESIGN CHOICE, log entry 51. -/
def State.calendarDue (s : State) (lastTai lastS periodS : Nat) (per : Nat → Nat) : Bool :=
  match s.calendarNow with
  | some t => decide (per (calendarMonth t) ≠ per (calendarMonth lastTai))
  | none => s.mgmt.life.lastCalendar == 0 && decide (lastS + periodS ≤ s.poweredS)

/-- DEEP_SCRUB_START (R539, R542): the monthly deep scrub, task 8, begins its pass. -/
def execDeepScrubStart (s : State) : Res :=
  let life := s.mgmt.life
  if s.taskRuns 8 && s.calendarDue life.deepTai life.deepS 2592000 id then
    let s := { s with mgmt := { s.mgmt with
      taskPos := SMap.put 0 s.mgmt.taskPos 8 0, deepSram := true, deepHbm := true
      life := { life with deepTai := s.calendarNow.getD life.deepTai, deepS := s.poweredS } } }
    go (s.postEvent 0x131 (natLE 1 8))
  else go s

/-- YEARLY_RECAL (R539): the yearly recalibration starts and posts CALENDAR_TASK; the spec gives it no task
number. DESIGN CHOICE, log entry 64. -/
def execYearlyRecal (s : State) : Res :=
  let life := s.mgmt.life
  if s.boot.mgmtUp && s.calendarDue life.yearTai life.yearS 31536000 (· / 12) then
    let s := { s with mgmt := { s.mgmt with
      life := { life with yearTai := s.calendarNow.getD life.yearTai, yearS := s.poweredS } } }
    let (v, s) := s.free
    go (s.postEvent 0x131 (natLE 1 v.toNat))
  else go s

/-! ### The watchdog -/

/-- A kick restarts the period and re-arms the first stage (R619). -/
def State.wdogKick (s : State) : State :=
  { s with pwr := { s.pwr with wdogSince := s.cycle, wdogFirst := false } }

/-- WDOG_KICK (R619). -/
def execWdogKick (s : State) : Res := go s.wdogKick

/-- WDOG_EXPIRY (R619): no kick within period ms; the first expiry causes a management restart, a second
before any kick a device reset. -/
def execWdogExpiry (s : State) : Res :=
  let period := max 1 (s.fld .cpr_WDOG [] f_cpr_WDOG_period)
  if s.flag .cpr_WDOG [] f_cpr_WDOG_enable && s.passed s.pwr.wdogSince (period * 2000000) then
    let s := s.addSat .cpr_WDOG [] f_cpr_WDOG_expiries 1
    if s.pwr.wdogFirst then go ((s.postEvent 0x1C5 (natLE 1 2)).deviceReset 4)
    else
      let s := s.postEvent 0x1C5 (natLE 1 1)
      let s := { s with pwr := { s.pwr with wdogSince := s.cycle, wdogFirst := true } }
      go s.mgmtRestartBegin
  else go s

end Sys2Proof.Machine
end

