-- ==== Sys2Proof/Machine/Counters.lean ====
section
/-! DEFINITION. The scorekeeper's counters, sweep and whistle, and tagged-packet tracing (chapter 16). -/

namespace Sys2Proof.Machine

/-! ### Counters and the sweep -/

/-- A write of CNT_CFG (R571, R586): a change of mode, source or threshold zeroes the counter. -/
def State.cntCfgWrite (s : State) (g k : Nat) (v : Word) : State :=
  let v := v &&& (f_skp_CNT_CFG_threshold.mask ||| f_skp_CNT_CFG_mode.mask ||| f_skp_CNT_CFG_source.mask)
  if v = s.rd .skp_CNT_CFG [g, k] then s
  else
    (s.wr .skp_CNT_CFG [g, k] v).cntZero g k true

/-- CNT_CFG_WRITE (R571). -/
def execCntCfgWrite (g : Fin 321) (k : Fin 8) (v : Word) (s : State) : Res := go (s.cntCfgWrite g k v)

/-- A write of go to CLEAR (R588, R571): the group's 8 counters are zeroed; a group above 320 is none. -/
def State.clearGroup (s : State) (g : Nat) : State :=
  if 320 < g then s else s.each (List.range 8) fun s k => s.cntZero g k false

/-- CLEAR_GROUP (R588). -/
def execClearGroup (g : BitVec 9) (s : State) : Res := go (s.clearGroup g.toNat)

/-- An entry of a page: the tag in [63:48] and the count in [47:0] (R572). -/
def pageEntry (tag : Nat) (v : BitVec 48) : Word := BitVec.ofNat 64 (tag % 65536 * 2 ^ 48 + v.toNat)

/-- A page with the counters of every group that is neither OFF nor gated rewritten with a tag (R572, R576). -/
def State.writePage (s : State) (page : SMap Word) (src : Nat → Nat → BitVec 48) (tag : Nat) : SMap Word :=
  (List.range 321).foldl (fun page g =>
    if s.groupShown g then
      (List.range 8).foldl (fun page k => SMap.put 0 page (g * 8 + k) (pageEntry tag (src g k))) page
    else page) page

/-- The 20,544 bytes of a page (R574). -/
def pageBytes (page : SMap Word) : List Byte :=
  (List.range 2568).flatMap fun i => natLE 8 (SMap.get 0 page i).toNat

/-- A page and its header pushed to host memory, and a PF2 vector (R574). -/
def State.push (s : State) (off : Nat) (page : SMap Word) (header : List Byte) (vec : Nat) : State :=
  let a := BitVec.ofNat 64 (s.fld .skp_PUSH_CFG [] f_skp_PUSH_CFG_addr * 2 ^ 17 + off)
  let s := s.emit (.hostWrite (.pf 2) a (pageBytes page))
  (s.emit (.hostWrite (.pf 2) (a + 0x7FC0) (padTo 64 header))).sendMsix (.pf 2) vec

/-- A push skipped because the previous one has not finished writing (R574). DESIGN CHOICE, log entry 62. -/
def State.pushSkipped (s : State) : State := s.addSat .skp_STATUS [] f_skp_STATUS_pushes_skipped 1

/-- The sweep header (R578). -/
def State.sweepHeader (s : State) (n : Nat) : List Byte :=
  natLE 8 n ++ natLE 8 s.cnt.sweepStart ++ natLE 8 s.cnt.sweepEnd

/-- SWEEP (R572, R574): from tick 40,000 × n sweep n reads every group that is neither OFF nor gated into the sweep page and pushes
it when due. With `busy` the previous push is not finished: this one is skipped and counted. DESIGN CHOICE, log entry 62. The
scorekeeper lies in PD23 (R611). -/
def execSweep (s : State) (busy : Bool := false) : Res :=
  let n := s.cnt.sweepNext
  if s.pdOn 23 && decide (40000 * n ≤ s.pwr.time.toNat) then
    let page := s.writePage s.cnt.sweepPage s.cntSeen n
    let s := { s with cnt := { s.cnt with
      sweepPage := page, sweepNext := n + 1, sweepStart := 40000 * n, sweepEnd := s.pwr.time.toNat } }
    let s := s.setFld .skp_STATUS [] f_skp_STATUS_sweep n
    let due := s.flag .skp_PUSH_CFG [] f_skp_PUSH_CFG_enable &&
      decide (n % 2 ^ s.fld .skp_PUSH_CFG [] f_skp_PUSH_CFG_every_log2 = 0)
    if due && busy then go s.pushSkipped
    else if due then
      let slot := if s.cnt.pushSlot then 0x8000 else 0
      let s := s.push slot page (s.sweepHeader n) 0
      go { s with cnt := { s.cnt with pushSlot := !s.cnt.pushSlot } }
    else go s
  else go s

/-! ### The whistle -/

/-- The state of the whistle set (R576): 0 IDLE, 1 LATCHED, 2 READY. -/
def State.whistleState (s : State) : Nat := s.fld .skp_STATUS [] f_skp_STATUS_whistle_state

/-- Whether a module of the die-to-die link is UP, so that a control signal crosses it (R16). -/
def State.d2dCarries (s : State) : Bool :=
  (List.range 40).any fun m => s.fld .d2d_MOD_STATUS [m] f_d2d_MOD_STATUS_state == 2

/-- A control signal of this device's own that crosses the link (R16): both dies act at the one tick at which its
originating die acts, so that the copies of it in later flits are no first copy. DESIGN CHOICE, log entry 16. -/
def State.signalSent (s : State) : State :=
  s.when s.d2dCarries fun s => { s with d2d := { s.d2d with sigNext := s.d2d.sigNext + 1 } }

/-- The counters as a reading in this cycle sees them (R571). -/
def State.cntView (s : State) : SMap (BitVec 48) :=
  s.cnt.edge.foldl (fun m e => SMap.put 0 m e.1 (s.cntSeen (e.1 / 8) (e.1 % 8))) s.cnt.cnt

/-- The copy of the counters that a whistle latches (R575): a whistle that no module carries does not reach the Shoilany
die, whose groups 175 to 305 (R568) keep the copy they had. -/
def whistleCopy (reaches : Bool) (held now : SMap (BitVec 48)) : SMap (BitVec 48) :=
  if reaches then now
  else
    let far := fun e : Nat × BitVec 48 => decide (175 * 8 ≤ e.1 ∧ e.1 < 306 * 8)
    now.filter (fun e => e.1 < 175 * 8) ++ held.filter far ++ now.filter (fun e => 306 * 8 ≤ e.1)

/-- A whistle acts (R575, R576): in IDLE the counters of the dies that it reaches latch; otherwise it is refused and
counted. DESIGN CHOICE, log entry 14. -/
def State.whistleAct (s : State) (reaches : Bool) : State :=
  let w := s.pwr.time.toNat
  if s.whistleState ≠ 0 then
    (s.addSat .skp_STATUS [] f_skp_STATUS_refused 1).postEvent 0x1E1 (natLE 8 w)
  else
    let s := { s with cnt := { s.cnt with
      latched := whistleCopy reaches s.cnt.latched s.cntView, latchAt := s.cycle, latchFar := reaches, whistleNo := s.cnt.whistleNo + 1, whistleW := w } }
    let s := s.setFld .skp_STATUS [] f_skp_STATUS_whistle_state 1
    s.each (List.range 321) fun s g => s.count1 g 1

/-- A whistle is fired on this die (R16, R575): it acts here and, over the link, on the other die at the same tick.
DESIGN CHOICE, log entries 14, 16. -/
def State.whistleFire (s : State) : State := s.signalSent.whistleAct s.d2dCarries

/-- WHISTLE_FIRE (R575). DESIGN CHOICE, log entry 62. -/
def execWhistleFire (s : State) : Res := go s.whistleFire

/-- The set returns to IDLE once software writes release (R576). DESIGN CHOICE, log entry 62. -/
def State.whistleRelease (s : State) : State :=
  if s.whistleState = 2 then s.setFld .skp_STATUS [] f_skp_STATUS_whistle_state 0 else s

/-- WHISTLE_RELEASE (R576). -/
def execWhistleRelease (s : State) : Res := go s.whistleRelease

/-- The armed whistle fires: arm is cleared, and late set where its tick was already past (R575). -/
def State.whistleArmedFire (s : State) (late : Bool) : State :=
  let s := s.setFlag .skp_WHISTLE_CTRL [] f_skp_WHISTLE_CTRL_arm false
  let s := s.when late (·.setFlag .skp_WHISTLE_CTRL [] f_skp_WHISTLE_CTRL_late true)
  { s with cnt := { s.cnt with whistleLate := false } }.whistleFire

/-- WHISTLE_AT_REACHED (R575). -/
def execWhistleAtReached (s : State) : Res :=
  if s.flag .skp_WHISTLE_CTRL [] f_skp_WHISTLE_CTRL_arm &&
      decide ((s.rd .skp_WHISTLE_AT []).toNat ≤ s.pwr.time.toNat)
  then go (s.whistleArmedFire s.cnt.whistleLate) else go s

/-- Whether WHISTLE_AT already lies in the past (R575). -/
def State.noteLate (s : State) : State :=
  { s with cnt := { s.cnt with
    whistleLate := s.flag .skp_WHISTLE_CTRL [] f_skp_WHISTLE_CTRL_arm &&
      decide ((s.rd .skp_WHISTLE_AT []).toNat < s.pwr.time.toNat) } }

/-- A write of WHISTLE_AT (R590). -/
def State.whistleAtWrite (s : State) (v : Word) : State := (s.wr .skp_WHISTLE_AT [] v).noteLate

/-- A write of WHISTLE_CTRL (R589): late clears, arm is stored, and release acts before fire. -/
def State.whistleCtrlWrite (s : State) (v : Word) : State :=
  let s := s.when (f_skp_WHISTLE_CTRL_late.get v == 1) (·.setFlag .skp_WHISTLE_CTRL [] f_skp_WHISTLE_CTRL_late false)
  let s := s.setFld .skp_WHISTLE_CTRL [] f_skp_WHISTLE_CTRL_arm (f_skp_WHISTLE_CTRL_arm.get v)
  let s := s.noteLate
  let s := s.when (f_skp_WHISTLE_CTRL_release.get v == 1) State.whistleRelease
  s.when (f_skp_WHISTLE_CTRL_fire.get v == 1) State.whistleFire

/-- The whistle header (R578). -/
def State.whistleHeader (s : State) : List Byte :=
  natLE 8 s.cnt.whistleNo ++ natLE 8 s.cnt.whistleW ++ natLE 1 s.whistleState

/-- WHISTLE_SET_READY (R574, R576): the scorekeeper writes the whistle page, sets READY, posts WHISTLE_DONE,
pushes the set where push is enabled, unless with `busy` the previous push is not finished, and sends PF2 vector 1 once. DESIGN
CHOICE, log entry 62. -/
def execWhistleSetReady (s : State) (busy : Bool := false) : Res :=
  if s.whistleState ≠ 1 then go s
  else
    let page := s.writePage s.cnt.whistlePage (fun g k => SMap.get 0 s.cnt.latched (g * 8 + k)) s.cnt.whistleNo
    let s := { s with cnt := { s.cnt with whistlePage := page } }
    let s := s.setFld .skp_STATUS [] f_skp_STATUS_whistle_state 2
    let s := s.postEvent 0x1E0 (natLE 8 s.cnt.whistleNo ++ natLE 8 s.cnt.whistleW)
    let push := s.flag .skp_PUSH_CFG [] f_skp_PUSH_CFG_enable
    if push && !busy then go (s.push 0x10000 page s.whistleHeader 1)
    else go ((s.when push State.pushSkipped).sendMsix (.pf 2) 1)

/-! ### Tracing -/

/-- TRACE_STATUS shows the open records (R594). -/
def State.traceShow (s : State) : State :=
  s.setFld .skp_TRACE_STATUS [] f_skp_TRACE_STATUS_in_flight s.cnt.openTraces.length

/-- PIDX of the trace buffer, and the records in it by the ring's rule (R584). -/
def State.tracePidx (s : State) : Nat := s.fld .skp_TRACE_STATUS [] f_skp_TRACE_STATUS_pidx
def State.traceFill (s : State) : Nat :=
  (s.tracePidx + 2 ^ 32 - s.fld .skp_TRACE_CIDX [] f_skp_TRACE_CIDX_cidx) % 2 ^ 32

/-- Stop mode is chosen and the trace buffer is full (R584). -/
def State.traceFull (s : State) : Bool :=
  s.flag .skp_TRACE_CFG [] f_skp_TRACE_CFG_mode && decide (8192 ≤ s.traceFill)

/-- A closed record written to the trace buffer, or lost while it is full in stop mode (R579, R584). -/
def State.traceStore (s : State) (r : TraceRec) : State :=
  if s.traceFull then
    let s := s.addSat .skp_TRACE_STATUS [] f_skp_TRACE_STATUS_overwritten 1
    if s.cnt.fullPosted then s
    else ({ s with cnt := { s.cnt with fullPosted := true } }).postEvent 0x1E2 (natLE 4 s.tracePidx)
  else
    let p := s.tracePidx
    let slot := p % 8192
    let wraps := !s.flag .skp_TRACE_CFG [] f_skp_TRACE_CFG_mode && (SMap.find? s.cnt.traceBuf slot).isSome
    let s := s.when wraps (·.addSat .skp_TRACE_STATUS [] f_skp_TRACE_STATUS_overwritten 1)
    let s := { s with cnt := { s.cnt with traceBuf := SMap.insert s.cnt.traceBuf slot r } }
    let s := s.setFld .skp_TRACE_STATUS [] f_skp_TRACE_STATUS_pidx (p + 1)
    let n := s.cnt.msiCount + 1
    if 64 ≤ n then ({ s with cnt := { s.cnt with msiCount := 0 } }).sendMsix (.pf 2) 2
    else { s with cnt := { s.cnt with
      msiCount := n, msiSince := if n = 1 then s.cycle else s.cnt.msiSince } }

/-- An open record closes, with more flags set (R582). -/
def State.traceClose (s : State) (r : TraceRec) (flags : Nat) : State :=
  let n := s.cnt.closedTraces + 1
  let s := { s with cnt := { s.cnt with
    openTraces := s.cnt.openTraces.filter fun q => q.id != r.id, closedTraces := n } }
  (s.traceStore { r with flags := r.flags ||| flags, traceNo := n }).traceShow

/-- A waypoint that closes its record (R582). -/
def wayCloses (code : Nat) (data : List Byte) : Bool :=
  let d0 := (data.getD 0 0).toNat
  code == 0x0B || code == 0x0E || code == 0x0F || code == 0x10 ||
    (code == 0x06 && d0 != 0 && d0 != 2) ||
    (code == 0x09 && (let o := (data.getD 3 0).toNat; decide (1 ≤ o) && decide (o ≤ 9)))

/-- The place that the next waypoint of an open record takes, from 1; 0 where none is stored (R582). -/
def State.wayNext (s : State) (id : Nat) : Nat :=
  match s.cnt.openTraces.find? fun r => r.id == id with
  | some r => if r.points.length < 31 then r.points.length + 1 else 0
  | none => 0

/-- Waypoints stored earlier are marked squashed (R170, R581). -/
def State.waySquash (s : State) (id : Nat) (ways : List Nat) : State :=
  let mark (e : Nat × Waypoint) : Waypoint :=
    if ways.contains (e.1 + 1) then { e.2 with flags := e.2.flags ||| 1 } else e.2
  let f (r : TraceRec) : TraceRec :=
    if r.id = id then { r with points := ((List.range r.points.length).zip r.points).map mark } else r
  { s with cnt := { s.cnt with openTraces := s.cnt.openTraces.map f } }

/-- A tagged packet records a waypoint (R581, R582); trace 0 is no trace. After its 31st a record keeps only
its closing waypoint. -/
def State.traceWay (s : State) (id code flags : Nat) (data : List Byte) : State :=
  match s.cnt.openTraces.find? fun r => r.id == id with
  | none => s
  | some r =>
    let closes := wayCloses code data
    let w : Waypoint := ⟨s.pwr.time, code, flags, padTo 6 data⟩
    let r := if r.points.length < 31 ∨ closes then { r with points := r.points ++ [w] }
      else { r with lost := min 255 (r.lost + 1), flags := r.flags ||| 1 }
    if closes then s.traceClose r 0
    else { s with cnt := { s.cnt with
      openTraces := s.cnt.openTraces.map fun q => if q.id = id then r else q } }

/-- A field of an open record changed. -/
def State.modTrace (s : State) (id : Nat) (f : TraceRec → TraceRec) : State :=
  { s with cnt := { s.cnt with openTraces := s.cnt.openTraces.map fun q => if q.id = id then f q else q } }

/-- A record is opened in the lowest free slot of 64, or missed (R580); the answer is its id, 0 for none. -/
def State.traceOpen (s : State) (r : TraceRec) : State × Nat :=
  match (List.range 64).find? fun i => !(s.cnt.openTraces.any fun q => q.slot == i) with
  | none => (s.addSat .skp_TRACE_STATUS [] f_skp_TRACE_STATUS_missed 1, 0)
  | some slot =>
    let id := s.cnt.nextTraceId
    let r := { r with id, slot, openedAt := s.cycle }
    let s := { s with cnt := { s.cnt with openTraces := s.cnt.openTraces ++ [r], nextTraceId := id + 1 } }
    (s.traceShow, id)

/-- TRACE_TIMEOUT (R582): a record open for timeout ms closes with flag timeout. -/
def execTraceTimeout (slot : Fin 64) (s : State) : Res :=
  let ms := max 1 (s.fld .skp_TRACE_CFG [] f_skp_TRACE_CFG_timeout)
  match s.cnt.openTraces.find? fun r => r.slot == slot.val with
  | some r => if s.passed r.openedAt (ms * 2000000) then go (s.traceClose r 4) else go s
  | none => go s

/-- Every open record closes as aborted (R593). -/
def State.traceAbort (s : State) : State := s.each s.cnt.openTraces fun s r => s.traceClose r 8

/-- A write of TRACE_CFG (R593): 0 in enable closes open records as aborted. -/
def State.traceCfgWrite (s : State) (v : Word) : State :=
  let bits := f_skp_TRACE_CFG_timeout.mask ||| f_skp_TRACE_CFG_k.mask ||| f_skp_TRACE_CFG_mode.mask |||
    f_skp_TRACE_CFG_accept_fabric.mask ||| f_skp_TRACE_CFG_enable.mask
  let s := s.wr .skp_TRACE_CFG [] (v &&& bits)
  if f_skp_TRACE_CFG_enable.get v = 0 then s.traceAbort else s

/-- TRACE_DISABLE (R593): a write that clears TRACE_CFG.enable. -/
def execTraceDisable (s : State) : Res :=
  go (s.traceCfgWrite (f_skp_TRACE_CFG_enable.set (s.rd .skp_TRACE_CFG []) 0))

/-- A write of TRACE_CIDX (R584, R594): room in the buffer ends a filling. -/
def State.traceCidxWrite (s : State) (v : Word) : State :=
  let s := s.wr .skp_TRACE_CIDX [] (v &&& f_skp_TRACE_CIDX_cidx.mask)
  { s with cnt := { s.cnt with fullPosted := s.cnt.fullPosted && s.traceFull } }

/-- TRACE_MSI_TIMER (R579): 1 ms after the first record written since its last message, PF2 vector 2 is
sent. -/
def execTraceMsiTimer (s : State) : Res :=
  if s.cnt.msiCount ≠ 0 ∧ s.passed s.cnt.msiSince 2000000 then
    go (({ s with cnt := { s.cnt with msiCount := 0 } }).sendMsix (.pf 2) 2)
  else go s

/-- The bytes of a trace record (R583). -/
def TraceRec.bytes (r : TraceRec) : List Byte :=
  padTo 1024 (padTo 64 (natLE 8 r.seq.toNat ++ natLE 8 r.ts.toNat ++ natLE 1 r.inMac ++ natLE 1 r.points.length ++
    natLE 1 (r.flags ||| (if r.fromFabric then 2 else 0)) ++ natLE 1 r.lost ++ natLE 4 r.reasons ++
    natLE 2 r.frameLen ++ natLE 2 r.srcDev ++ natLE 3 r.pkt ++ [0] ++ natLE 8 r.traceNo) ++
    r.points.flatMap fun w => natLE 8 w.tick.toNat ++ natLE 1 w.code ++ natLE 1 w.flags ++ padTo 6 w.data)

/-- The data of PF2 BAR0 at an 8-byte aligned offset (R578). -/
def State.snapshotRead (s : State) (off : Nat) : Word :=
  let word (bs : List Byte) (o : Nat) : Word := BitVec.ofNat 64 (leAt bs o 8)
  if off < 0x8000 then SMap.get 0 s.cnt.sweepPage (off / 8)
  else if off < 0x8040 then word (s.sweepHeader (s.cnt.sweepNext - 1)) (off - 0x8000)
  else if off < 0x10000 then 0
  else if off < 0x18000 then SMap.get 0 s.cnt.whistlePage ((off - 0x10000) / 8)
  else if off < 0x18040 then word s.whistleHeader (off - 0x18000)
  else if 0x800000 ≤ off ∧ off < 0x1000000 then
    match SMap.find? s.cnt.traceBuf ((off - 0x800000) / 1024) with
    | some r => word r.bytes ((off - 0x800000) % 1024)
    | none => 0
  else 0

/-- The data of a VF's BAR2 (R577, R578): the pages, all-ones for a group the VF may not read. -/
def State.vfSnapshotRead (s : State) (off : Nat) : Word :=
  let page := if off < 0x8000 then s.cnt.sweepPage else s.cnt.whistlePage
  let i := (off % 0x8000) / 8
  if 0x10000 ≤ off ∨ 2568 ≤ i then 0
  else if s.flag .skp_PERM [i / 8] f_skp_PERM_vf then SMap.get 0 page i
  else 0xFFFFFFFFFFFFFFFF

/-! ### The PPS and TIME_ADJ (R600, R603) -/

/-- A step is scheduled (R600, R607): at TIME_ADJ_AT, or at the present tick + 64 where that lies nearer; it
replaces one that is pending, and crosses the link to the other die's copy of device time (R16).
DESIGN CHOICE, log entry 16. -/
def State.timeAdjGo (s : State) (step : BitVec 48) : State :=
  let s := s.signalSent
  let at' := max (s.rd .cpr_TIME_ADJ_AT []).toNat (s.pwr.time.toNat + 64)
  let s := s.setFld .cpr_TIME_ADJ [] f_cpr_TIME_ADJ_step step.toNat
  let s := s.setFlag .cpr_TIME_ADJ [] f_cpr_TIME_ADJ_pending true
  { s with pwr := { s.pwr with step := some (at', step.toInt) } }

/-- TIME_ADJ_GO (R600). -/
def execTimeAdjGo (step : BitVec 48) (s : State) : Res := go (s.timeAdjGo step)

/-- PPS_IN_EDGE (R603, R608): while src is PPS_IN the edge's tick is captured, to within one tick.
DESIGN CHOICE, log entry 61. -/
def execPpsInEdge (s : State) : Res :=
  if s.fld .cpr_TIME_CFG [] f_cpr_TIME_CFG_src ≠ 3 then go s
  else
    let (v, s) := s.free
    let t := s.pwr.time.toNat + v.toNat % 3 - 1
    let s := s.setFld .cpr_PPS_CAP [] f_cpr_PPS_CAP_tick t
    let s := s.setFlag .cpr_PPS_CAP [] f_cpr_PPS_CAP_new true
    go { s with pwr := { s.pwr with ppsEdge := s.cycle, ppsLostPosted := false } }

/-- PPS_LOST (R603): no edge for 1.5 s while src is PPS_IN; posted once. An in-step follower ignores src (R602).
DESIGN CHOICE, log entry 52. -/
def execPpsLost (s : State) : Res :=
  if !s.isFollower ∧ s.fld .cpr_TIME_CFG [] f_cpr_TIME_CFG_src = 3 ∧ !s.pwr.ppsLostPosted ∧ s.passed s.pwr.ppsEdge 3000000000 then
    let s := { s with pwr := { s.pwr with ppsLostPosted := true } }
    go (s.postEvent 0x1C4 (natLE 8 s.pwr.time.toNat))
  else go s

/-- PPS_OUT is enabled (R603). -/
def State.ppsOn (s : State) : Bool :=
  s.flag .cpr_TIME_CFG [] f_cpr_TIME_CFG_pps_en && s.flag .cpr_TIME_CFG [] f_cpr_TIME_CFG_tai_valid

/-- PPS_OUT_RISE (R603, R605): at the tick of a TAI second PPS_OUT rises, for pps_width ms (1-500). -/
def execPpsOutRise (s : State) : Res :=
  if s.ppsOn && decide (s.tai % 2000000000 = 0) then
    let w := max 1 (min 500 (s.fld .cpr_TIME_CFG [] f_cpr_TIME_CFG_pps_width))
    go { s with pwr := { s.pwr with ppsOut := true, ppsFall := s.pwr.time.toNat + w * 2000000 } }
  else go s

end Sys2Proof.Machine
end

