-- ==== Sys2Proof/Machine/Gcm.lean ====
section
/-! DEFINITION. AES-256 and Galois/counter mode as MACsec's cipher suite GCM-AES-XPN-256 names them (R377).
PRESUMED: FIPS 197, SP 800-38D and IEEE 802.1AE, which the spec cites and does not restate. -/

namespace Sys2Proof.Machine

/-- Multiplication by x in the field of AES. -/
def aesXtime (b : Nat) : Nat := if b < 128 then 2 * b else (2 * b) % 256 ^^^ 0x1B

/-- Multiplication in the field of AES. -/
def aesMul (a b : Nat) : Nat :=
  ((List.range 8).foldl (fun (acc : Nat × Nat) i =>
    ((if b / 2 ^ i % 2 = 1 then acc.1 ^^^ acc.2 else acc.1), aesXtime acc.2)) (0, a)).1

/-- The inverse in the field of AES: the 254th power. -/
def aesInv (a : Nat) : Nat :=
  let a2 := aesMul a a
  let a3 := aesMul a2 a
  let a6 := aesMul a3 a3
  let a12 := aesMul a6 a6
  let a15 := aesMul a12 a3
  let a30 := aesMul a15 a15
  let a60 := aesMul a30 a30
  let a120 := aesMul a60 a60
  let a126 := aesMul a120 a6
  let a127 := aesMul a126 a
  aesMul a127 a127

/-- The S-box of AES. -/
def aesSbox (a : Nat) : Nat :=
  let b := aesInv a
  let rot (n : Nat) : Nat := (b * 2 ^ n) % 256 + (b * 2 ^ n) / 256
  b ^^^ rot 1 ^^^ rot 2 ^^^ rot 3 ^^^ rot 4 ^^^ 0x63

/-- Bytes combined by exclusive-or. -/
def xorBytes (a b : List Nat) : List Nat := List.zipWith (· ^^^ ·) a b

/-- The 60 words of AES-256's key schedule, newest first while it grows. -/
def aesSchedule (key : List Nat) : List (List Nat) :=
  let start := (List.range 8).map fun i => (key.drop (4 * i)).take 4
  ((List.range 52).foldl (fun (acc : List (List Nat) × Nat) j =>
    let i := j + 8
    let prev := acc.1.getD 0 []
    let back := acc.1.getD 7 []
    let t :=
      if i % 8 = 0 then
        xorBytes ((prev.drop 1 ++ prev.take 1).map aesSbox) [acc.2, 0, 0, 0]
      else if i % 8 = 4 then prev.map aesSbox else prev
    (xorBytes back t :: acc.1, if i % 8 = 0 then aesXtime acc.2 else acc.2)) (start.reverse, 1)).1.reverse

/-- The round key of a round. -/
def aesRoundKey (sched : List (List Nat)) (r : Nat) : List Nat := ((sched.drop (4 * r)).take 4).flatMap id

/-- The rows shifted, the state being held column by column. -/
def aesShift (s : List Nat) : List Nat :=
  (List.range 16).map fun i => s.getD ((i + 4 * (i % 4)) % 16) 0

/-- The columns mixed. -/
def aesMix (s : List Nat) : List Nat :=
  (List.range 16).map fun i =>
    let c := i / 4 * 4
    let r := i % 4
    let g (k : Nat) : Nat := s.getD (c + (r + k) % 4) 0
    aesMul (g 0) 2 ^^^ aesMul (g 1) 3 ^^^ g 2 ^^^ g 3

/-- One 16-byte block encrypted under a key schedule. PRESUMED, log entry 6. -/
def aesEncrypt (sched : List (List Nat)) (block : List Nat) : List Nat :=
  let s := xorBytes block (aesRoundKey sched 0)
  let s := (List.range 13).foldl
    (fun s r => xorBytes (aesMix (aesShift (s.map aesSbox))) (aesRoundKey sched (r + 1))) s
  xorBytes (aesShift (s.map aesSbox)) (aesRoundKey sched 14)

/-- Multiplication in the field of GHASH, blocks read as big-endian numbers. -/
def ghashMul (x y : Nat) : Nat :=
  ((List.range 128).foldl (fun (acc : Nat × Nat) i =>
    ((if x / 2 ^ (127 - i) % 2 = 1 then acc.1 ^^^ acc.2 else acc.1),
      if acc.2 % 2 = 1 then (acc.2 / 2) ^^^ (0xE1 * 2 ^ 120) else acc.2 / 2)) (0, y)).1

/-- A big-endian number of bytes. -/
def beOf (l : List Nat) : Nat := l.foldl (fun a b => 256 * a + b) 0

/-- Bytes of a big-endian number. -/
def beTo (n v : Nat) : List Nat := (List.range n).map fun i => v / 256 ^ (n - 1 - i) % 256

/-- Bytes cut into blocks of 16, the last padded with zero. -/
def blocks16 : Nat → List Nat → List (List Nat)
  | 0, _ => []
  | k + 1, l => if l.isEmpty then [] else ((l ++ List.replicate 16 0).take 16) :: blocks16 k (l.drop 16)

/-- The blocks of a byte list. -/
def toBlocks (l : List Nat) : List (List Nat) := blocks16 (l.length / 16 + 1) l

/-- GHASH of associated data and text under a hash key. PRESUMED, log entry 6. -/
def ghash (h : Nat) (aad text : List Nat) : Nat :=
  let last := [beTo 8 (8 * aad.length) ++ beTo 8 (8 * text.length)]
  (toBlocks aad ++ toBlocks text ++ last).foldl (fun y b => ghashMul (y ^^^ beOf b) h) 0

/-- The text combined with the counter-mode key stream, from counter 2 on. PRESUMED, log entry 6. -/
def gcmStream (sched : List (List Nat)) (iv text : List Nat) : List Nat :=
  ((toBlocks text).zipIdx.flatMap fun (b, i) =>
    xorBytes b (aesEncrypt sched (iv ++ beTo 4 (i + 2)))).take text.length

/-- The 16-byte tag over associated data and ciphertext. PRESUMED, log entry 6. -/
def gcmTag (sched : List (List Nat)) (iv aad cipher : List Nat) : List Nat :=
  let h := beOf (aesEncrypt sched (List.replicate 16 0))
  xorBytes (beTo 16 (ghash h aad cipher)) (aesEncrypt sched (iv ++ [0, 0, 0, 1]))

end Sys2Proof.Machine
end

