-- ==== Sys2Proof/Machine/HbmOps.lean ====
section
/-! DEFINITION. HBM controllers: registers, addresses, banks and the commands issued to the stacks (chapter 11). The
controllers of stacks 0-3 are numbered 0-127 and those of stacks 4-5 128-191. -/

namespace Sys2Proof.Machine

/-! ### Registers and addresses (R407 to R409) -/

/-- The register of a controller: `a` on Shoilany, `b` on Pyrlys. -/
def hReg (a b : Reg) (k : Nat) (ix : List Nat) : Reg × List Nat := if k < 128 then (a, k :: ix) else (b, (k - 128) :: ix)

/-- A field of CH_STATUS; both dies' registers have one layout. -/
def hStatus (k : Nat) : Reg × List Nat := hReg .tm_hmc_CH_STATUS .fe_hmc_CH_STATUS k []
def State.hFld (s : State) (k : Nat) (f : Fld) : Nat := s.fld (hStatus k).1 (hStatus k).2 f
def State.hFlag (s : State) (k : Nat) (f : Fld) : Bool := s.hFld k f == 1
def State.hSet (s : State) (k : Nat) (f : Fld) (v : Nat) : State := s.setFld (hStatus k).1 (hStatus k).2 f v
def State.hAdd (s : State) (r : Reg × List Nat) (f : Fld) (n : Nat) : State := s.addSat r.1 r.2 f n

def State.hState (s : State) (k : Nat) : Nat := s.hFld k f_tm_hmc_CH_STATUS_state
def State.hFrozen (s : State) (k : Nat) : Bool := s.hFlag k f_tm_hmc_CH_STATUS_frozen

def State.hchan (s : State) (k : Nat) : HChan := SMap.get {} s.hbm.chans k
def State.modH (s : State) (k : Nat) (f : HChan → HChan) : State :=
  { s with hbm := { s.hbm with chans := SMap.modify {} s.hbm.chans k f } }

/-- Exclusive-or of the bits of a number. -/
def xorBits (v : Nat) : Nat := ((List.range 30).filter (bitOf v)).length % 2

/-- Bit i of the mapped bank number of address `a` on controller `k` (R408). -/
def State.mappedBit (s : State) (k a i : Nat) : Nat :=
  xorBits ((if k < 128 then s.fld .tm_hmc_MAP_MASK [i] f_tm_hmc_MAP_MASK_mask
    else s.fld .fe_hmc_MAP_MASK [i] f_fe_hmc_MAP_MASK_mask) &&& a)

/-- The bank of an address: pseudo-channel, SID, bank group and bank as one number below 96 (R407, R408). -/
def State.bankOf (s : State) (k gran : Nat) : Nat :=
  let a := gran * 64
  let bank := s.mappedBit k a 0 + 2 * s.mappedBit k a 1 + 4 * s.mappedBit k a 2 + 8 * s.mappedBit k a 3
  (bitsOf a 6 1 * 3 + bitsOf a 28 2) * 16 + bank

/-- The row and the column granule of a granule (R407). -/
def rowOf' (gran : Nat) : Nat := bitsOf gran 9 13
def colOf (gran : Nat) : Nat := bitsOf gran 1 4

/-- The address word of a granule (R409). -/
def hbmAddr (k gran : Nat) : Word := BitVec.ofNat 64 (k * 2 ^ 30 + gran * 64)

def State.hbank (s : State) (k b : Nat) : HBank := SMap.get {} (s.hchan k).banks b
def State.modBank (s : State) (k b : Nat) (f : HBank → HBank) : State :=
  s.modH k fun x => { x with banks := SMap.modify {} x.banks b f }

/-- A command issued to the stack; the last 64 are kept for the capture (R427, R444). -/
def State.hCmd (s : State) (k : Nat) (c : HCmd) : State :=
  s.modH k fun x => { x with cmds := ({ c with at' := s.cycle } :: x.cmds).take 64 }

/-- The counter group of a controller (R568). -/
def hbmGroup (k : Nat) : Nat := 290 + k / 8

/-- Granule requests of a list (R413). -/
def granules (l : List HReq) : Nat := (l.map (·.n)).foldl (· + ·) 0

/-- The pending count that CH_STATUS shows (R438). -/
def State.hShow (s : State) (k : Nat) : State := s.hSet k f_tm_hmc_CH_STATUS_pending (granules (s.hchan k).queue)

/-- The channel is paused for retraining, 4 µs at most (R426). -/
def State.hPaused (s : State) (k : Nat) : Bool :=
  (s.hchan k).pausedAt != 0 && !s.passed ((s.hchan k).pausedAt - 1) 8000

/-! ### Banks and commands (R419 to R422) -/

/-- The activation threshold that the stack of a controller reported at training; 0 acts as 1 (R422).
DESIGN CHOICE, log entry 50. -/
def State.rfmOf (s : State) (k : Nat) : Nat := max 1 (SMap.get {} s.hbm.reports (k / 32)).rfm

/-- A bank has been refreshed: what was postponed is made up, and its activation count falls (R421, R422).
DESIGN CHOICE, log entry 50. -/
def State.bankDone (s : State) (k b : Nat) : State :=
  let n := s.rfmOf k
  s.modBank k b fun x => { x with row := none, postponed := 0, acts := x.acts - n }

/-- A bank is refreshed; an open row is precharged first (R420, R421). DESIGN CHOICE, log entry 50. -/
def State.bankRefresh (s : State) (k b : Nat) : State :=
  let s := s.when (s.hbank k b).row.isSome (·.hCmd k { cmd := 3, bank := b })
  ((s.hCmd k { cmd := 5, bank := b }).bankDone k b).count1 (hbmGroup k) 9

/-- All banks of a bank's pseudo-channel and SID are refreshed at once, open rows being precharged first (R406, R420,
R444). -/
def State.allRefresh (s : State) (k b : Nat) : State :=
  let banks := numbersFrom (b / 16 * 16) 16
  let s := s.when (banks.any fun b => (s.hbank k b).row.isSome) (·.hCmd k { cmd := 4, bank := b / 16 * 16 })
  let s := s.hCmd k { cmd := 6, bank := b / 16 * 16 }
  (s.each banks fun s b => s.bankDone k b).count1 (hbmGroup k) 9

/-- The row of a chosen request is opened where it is not (R419, R422): a bank at its activation threshold gets an
RFM command first. -/
def State.bankOpen (s : State) (k b cls gran : Nat) : State :=
  let row := rowOf' gran
  let x := s.hbank k b
  if x.row = some row then s.count1 (hbmGroup k) 6
  else
    let n := s.rfmOf k
    let s := s.when x.row.isSome (·.hCmd k { cmd := 3, cls, bank := b, gran := some gran })
    let full := decide (n ≤ x.acts)
    let s := s.when full fun s => (s.hCmd k { cmd := 7, bank := b }).count1 (hbmGroup k) 10
    let acts := if full then x.acts - n else x.acts
    let s := s.hCmd k { cmd := 0, cls, bank := b, row, gran := some gran }
    (s.modBank k b fun x => { x with row := some row, acts := acts + 1 }).count1 (hbmGroup k) 7

/-- A bank's predictor is trained by the request chosen next after an access (R419). DESIGN CHOICE, log entry 50. -/
def HBank.train (x : HBank) (row : Nat) : HBank :=
  match x.last with
  | some r => { x with pred := if r = row then min 3 (x.pred + 1) else x.pred - 1 }
  | none => x

/-- The commands of one granule of a chosen request (R407, R419). -/
def State.granIssue (s : State) (k : Nat) (q : HReq) (gran : Nat) : State :=
  let b := s.bankOf k gran
  let row := rowOf' gran
  let s := if 8 ≤ (s.hbank k b).postponed then s.bankRefresh k b else s
  let s := s.modBank k b (·.train row)
  let s := s.bankOpen k b q.cls gran
  let s := s.hCmd k
    { cmd := if q.wdata.isSome then 2 else 1, cls := q.cls, bank := b, row, col := colOf gran, gran := some gran }
  let r := hReg .tm_hmc_PAGE_CFG .fe_hmc_PAGE_CFG k []
  let keep := s.flag r.1 r.2 f_tm_hmc_PAGE_CFG_pred_en && decide (2 ≤ (s.hbank k b).pred)
  let s := s.modBank k b fun x => { x with row := if keep then some row else none, last := some row, lastAt := s.cycle }
  s.count1 (hbmGroup k) (if q.wdata.isSome then 5 else 4)

/-- An access to a granule that a unit makes in a command of its own, with its service class (R412): its commands are issued
at once while the channel serves. DESIGN CHOICE, log entry 50. -/
def State.hbmUnit (s : State) (k cls gran : Nat) (write : Bool) : State :=
  if s.hState k = 2 ∧ !s.hFrozen k then
    s.granIssue k
      { tag := 0, home := cls, cls, gran, wdata := if write then some [] else none, at' := s.cycle, id := 0 } gran
  else s

end Sys2Proof.Machine
end

