-- ==== Sys2Proof/Machine/ParserWalk.lean ====
section
/-! DEFINITION. The parse walk as a function of the frame's bytes and the parse memory (chapter 2, R36 to
R50), and the three hash units (R59). -/

namespace Sys2Proof.Machine

/-- What a walk sees of a frame: the bytes from the destination address to the last before the FCS, how
many of them are present, and whether the frame has ended (R34, R644). -/
structure FrameView where
  bytes : List Byte
  present : Nat
  ended : Bool
  deriving DecidableEq, Repr

/-- Byte `i` of a frame as the parser reads it: bytes beyond the frame end or byte 383 read zero (R34,
R41). -/
def FrameView.byte (v : FrameView) (i : Nat) : Nat := if i < 384 then (v.bytes.getD i 0).toNat else 0

/-- `n` bytes from `i` as a big-endian number. -/
def FrameView.be (v : FrameView) (i n : Nat) : Nat :=
  (List.range n).foldl (fun a k => 256 * a + v.byte (i + k)) 0

/-- The field of `w` bits at bit offset `b` from byte `off`, in network order. -/
def FrameView.bits (v : FrameView) (off b w : Nat) : Nat :=
  let first := b / 8
  let last := (b + w - 1) / 8
  (v.be (off + first) (last + 1 - first)) / 2 ^ (8 * (last + 1) - (b + w)) % 2 ^ w

/-- A byte is settled: it is present, or the frame has ended (R36). DEDUCED, log entry 18. -/
def FrameView.settled (v : FrameView) (i : Nat) : Bool := v.ended || (decide (i < v.present) && decide (i < v.bytes.length))

/-- The words of one node (R39, R40, R42, R43). -/
structure NodeWords where
  cfg : Word
  exts : List Word
  chk : Word
  brs : List Word
  deriving DecidableEq, Repr

/-- Width field in which 0 means the greatest width. -/
def fullWidth (w full : Nat) : Nat := if w = 0 then full else w

/-- Reason `r` set in a bitmap. -/
def setReason (reasons r : Nat) : Nat := if bitOf reasons r then reasons else reasons + 2 ^ r

/-- The eight extractions of a node in order: source offset, length and destination, where valid (R40).
DEDUCED, log entry 18. -/
def NodeWords.extractions (n : NodeWords) : List (Nat × Nat × Nat) :=
  n.exts.flatMap fun w =>
    (if f_prs_NODE_EXT_valid0.get w = 1 then
      [(f_prs_NODE_EXT_src_off0.get w, f_prs_NODE_EXT_len_m10.get w + 1, f_prs_NODE_EXT_dst_off0.get w)] else []) ++
    (if f_prs_NODE_EXT_valid1.get w = 1 then
      [(f_prs_NODE_EXT_src_off1.get w, f_prs_NODE_EXT_len_m11.get w + 1, f_prs_NODE_EXT_dst_off1.get w)] else [])

/-- The key bundle after one extraction from a header at `off` (R41). -/
def extractTo (v : FrameView) (off : Nat) (kb : List Byte) (e : Nat × Nat × Nat) : List Byte :=
  let (src, len, dst) := e
  (List.range len).foldl (fun kb i => setAt kb (dst + i) (BitVec.ofNat 8 (v.byte (off + src + i)))) kb

/-- The byte past a node's length field and past its selector field, where it reads them. -/
def NodeWords.fieldEnd (n : NodeWords) (off : Nat) : Nat :=
  let lenEnd := if f_prs_NODE_CFG_len_from_field.get n.cfg = 1 then
    off + (f_prs_NODE_CFG_len_fld_off.get n.cfg + fullWidth (f_prs_NODE_CFG_len_fld_width.get n.cfg) 16 + 7) / 8 else 0
  let selEnd := if f_prs_NODE_CFG_terminal.get n.cfg = 0 then
    off + (f_prs_NODE_CFG_sel_off.get n.cfg + fullWidth (f_prs_NODE_CFG_sel_width.get n.cfg) 32 + 7) / 8 else 0
  max lenEnd selEnd

/-- The byte past the length field alone. -/
def NodeWords.lenFieldEnd (n : NodeWords) (off : Nat) : Nat :=
  if f_prs_NODE_CFG_len_from_field.get n.cfg = 1 then
    off + (f_prs_NODE_CFG_len_fld_off.get n.cfg + fullWidth (f_prs_NODE_CFG_len_fld_width.get n.cfg) 16 + 7) / 8 else 0

/-- The header length a node computes (R39). -/
def NodeWords.headerLen (n : NodeWords) (v : FrameView) (off : Nat) : Nat :=
  let mult := match f_prs_NODE_CFG_len_mult.get n.cfg with | 1 => 4 | 2 => 8 | _ => 1
  f_prs_NODE_CFG_len_fixed.get n.cfg +
    (if f_prs_NODE_CFG_len_from_field.get n.cfg = 1 then
      v.bits off (f_prs_NODE_CFG_len_fld_off.get n.cfg)
        (fullWidth (f_prs_NODE_CFG_len_fld_width.get n.cfg) 16) * mult else 0)

/-- The 16-bit ones' complement sum of a list of 16-bit numbers. -/
def onesSum (l : List Nat) : Nat :=
  l.foldl (fun a x => let t := a + x; t % 65536 + t / 65536) 0

/-- The checks of a check class that fail on a header, with whether each stops the walk (R49). Codes 17 and 20 compare with
the enclosing IP header, and are not evaluated where no IPv4 or IPv6 node came before. A field beyond the frame end, in a
header shorter than its class's own, reads as zero: such an EtherType raises code 24. DESIGN CHOICE, log entry 77. -/
def classChecks (cls : Nat) (v : FrameView) (off hlen : Nat) (w : Walk) : List (Nat × Bool) :=
  let L := v.bytes.length
  let c (b : Bool) (r : Nat) (stops : Bool) : List (Nat × Bool) := if b then [(r, stops)] else []
  match cls with
  | 1 =>
    let ty := v.be (off + 12) 2
    c (v.byte (off + 6) % 2 == 1) 4 false ++
    c (v.be off 6 == 0 || v.be (off + 6) 6 == 0) 5 false ++
    c (decide (ty < 0x600) && decide (L < off + 14 + ty)) 24 false
  | 2 => c (decide (2 ≤ w.vlans)) 6 true
  | 3 =>
    let ihl := v.byte off % 16
    let tot := v.be (off + 2) 2
    let src := v.byte (off + 12)
    c (v.byte off / 16 != 4) 7 true ++
    c (decide (ihl < 5)) 8 true ++
    c (decide (tot < 4 * ihl)) 9 true ++
    c (decide (L < off + tot)) 10 false ++
    c (decide (5 ≤ ihl) && onesSum ((List.range (2 * ihl)).map fun i => v.be (off + 2 * i) 2) != 0xFFFF) 11 false ++
    c (src == 0 || src == 127 || decide (224 ≤ src)) 12 false
  | 4 =>
    let plen := v.be (off + 4) 2
    c (v.byte off / 16 != 6) 13 true ++
    c (plen != 0 && decide (L < off + 40 + plen)) 14 false ++
    c (v.byte (off + 8) == 0xFF || v.be (off + 8) 16 == 1) 15 false
  | 5 => c (w.prevClass == 5 && w.prevByte0 == 0) 16 false
  | 6 => c (decide (12 ≤ w.labels)) 18 true
  | 7 =>
    let ulen := v.be (off + 4) 2
    c (match w.ipEnd with | some e => decide (e < off + hlen) | none => false) 17 false ++
    c (decide (ulen < 8)) 19 false ++
    c (match w.ipEnd with | some e => off + ulen != e | none => false) 20 false
  | 8 =>
    let fl := v.byte (off + 13)
    c (match w.ipEnd with | some e => decide (e < off + hlen) | none => false) 17 false ++
    c (decide (v.byte (off + 12) / 16 < 5)) 21 true ++
    c (fl % 4 == 3 || fl == 0) 22 false
  | _ => []

/-- The byte beyond the header that a check of a class needs before it is settled (R36). -/
def classNeeds (cls : Nat) (v : FrameView) (off : Nat) : Option Nat :=
  match cls with
  | 1 => let ty := v.be (off + 12) 2; if ty < 0x600 then some (off + 13 + ty) else none
  | 3 => some (off + v.be (off + 2) 2 - 1)
  | 4 => let p := v.be (off + 4) 2; if p = 0 then none else some (off + 40 + p - 1)
  | _ => none

/-- The next node a header selects (R44): a node, the end of the walk, or none with SELECTOR_MISS. -/
inductive Branch
  | to (n : Nat)
  | done
  | miss
  deriving DecidableEq, Repr

/-- The branch a node takes on a header (R43, R44). -/
def NodeWords.branch (n : NodeWords) (v : FrameView) (off : Nat) : Branch :=
  if f_prs_NODE_CFG_terminal.get n.cfg = 1 then .done
  else
    let sel := v.bits off (f_prs_NODE_CFG_sel_off.get n.cfg) (fullWidth (f_prs_NODE_CFG_sel_width.get n.cfg) 32)
    match n.brs.find? fun b => f_prs_NODE_BR_valid.get b == 1 && f_prs_NODE_BR_value.get b == sel with
    | some b => .to (f_prs_NODE_BR_next_node.get b)
    | none =>
      match f_prs_NODE_CFG_def_kind.get n.cfg with
      | 0 => .to (f_prs_NODE_CFG_def_node.get n.cfg)
      | 1 => .done
      | _ => .miss

/-- What one node of a walk answers: the node is not settled, the walk ended, or it goes on. -/
inductive NodeOut
  | waits
  | ended (w : Walk)
  | goesOn (w : Walk)
  deriving DecidableEq, Repr

/-- The walk ends with a reason. -/
def Walk.stop (w : Walk) (r : Nat) : NodeOut := .ended { w with reasons := setReason w.reasons r }

/-- The byte past the last one that the checks of a class read (R49), whatever length the node computes. -/
def classReach (cls : Nat) (v : FrameView) (off : Nat) : Nat :=
  match cls with
  | 1 | 8 => off + 14
  | 3 => max (off + 13) (off + 4 * (v.byte off % 16))
  | 4 => off + 24
  | 5 => off + 1
  | 7 => off + 6
  | _ => 0

/-- The byte past the last one beyond the header that a node's class check, field check or extractions read, up to
byte 383 (R36). -/
def NodeWords.extraReach (n : NodeWords) (v : FrameView) (off : Nat) : Nat :=
  let chk := if f_prs_NODE_CHK_fld_chk_en.get n.chk = 1 then
    off + (f_prs_NODE_CHK_fld_off.get n.chk + fullWidth (f_prs_NODE_CHK_fld_width.get n.chk) 32 + 7) / 8 else 0
  let cls := classReach (f_prs_NODE_CHK_check_class.get n.chk) v off
  min 384 (n.extractions.foldl (fun a e => max a (off + e.1 + e.2.1)) (max chk cls))

/-- One node of the walk (R41, R44, R47 to R49): `maxBytes` and `maxHeaders` are the horizon, `bad` says
that the node cannot be read. DEDUCED, log entry 18. A length field beyond the frame end counts as zero bytes when the
header's length is tested against the horizon, so that PARSE_DEEP stands before SHORT_FRAME there. DESIGN CHOICE,
log entry 77. -/
def walkNode (maxBytes maxHeaders : Nat) (n : NodeWords) (bad : Bool) (v : FrameView) (w : Walk) : NodeOut :=
  let L := v.bytes.length
  let off := w.off
  if maxHeaders ≤ w.hov.length ∨ maxBytes ≤ off then w.stop 29
  else if bad then w.stop 0
  else if maxBytes < n.lenFieldEnd off then w.stop 29
  else if !v.settled (n.lenFieldEnd off - 1) && decide (0 < n.lenFieldEnd off) then .waits
  else
    let hlen := n.headerLen v off
    let reach := max (off + max hlen 1) (n.fieldEnd off)
    if maxBytes < reach then w.stop 29
    else if f_prs_NODE_CFG_valid.get n.cfg = 0 then w.stop 1
    else if !v.settled (reach - 1) then .waits
    else if L < reach then w.stop 2
    else
      let cls := f_prs_NODE_CHK_check_class.get n.chk
      let extra := n.extraReach v off
      if decide (0 < extra) && !v.settled (extra - 1) then .waits
      else if match classNeeds cls v off with | some i => !v.settled i | none => false then .waits
      else
        let fieldBad := f_prs_NODE_CHK_fld_chk_en.get n.chk == 1 &&
          v.bits off (f_prs_NODE_CHK_fld_off.get n.chk) (fullWidth (f_prs_NODE_CHK_fld_width.get n.chk) 32)
            != f_prs_NODE_CHK_fld_expect.get n.chk
        let found := (if hlen = 0 ∨ hlen < f_prs_NODE_CHK_min_len.get n.chk then [(3, true)] else []) ++
          classChecks cls v off hlen w ++ (if fieldBad then [(23, false)] else [])
        let w := { w with reasons := found.foldl (fun a f => setReason a f.1) w.reasons }
        if found.any (·.2) then .ended w
        else
          match n.branch v off with
          | .miss => w.stop 28
          | br =>
            let w' : Walk :=
              { w with
                hov := w.hov ++ [(f_prs_NODE_CFG_header_id.get n.cfg, off)]
                final := w.node
                kb := n.extractions.foldl (extractTo v off) w.kb
                vlans := if cls = 2 then w.vlans + 1 else 0
                labels := if cls = 6 then w.labels + 1 else 0
                prevClass := cls
                prevByte0 := v.byte off
                ipEnd := if cls = 3 then some (off + v.be (off + 2) 2)
                  else if cls = 4 then
                    (let p := v.be (off + 4) 2; if p = 0 then none else some (off + 40 + p))
                  else w.ipEnd
                lastEnd := off + hlen }
            match br with
            | .to m => .goesOn { w' with node := m, off := off + hlen }
            | _ => .ended w'

/-- How a walk stands after as many nodes as are settled: set aside or ended. -/
inductive WalkOut
  | setAside (w : Walk)
  | verdict (w : Walk)
  deriving DecidableEq, Repr

/-- The walk from a node on, while its nodes are settled (R36): `read` gives a node's words and whether it
cannot be read. At most 16 headers are entered, so 17 nodes are visited. -/
def walkFrom (maxBytes maxHeaders : Nat) (read : Nat → NodeWords × Bool) (v : FrameView) : Nat → Walk → WalkOut
  | 0, w => .verdict w
  | k + 1, w =>
    match walkNode maxBytes maxHeaders (read w.node).1 (read w.node).2 v w with
    | .waits => .setAside w
    | .ended w => .verdict w
    | .goesOn w => walkFrom maxBytes maxHeaders read v k w

/-- The lowest-numbered reason of a bitmap (R50): none where no bit is set, for GOOD. DEDUCED, log entry 18. -/
def verdictOf (reasons : Nat) : Option Nat := (List.range 32).find? (bitOf reasons)

/-! ### Hash units (R59 to R63) -/

/-- The Toeplitz hash of bytes under a 320-bit key, most significant bit first (R59). -/
def toeplitz (key : List Byte) (bs : List Byte) : Nat :=
  let k := beNat key
  let n := 8 * bs.length
  let x := beNat bs
  (List.range n).foldl
    (fun h i => if bitOf x (n - 1 - i) then h ^^^ (k / 2 ^ (320 - 32 - i) % 2 ^ 32) else h) 0

/-- The range of `len` key-bundle bytes at `off`; bytes beyond 127 read zero. -/
def kbRange (kb : List Byte) (off len : Nat) : List Byte :=
  (List.range len).map fun i => kb.getD (off + i) 0

/-- A range of the key bundle overwritten; bytes beyond 127 are discarded. -/
def kbWrite (kb : List Byte) (off : Nat) (bs : List Byte) : List Byte :=
  (List.range bs.length).foldl (fun kb i => setAt kb (off + i) (bs.getD i 0)) kb

/-- One symmetric pair applied: source, destination and length (R59). -/
def symPair (kb : List Byte) (p : Bool × Nat × Nat × Nat) : List Byte :=
  let (valid, src, dst, len) := p
  if valid then
    let a := kbRange kb src len
    let b := kbRange kb dst len
    if beNat b < beNat a then kbWrite (kbWrite kb src b) dst a else kb
  else kb

/-- The hash of unit `u` under its profile `p` (R59). DEDUCED, log entry 18. -/
def State.hashUnit (s : State) (u p : Nat) (kb : List Byte) : Nat :=
  let sym := s.rd .lbh_PROF_SYM [u, p]
  let kb := if s.flag .lbh_PROF_CFG [u, p] f_lbh_PROF_CFG_symmetric then
    [(f_lbh_PROF_SYM_valid0.get sym == 1, f_lbh_PROF_SYM_src_off0.get sym, f_lbh_PROF_SYM_dst_off0.get sym,
        f_lbh_PROF_SYM_len_m10.get sym + 1),
     (f_lbh_PROF_SYM_valid1.get sym == 1, f_lbh_PROF_SYM_src_off1.get sym, f_lbh_PROF_SYM_dst_off1.get sym,
        f_lbh_PROF_SYM_len_m11.get sym + 1),
     (f_lbh_PROF_SYM_valid2.get sym == 1, f_lbh_PROF_SYM_src_off2.get sym, f_lbh_PROF_SYM_dst_off2.get sym,
        f_lbh_PROF_SYM_len_m12.get sym + 1)].foldl symPair kb else kb
  let m0 := (s.rd .lbh_PROF_MASK [u, p, 0]).toNat
  let m1 := (s.rd .lbh_PROF_MASK [u, p, 1]).toNat
  let sel := (List.range 128).filterMap fun i =>
    if bitOf (if i < 64 then m0 else m1) (i % 64) then some (kb.getD i 0) else none
  if s.flag .lbh_PROF_CFG [u, p] f_lbh_PROF_CFG_algo then
    toeplitz ((List.range 5).flatMap fun k => natLE 8 (s.rd .lbh_TOEP_KEY [u, p, k]).toNat) (sel.take 36)
  else crc32c (s.fld .lbh_PROF_CFG [u, p] f_lbh_PROF_CFG_seed) sel

end Sys2Proof.Machine
end

