-- ==== Sys2Proof/Machine/Tables.lean ====
section
/-! DEFINITION. The tables that lookups name: entries with their committed and earlier states, the LPM, exact
match, next-hop, ECMP and LAG engines, the fast-break table, stamps and counters (chapter 6). -/

namespace Sys2Proof.Machine

/-! ### HBM placement (R410) -/

/-- The controller of stacks 4-5 that holds table address `t`, and the channel-local address (R410). -/
def feController (t : Nat) : Nat := let u := t / 256; (u ^^^ (u / 64) ^^^ (u / 4096)) % 64
def feLocal (t : Nat) : Nat := (t / 256 / 64) * 256 + t % 256

/-- Whether controller `k` of stacks 4-5 serves its data: its channel is ON and not frozen (R232). -/
def State.feChannelOk (s : State) (k : Nat) : Bool :=
  s.fld .fe_hmc_CH_STATUS [k] f_fe_hmc_CH_STATUS_state == 2 && !s.flag .fe_hmc_CH_STATUS [k] f_fe_hmc_CH_STATUS_frozen

/-- Whether the data at byte `off` of region `r` can be reached (R232, R410). -/
def State.regionOk (s : State) (r off : Nat) : Bool :=
  s.feChannelOk (feController (s.fld .fe_hmc_REGION [r] f_fe_hmc_REGION_base * 2 ^ 26 + off))

/-- A table address of region `r` at an offset (R410). -/
def State.regionAddr (s : State) (r off : Nat) : Nat := s.fld .fe_hmc_REGION [r] f_fe_hmc_REGION_base * 2 ^ 26 + off

/-- The table address of a way of a bucket in HBM (R194, R410). -/
def State.wayAddr (s : State) (loc : Nat) : Nat := s.regionAddr 1 (256 * (loc / 4 - 2 ^ 23) + 64 * (loc % 4))

/-- The table address of a route (unit kind 2) or an exact-match entry (3) at place `loc`, where it lies in HBM (R189,
R194, R410). -/
def State.entryTable (s : State) (kind loc : Nat) : Option Nat :=
  if kind = 2 ∧ 0 < loc then some (s.regionAddr 0 (32 * (loc - 1)))
  else if kind = 3 ∧ 2 ^ 23 ≤ loc / 4 then some (s.wayAddr loc)
  else none

/-- An access of class `cls` to the granule of stacks 4-5 at a table address (R410, R412). -/
def State.tableAccess (s : State) (cls t : Nat) (write : Bool) : State :=
  s.hbmUnit (128 + feController t) cls (feLocal t / 64) write

/-- The bytes of region `r`. -/
def State.regionSize (s : State) (r : Nat) : Nat := s.fld .fe_hmc_REGION [r] f_fe_hmc_REGION_size * 2 ^ 26

/-! ### Entries by sequence position (R223, R226) -/

/-- The place of an entry: its unit kind, its instance and its key or index. -/
def cellKey (kind inst k : Nat) : Nat := (kind * 256 + inst) * 2 ^ 192 + k

/-- The state of an entry in force at packet `q`'s sequence position (R223). -/
def Cell.at (c : Cell) (q : Nat) : Option TEntry :=
  match c.old with
  | some o => if q < c.seq then o else c.cur
  | none => c.cur

/-- The entry at a place as a packet sees it, and as committed. -/
def State.cell (s : State) (k : Nat) : Cell := SMap.get {} s.tab.cells k
def State.entryAt (s : State) (q k : Nat) : Option TEntry := (s.cell k).at q
def State.entryNow (s : State) (k : Nat) : Option TEntry := (s.cell k).cur

/-- The cell at a place replaced. -/
def State.putCell (s : State) (k : Nat) (c : Cell) : State :=
  { s with tab := { s.tab with cells := SMap.put {} s.tab.cells k c } }

/-- A new state of an entry committed at sequence point `n`, the former one kept for earlier packets (R226). -/
def State.commitCell (s : State) (n k : Nat) (v : Option TEntry) : State :=
  s.putCell k { cur := v, old := some (s.cell k).cur, seq := n }

/-- A register as packet `q` sees it: its earlier value where REG_WRITE changed it at a later point (R226). -/
def State.rdAt (s : State) (q : Nat) (r : Reg) (ix : List Nat) : Word :=
  match SMap.find? s.tab.regOld (r.addr ix) with
  | some (n, old) => if q < n then old else s.rd r ix
  | none => s.rd r ix
def State.fldAt (s : State) (q : Nat) (r : Reg) (ix : List Nat) (f : Fld) : Nat := f.get (s.rdAt q r ix)

/-- Places of the entries of each unit (R219): a route, an exact-match key, a next hop, a group descriptor,
a pool slot, a fast-break key and a table's default data. -/
def routeKey (slice family plen vrf addr : Nat) : Nat :=
  cellKey 2 slice (((family * 256 + plen) * 2 ^ 16 + vrf) * 2 ^ 128 + addr)
def exmKey (table : Nat) (key : List Byte) : Nat := cellKey 3 table (beNat (padTo 16 key))
def nhopKey (i : Nat) : Nat := cellKey 6 0 i
def groupKey (kind g : Nat) : Nat := cellKey kind 0 g
def poolKey (kind n : Nat) : Nat := cellKey kind 0 (2 ^ 63 + n)
def fbkKey (k : Nat) : Nat := cellKey 9 0 k
def defaultKey (kind inst : Nat) : Nat := cellKey (128 + kind) inst 0

/-- A table's default action data at a sequence position (R188). -/
def State.defaultAt (s : State) (q kind inst : Nat) : Nat :=
  match s.entryAt q (defaultKey kind inst) with | some e => e.data | none => 0

/-- A miss with its default data, a hit, and the other statuses (R124). -/
def State.missAt (s : State) (q kind inst : Nat) : LkResult := ⟨0, s.defaultAt q kind inst, none⟩
def hitOf (k : Nat) (e : TEntry) : LkResult := ⟨1, e.data % 2 ^ 120, some (k, e.id)⟩
def unavailable : LkResult := ⟨2, 0, none⟩

/-! ### LPM (R189 to R191) -/

/-- The longest route that matches an address of `w` bits, among prefix lengths up to `n` (R190), and
whether an HBM route on the way cannot be reached (R232). -/
def State.lpmFind (s : State) (q slice family w vrf addr : Nat) : Nat → Option (Nat × TEntry)
  | 0 => (s.entryAt q (routeKey slice family 0 vrf 0)).map fun (e : TEntry) => (routeKey slice family 0 vrf 0, e)
  | n + 1 =>
    let k := routeKey slice family (n + 1) vrf (addr / 2 ^ (w - (n + 1)) * 2 ^ (w - (n + 1)))
    match s.entryAt q k with
    | some e => some (k, e)
    | none => s.lpmFind q slice family w vrf addr n

/-- The answer of an LPM slice (R187, R190): a 6-byte key is an IPv4 key and an 18-byte key an IPv6 one.
DESIGN CHOICE, log entry 33. -/
def State.lpmAnswer (s : State) (q slice : Nat) (key : List Byte) : LkResult :=
  let vrf := beNat (key.take 2)
  let addr := beNat (key.drop 2)
  let family := if key.length = 6 then 0 else 1
  let w := if family = 0 then 32 else 128
  match s.lpmFind q slice family w vrf addr w with
  | some (k, e) => if 0 < e.loc && !s.regionOk 0 (32 * (e.loc - 1)) then unavailable else hitOf k e
  | none => s.missAt q 2 slice

/-! ### Exact match (R194) -/

/-- The bucket a hash names in a region of a table: on-die bucket numbers as they are, HBM ones from 2²³
(R194, R228). -/
def State.exmBucket (s : State) (i : Nat) (hbm : Bool) (h : Nat) : Nat :=
  if hbm then 2 ^ 23 + s.fld .exm_TBL_GEOM [i] f_exm_TBL_GEOM_hbm_base +
    h % 2 ^ s.fld .exm_TBL_GEOM [i] f_exm_TBL_GEOM_hbm_log2
  else s.fld .exm_TBL_GEOM [i] f_exm_TBL_GEOM_ondie_base + h % 2 ^ s.fld .exm_TBL_GEOM [i] f_exm_TBL_GEOM_ondie_log2

/-- The key length of an exact-match table: that of the lowest directory entry naming it (R187). -/
def State.exmKeyLen (s : State) (i : Nat) : Nat :=
  match (List.range 256).find? fun t =>
    s.flag .rau_TBL_DIR [t] f_rau_TBL_DIR_valid && s.fld .rau_TBL_DIR [t] f_rau_TBL_DIR_kind == 2 &&
      s.fld .rau_TBL_DIR [t] f_rau_TBL_DIR_inst == i with
  | some t => s.fld .rau_TBL_DIR [t] f_rau_TBL_DIR_key_len_m1 + 1
  | none => 16

/-- The two candidate buckets of a key (R194). -/
def State.exmBuckets (s : State) (i : Nat) (key : List Byte) : Nat × Nat :=
  let seed := s.fld .exm_TBL_CFG [i] f_exm_TBL_CFG_hash_seed
  let h0 := crc32c seed key
  let h1 := crc32c (seed ^^^ 0xFFFFFFFF) key
  let die := s.fld .exm_TBL_GEOM [i] f_exm_TBL_GEOM_ondie_log2 != 31
  let hbm := s.fld .exm_TBL_GEOM [i] f_exm_TBL_GEOM_hbm_log2 != 31
  (s.exmBucket i (!die) h0, s.exmBucket i hbm h1)

/-- Whether a bucket can be reached (R232). -/
def State.bucketOk (s : State) (b : Nat) : Bool := decide (b < 2 ^ 23) || s.regionOk 1 (256 * (b - 2 ^ 23))

/-- The answer of an exact-match table (R194, R232): b0 is probed first, and b1 on a miss there. -/
def State.exmAnswer (s : State) (q i : Nat) (key : List Byte) : LkResult :=
  let (b0, b1) := s.exmBuckets i key
  let k := exmKey i key
  match s.entryAt q k with
  | some e =>
    let inFirst := e.loc / 4 == b0
    if !s.bucketOk b0 || (!inFirst && !s.bucketOk b1) then unavailable else hitOf k e
  | none => if s.bucketOk b0 && s.bucketOk b1 then s.missAt q 3 i else unavailable

/-! ### Next hops, ECMP and LAG (R205, R206, R66, R67) -/

/-- The answer of the next-hop table (R205). -/
def State.nhopAnswer (s : State) (q i : Nat) : LkResult :=
  if 0xFFFFF < i then s.missAt q 6 0
  else match s.entryAt q (nhopKey i) with
    | some e => hitOf (nhopKey i) e
    | none => ⟨1, 0, none⟩

/-- Slots of a descriptor, where it is valid and its size is defined (R66). -/
def groupSize (d : Nat) : Option Nat :=
  if !bitOf d 63 then none
  else match bitsOf d 61 2 with | 0 => some 256 | 1 => some 1024 | 2 => some 4096 | _ => none

/-- First pool slot of a descriptor: for LAG only bits [19:0] are used (R66). -/
def groupBase (kind d : Nat) : Nat := if kind = 8 then bitsOf d 0 20 else bitsOf d 0 22

/-- The null value of a pool (R67). -/
def poolNull (kind : Nat) : Nat := if kind = 8 then 0xFFFF else 0xFFFFF

/-- A pool slot at a sequence position: never written, it holds null. -/
def State.poolAt (s : State) (q kind n : Nat) : Nat :=
  match s.entryAt q (poolKey kind n) with | some e => e.data | none => poolNull kind

/-- The answer of an ECMP (unit 7) or LAG (unit 8) selection (R67, R206). -/
def State.groupAnswer (s : State) (q kind g hash shift : Nat) : LkResult :=
  if kind = 8 ∧ 4095 < g then s.missAt q 8 0
  else
    let d := match s.entryAt q (groupKey kind g) with | some e => e.data | none => 0
    match groupSize d with
    | none => ⟨4, 0, none⟩
    | some n =>
      let v := s.poolAt q kind (groupBase kind d + (hash / 2 ^ (min shift 20)) % n)
      if v = poolNull kind then ⟨4, 0, none⟩ else ⟨1, v, none⟩

/-! ### The fast-break table (R173) -/

/-- The action of the fast-break entry with a key, and the entry. DESIGN CHOICE, log entry 33. -/
def State.fbkAt (s : State) (q k : Nat) : Option TEntry :=
  match s.entryAt q (fbkKey k) with
  | some e => if bitOf e.data 63 then some e else none
  | none => none

/-! ### Stamps (R190, R198) -/

/-- The age epoch in force at packet `q`'s sequence position (R198). -/
def State.epochAt (s : State) (q : Nat) : Nat :=
  match s.tab.epochs.find? fun e => decide (q < e.1) with
  | some e => e.2
  | none => s.fld .exm_AGE_EPOCH [] f_exm_AGE_EPOCH_epoch

/-- The hit bit and, in exact match, the age stamp of the entry a committed lookup of packet `q` hit: given
only where that entry is still present (R190, R198). A table without stamps keeps none. -/
def State.stampHit (s : State) (q : Nat) (h : Nat × Nat) : State :=
  let c := s.cell h.1
  match c.cur with
  | some e =>
    if e.id = h.2 then
      let kind := h.1 / 2 ^ 200
      let inst := h.1 / 2 ^ 192 % 256
      if kind = 3 then
        if s.flag .exm_TBL_CFG [inst] f_exm_TBL_CFG_stamps then
          s.putCell h.1 { c with cur := some { e with hit := true, stamp := s.epochAt q } }
        else s
      else if kind = 2 ∨ kind = 9 then s.putCell h.1 { c with cur := some { e with hit := true } }
      else s
    else s
  | none => s

/-! ### Counters (R208) -/

/-- Counters that the carving holds: 16 bytes each in region 4 (R410). -/
def State.counterCount (s : State) : Nat := s.regionSize 4 / 16

/-- A counter as packets + 2⁶⁴ × bytes. -/
def State.counterPair (s : State) (n : Nat) : Nat := SMap.get 0 s.tab.counters n

/-- A counter gains packets and bytes, or loses the increment on a frozen channel (R208, R209). -/
def State.counterAdd (s : State) (n packets bytes : Nat) : State :=
  if s.regionOk 4 (16 * n) then
    let v := s.counterPair n
    { s with tab := { s.tab with
        counters := SMap.put 0 s.tab.counters n
          ((v % 2 ^ 64 + packets) % 2 ^ 64 + ((v / 2 ^ 64 + bytes) % 2 ^ 64) * 2 ^ 64) } }
  else s.addSat .exm_CTR_STATUS [] f_exm_CTR_STATUS_lost 1

/-! ### The table directory (R186, R187) -/

/-- Whether a table identifier is defined, and its key length. -/
def State.tableKeyLen (s : State) (t : Nat) : Option Nat :=
  if s.flag .rau_TBL_DIR [t] f_rau_TBL_DIR_valid then some (s.fld .rau_TBL_DIR [t] f_rau_TBL_DIR_key_len_m1 + 1)
  else none

end Sys2Proof.Machine
end

