-- ==== Sys2Proof/Machine/Classify.lean ====
section
/-! DEFINITION. Searches of the TCAM and walks of the tree classifier (chapter 7, R244 to R252, R266 to
R271). -/

namespace Sys2Proof.Machine

/-! ### TCAM layout (R244 to R246) -/

/-- Blocks in a chain of a table's width, and the bytes of a key segment in one block. -/
def chainLen (width : Nat) : Nat := match width with | 2 => 2 | 3 => 4 | _ => 1
def segBytes (width : Nat) : Nat := if width = 0 then 10 else 20

/-- Entries of a chain (R244). -/
def chainEntries (width : Nat) : Nat := if width = 0 then 4096 else 2048

/-- The row that position `pos` occupies (R245). -/
def tcamRow (width pos : Nat) : Nat := if width = 0 then pos / 2 else pos

/-- The table that holds a block (R246). -/
def State.tcamTableOf (s : State) (b : Nat) : Option Nat :=
  (List.range 16).find? fun t =>
    s.flag .tcm_TBL_CFG [t] f_tcm_TBL_CFG_valid &&
      decide (s.fld .tcm_TBL_CFG [t] f_tcm_TBL_CFG_first_block ≤ b) &&
      decide (b < s.fld .tcm_TBL_CFG [t] f_tcm_TBL_CFG_first_block + s.fld .tcm_TBL_CFG [t] f_tcm_TBL_CFG_block_count)

/-- The width of a table. -/
def State.tcamWidth (s : State) (t : Nat) : Nat := s.fld .tcm_TBL_CFG [t] f_tcm_TBL_CFG_width

/-- The first block of the chain that holds block `b` of table `t`. -/
def State.tcamChain (s : State) (t b : Nat) : Nat :=
  let f := s.fld .tcm_TBL_CFG [t] f_tcm_TBL_CFG_first_block
  let n := chainLen (s.tcamWidth t)
  f + (b - f) / n * n

/-- The segment at a block and position. -/
def State.tcamEnt (s : State) (b pos : Nat) : TcamEnt := SMap.get {} s.cls.tcam (b * 4096 + pos)

/-- Whether an odd number of the lowest 20 bits is set. -/
def oddBits (v : Nat) : Bool := (List.range 20).foldl (fun a i => a != bitOf v i) false

/-- One parity bit per 20-bit slice of a word, from bit 0 up (R260). -/
def sliceParity (v : Nat) : Nat :=
  (List.range 8).foldl (fun a i => a + (if oddBits (bitsOf v (20 * i) 20) then 2 ^ i else 0)) 0

/-- The parity of a segment as it stands: that of V, then that of C (R260). -/
def TcamEnt.parityNow (e : TcamEnt) : Nat := sliceParity e.v + 2 ^ 8 * sliceParity e.c

/-- A segment as a row write leaves it: its parity goes to the shadow with it (R260). -/
def TcamEnt.written (e : TcamEnt) : TcamEnt := { e with parity := e.parityNow }

/-- A segment replaced. -/
def State.tcamPut (s : State) (b pos : Nat) (e : TcamEnt) : State :=
  { s with cls := { s.cls with tcam := SMap.put {} s.cls.tcam (b * 4096 + pos) e } }

/-- The entries of a block that are listed, by position upward. -/
def State.tcamList (s : State) (b : Nat) : List (Nat × TcamEnt) :=
  s.cls.tcam.filterMap fun e => if e.1 / 4096 = b then some (e.1 % 4096, e.2) else none

/-- A block's segment matches its part of a key (R245, R248, R256, R260). -/
def TcamEnt.hits (e : TcamEnt) (seg : Nat) : Bool := e.set && !e.killed && (e.v &&& e.c) == (seg &&& e.c)

/-- Whether an entry in a state is visible to packet `q` (R252). -/
def tcamVisible (state q sb : Nat) : Bool :=
  state == 2 || state == 3 || (state == 4 && decide (sb ≤ q)) || (state == 5 && decide (q < sb))

/-- The winner within a chain (R249): the visible matching entry at the lowest position. -/
def State.chainWinner (s : State) (q first n bytes : Nat) (key : List Byte) : Option (Nat × TcamEnt) :=
  let sb := (s.rd .tcm_BLK_SEQ [first]).toNat
  (s.tcamList first).find? fun (pos, e) =>
    tcamVisible e.state q sb &&
      (List.range n).all fun k => (s.tcamEnt (first + k) pos).hits (beNat ((key.drop (bytes * k)).take bytes))

/-- The answer of a TCAM table (R249, R251). -/
def State.tcamAnswer (s : State) (q t : Nat) (key : List Byte) : LkResult :=
  let w := s.tcamWidth t
  let n := chainLen w
  let f := s.fld .tcm_TBL_CFG [t] f_tcm_TBL_CFG_first_block
  let chains := (List.range (s.fld .tcm_TBL_CFG [t] f_tcm_TBL_CFG_block_count / n)).map fun i => f + i * n
  let best := chains.foldl (fun (acc : Option (Nat × Nat × TcamEnt)) b =>
    match s.chainWinner q b n (segBytes w) key with
    | some (pos, e) =>
      match acc with
      | some (_, _, a) => if a.p < e.p then some (b, pos, e) else acc
      | none => some (b, pos, e)
    | none => acc) none
  match best with
  | some (b, pos, e) => ⟨1, e.d + e.p * 2 ^ 32 + pos * 2 ^ 48 + b * 2 ^ 60, none⟩
  | none => s.missAt q 4 t

/-! ### Tree classifier (R266 to R272) -/

/-- A word of a node line, and a byte of a rule body, of table `i` (relative indices). -/
def State.nodeWord (s : State) (i line w : Nat) : Nat :=
  (SMap.get 0 s.cls.nodes ((s.fld .dtc_TBL_NODES [i] f_dtc_TBL_NODES_node_base + line) * 8 + w)).toNat
def State.ruleBytes (s : State) (i rule off n : Nat) : List Byte :=
  s.cls.rules.readBytes ((s.fld .dtc_TBL_CFG [i] f_dtc_TBL_CFG_rule_base + rule) * 128 + off) n

/-- Whether the HBM lines of a node, and of a rule body, can be reached (R274). -/
def State.nodeOk (s : State) (i line : Nat) : Bool :=
  s.regionOk 2 (64 * (s.fld .dtc_TBL_NODES [i] f_dtc_TBL_NODES_node_base + line))
def State.ruleOk (s : State) (i rule : Nat) : Bool :=
  s.regionOk 3 (128 * (s.fld .dtc_TBL_CFG [i] f_dtc_TBL_CFG_rule_base + rule))

/-- The pending list of a table, and the sequence point of its latest commit (R271). -/
def State.dtcPend (s : State) (i : Nat) : List PendItem := SMap.get [] s.cls.pend i
def State.dtcSeq (s : State) (i : Nat) : Nat := (s.rd .dtc_SEQ [i]).toNat

/-- A leaf slot's change was committed (R271). -/
def State.slotCommitted (s : State) (i line k : Nat) : Bool :=
  (s.dtcPend i).any fun p => match p with
    | .slot l j _ c => l == line && j == k && c
    | .root .. => false

/-- Whether a leaf slot in a state is visible to packet `q` (R271). -/
def State.slotVisible (s : State) (i line k state q : Nat) : Bool :=
  let after := s.slotCommitted i line k && decide (s.dtcSeq i ≤ q)
  match state with
  | 1 => true
  | 2 => after
  | 3 => !after
  | _ => false

/-- Whether a rule body matches a key (R268). -/
def State.ruleMatches (s : State) (i rule : Nat) (key : List Byte) : Bool :=
  let b := s.ruleBytes i rule 0 128
  let key := padTo 48 key
  let flags := leAt b 102 1
  let range (k : Nat) : Bool :=
    let o := leAt b (103 + 5 * k) 1
    let f := beNat ((key.drop o).take 2)
    !bitOf flags (1 + k) || (decide (leAt b (104 + 5 * k) 2 ≤ f) && decide (f ≤ leAt b (106 + 5 * k) 2))
  bitOf flags 0 &&
    (List.range 48).all (fun n => (b.getD n 0) &&& (b.getD (48 + n) 0) == (key.getD n 0) &&& (b.getD (48 + n) 0)) &&
    range 0 && range 1

/-- Priority and data of a rule body. -/
def State.rulePriority (s : State) (i rule : Nat) : Nat := leNat (s.ruleBytes i rule 96 2)
def State.ruleData (s : State) (i rule : Nat) : Nat := leNat (s.ruleBytes i rule 98 4)

/-- Whether rule `a` beats rule `b` (R269). -/
def State.beats (s : State) (i a b : Nat) : Bool :=
  let pa := s.rulePriority i a
  let pb := s.rulePriority i b
  decide (pb < pa) || (pa == pb && decide (a < b))

/-- What a tree's walk answers: its best rule, the lines of its errors, and whether a line or body on the way
could not be reached. -/
structure TreeOut where
  best : Option Nat := none
  errors : List Nat := []
  gone : Bool := false
  deriving DecidableEq, Repr

/-- Bits of a key for a CUT: `n` bits from bit `off`; bits beyond byte 47 read zero (R267). -/
def keyBits (key : List Byte) (off n : Nat) : Nat :=
  let k := beNat (padTo 49 (padTo 48 key))
  k / 2 ^ (392 - off - n) % 2 ^ n

/-- The best rule of a leaf for packet `q`. -/
def State.leafBest (s : State) (q i line : Nat) (key : List Byte) : TreeOut :=
  (List.range 7).foldl (fun (o : TreeOut) j =>
    let w := s.nodeWord i line (j + 1)
    let rule := bitsOf w 0 20
    if s.slotVisible i line (j + 1) (bitsOf w 62 2) q then
      if 2 ^ s.fld .dtc_TBL_CFG [i] f_dtc_TBL_CFG_rule_log2 ≤ rule then { o with errors := o.errors ++ [line] }
      else if !s.ruleOk i rule then { o with gone := true }
      else if s.ruleMatches i rule key && (match o.best with | some b => s.beats i rule b | none => true)
      then { o with best := some rule } else o
    else o) {}

/-- The walk of one tree from a line, at most 16 lines deep (R269). -/
def State.treeWalk (s : State) (q i : Nat) (key : List Byte) : Nat → Nat → TreeOut
  | 0, line => { errors := [line] }
  | d + 1, line =>
    if !s.nodeOk i line then { gone := true }
    else
      let w := s.nodeWord i line 0
      match bitsOf w 62 2 with
      | 0 => {}
      | 1 =>
        let n := bitsOf w 0 24 + keyBits key (bitsOf w 53 9) (bitsOf w 50 3 + 1)
        if 2 ^ s.fld .dtc_TBL_NODES [i] f_dtc_TBL_NODES_node_log2 ≤ n then { errors := [line] }
        else s.treeWalk q i key d n
      | 2 => s.leafBest q i line key
      | _ => { errors := [line] }

/-- The root of a tree in force for packet `q` (R271, R272). -/
def State.rootAt (s : State) (q i tree : Nat) : Word :=
  match (s.dtcPend i).find? (fun p => match p with | .root t _ _ c => t == tree && c | .slot .. => false) with
  | some (.root _ old new _) => if q < s.dtcSeq i then old else new
  | _ => s.rd .dtc_ROOT [tree]

/-- The answer of a classifier table, and the walk errors met as trees and lines (R269, R274). -/
def State.dtcAnswer (s : State) (q i : Nat) (key : List Byte) : LkResult × List (Nat × Nat) :=
  let first := s.fld .dtc_TBL_CFG [i] f_dtc_TBL_CFG_first_tree
  let outs := (List.range (s.fld .dtc_TBL_CFG [i] f_dtc_TBL_CFG_tree_count)).map fun j =>
    let r := s.rootAt q i (first + j)
    let line := f_dtc_ROOT_line.get r
    (first + j,
      if f_dtc_ROOT_valid.get r = 0 then ({} : TreeOut)
      else if 2 ^ s.fld .dtc_TBL_NODES [i] f_dtc_TBL_NODES_node_log2 ≤ line then { errors := [line] }
      else s.treeWalk q i key 16 line)
  let errors := outs.flatMap fun (t, o) => o.errors.map fun l => (t, l)
  if outs.any (·.2.gone) then (unavailable, errors)
  else
    let best := outs.foldl (fun (acc : Option (Nat × Nat)) (t, o) =>
      match o.best with
      | some r => match acc with
        | some (_, a) => if s.beats i r a then some (t, r) else acc
        | none => some (t, r)
      | none => acc) none
    match best with
    | some (t, r) =>
      (⟨1, s.ruleData i r + s.rulePriority i r * 2 ^ 32 + r * 2 ^ 48 + t * 2 ^ 68, none⟩, errors)
    | none => (s.missAt q 5 i, errors)

/-- The location and address words of a line of node memory: the controller of stacks 4-5 that holds it, and its HBM
address (R22, R23, R409, R410). DEDUCED, log entry 11. -/
def State.nodeLoc (s : State) (i line : Nat) : Word × Word :=
  let t := s.fld .fe_hmc_REGION [2] f_fe_hmc_REGION_base * 2 ^ 26 +
    64 * (s.fld .dtc_TBL_NODES [i] f_dtc_TBL_NODES_node_base + line)
  (locTile 2 2 0 0x3F 5 (128 + feController t), BitVec.ofNat 64 ((128 + feController t) * 2 ^ 30 + feLocal t))

/-- Walk errors of a lookup counted, recorded and posted (R22, R269, R278, R512). -/
def State.walkErrors (s : State) (i : Nat) (errs : List (Nat × Nat)) : State :=
  s.each errs fun s e =>
    let s := s.addSat .dtc_STATUS [i] f_dtc_STATUS_walk_errors 1
    let s := s.setFld .dtc_STATUS [i] f_dtc_STATUS_last_err_line e.2
    let (loc, addr) := s.nodeLoc i e.2
    s.postEventAt 0x012 loc addr (natLE 1 i ++ natLE 2 e.1 ++ natLE 4 e.2)

/-- The answer of the engine that a table identifier names, for packet `q` with its selection hash and shift
(R186, R187, R166), and the state after it. -/
def State.engineAnswer (s : State) (q t : Nat) (key : List Byte) (hash shift : Nat) : LkResult × State :=
  let inst := s.fld .rau_TBL_DIR [t] f_rau_TBL_DIR_inst
  match s.fld .rau_TBL_DIR [t] f_rau_TBL_DIR_kind with
  | 1 => (s.lpmAnswer q inst key, s)
  | 2 => (s.exmAnswer q inst key, s)
  | 3 => (s.tcamAnswer q inst key, s)
  | 4 => let (r, e) := s.dtcAnswer q inst key; (r, s.walkErrors inst e)
  | 5 => (s.nhopAnswer q (beNat key), s)
  | 6 => (s.groupAnswer q 7 (beNat key) hash shift, s)
  | 7 => (s.groupAnswer q 8 (beNat key) hash shift, s)
  | _ => (s.missAt q 0 inst, s)

end Sys2Proof.Machine
end

