-- ==== Sys2Proof/Machine/Policer.lean ====
section
/-! DEFINITION. Data and exception policers (chapter 9, R339 to R348). -/

namespace Sys2Proof.Machine

/-- The place of exception policer `i` among the policers; data policer `n` is at `n` (R343, R348). -/
def excPol (i : Nat) : Nat := 2 ^ 20 + i

/-- Ticks between refill boundaries (R340). -/
def refillTicks : Nat := 5120

/-- Whether a policer is an exception policer, and its increments and bursts in its own units (R343, R348). -/
def polIncs (exc : Bool) (cfg : Nat) : (Nat × Nat) × (Nat × Nat) :=
  if exc then ((bitsOf cfg 0 32, bitsOf cfg 32 16 * 65536), (0, 0))
  else ((bitsOf cfg 0 32, bitsOf cfg 64 24 * 256), (bitsOf cfg 32 32, bitsOf cfg 88 24 * 256))

/-- The levels refilled up to boundary `b` (R340). DESIGN CHOICE, log entry 45. -/
def Policer.refill (p : Policer) (exc : Bool) (b : Nat) : Policer :=
  if b ≤ p.last then p
  else
    let ((i0, c0), (i1, c1)) := polIncs exc p.cfg
    { p with lvl0 := min c0 (p.lvl0 + (b - p.last) * i0), lvl1 := min c1 (p.lvl1 + (b - p.last) * i1), last := b }

/-- The WRITEs whose boundaries are reached take effect, each at its own (R344). -/
def Policer.applyPend (exc : Bool) (b : Nat) : List (Nat × Nat × Option Nat) → Policer → Policer
  | (cfg, n, some at') :: rest, p =>
    if at' ≤ b then
      let p := p.refill exc at'
      let ((_, c0), (_, c1)) := polIncs exc cfg
      applyPend exc b rest { p with cfg, lvl0 := min c0 p.lvl0, lvl1 := min c1 p.lvl1, prevs := (p.cfg, at') :: p.prevs }
    else { p with pend := (cfg, n, some at') :: rest }
  | rest, p => { p with pend := rest }

/-- The policer as a charge at boundary `b` finds it (R340, R344). DESIGN CHOICE, log entry 45. -/
def Policer.upTo (p : Policer) (exc : Bool) (b : Nat) : Policer := (applyPend exc b p.pend p).refill exc b

/-- The record a charge at boundary `b` uses: the one that the earliest change after `b` replaced (R344).
DESIGN CHOICE, log entry 45. -/
def Policer.modeAt (p : Policer) (b : Nat) : Nat :=
  match (p.prevs.filter fun e => decide (b < e.2)).getLast? with
  | some e => e.1
  | none => p.cfg

/-- A colour-blind charge of `bytes` (R341): colour 0 green, 1 yellow, 2 red. -/
def Policer.colour (p : Policer) (mode bytes : Nat) : Nat × Policer :=
  let n := bytes * 256
  match mode with
  | 1 =>
    if p.lvl1 < n then (2, p)
    else if p.lvl0 < n then (1, { p with lvl1 := p.lvl1 - n })
    else (0, { p with lvl1 := p.lvl1 - n, lvl0 := p.lvl0 - n })
  | 2 =>
    if n ≤ p.lvl0 then (0, { p with lvl0 := p.lvl0 - n })
    else if n ≤ p.lvl1 then (1, { p with lvl1 := p.lvl1 - n })
    else (2, p)
  | _ => (0, p)

/-- A policer's state. -/
def State.pol (s : State) (k : Nat) : Policer := SMap.get {} s.pols k
def State.putPol (s : State) (k : Nat) (p : Policer) : State := { s with pols := SMap.put {} s.pols k p }

/-- The first granule of the data policers on a channel of stacks 0-3, and the granule of policer `n` (R411). -/
def polGranule : Nat := 804782080 / 64
def polGran (n : Nat) : Nat := polGranule + n / 128

/-- Whether the channel of stacks 0-3 that holds data policer `n` serves it (R345, R411): where no state is carved for
policers, none does. DESIGN CHOICE, log entry 45. -/
def State.polOk (s : State) (n : Nat) : Bool :=
  s.flag .tm_hmc_CARVE [] f_tm_hmc_CARVE_pol_en && s.fld .tm_hmc_CH_STATUS [n % 128] f_tm_hmc_CH_STATUS_state == 2 &&
    !s.flag .tm_hmc_CH_STATUS [n % 128] f_tm_hmc_CH_STATUS_frozen

/-- A charge of a data policer at timestamp `t` (R340 to R345): its colour, whether it is red with red_drop
set, and the state after it. -/
def State.dataCharge (s : State) (n bytes : Nat) (t : Word) : Nat × Bool × State :=
  let s := s.count1 208 4
  if !s.polOk n then
    (s.fld .pol_CFG [] f_pol_CFG_frozen_colour |> min 2, false,
      s.addSat .pol_STATUS [] f_pol_STATUS_frozen_charges 1)
  else
    let b := t.toNat / refillTicks
    let p := (s.pol n).upTo false b
    let cfg := p.modeAt b
    let (c, p) := p.colour (bitsOf cfg 112 2) bytes
    let p := { p with
      cnt0 := if c = 0 then p.cnt0 + 1 else p.cnt0
      cnt1 := if c = 1 then p.cnt1 + 1 else p.cnt1
      cnt2 := if c = 2 then p.cnt2 + 1 else p.cnt2 }
    let s := (s.putPol n p).when (c == 2) (·.count1 208 5)
    let s := (s.hbmUnit (n % 128) 2 (polGran n) false).hbmUnit (n % 128) 2 (polGran n) true
    (c, c == 2 && bitOf cfg 114, s)

/-- A charge of one packet on an exception policer at timestamp `t` (R347): whether it passes, and the state
after it. -/
def State.excCharge (s : State) (i : Nat) (t : Word) : Bool × State :=
  let b := t.toNat / refillTicks
  let p := (s.pol (excPol i)).upTo true b
  if !bitOf (p.modeAt b) 48 then (true, s.putPol (excPol i) { p with cnt0 := p.cnt0 + 1 })
  else if 65536 ≤ p.lvl0 then
    (true, s.putPol (excPol i) { p with lvl0 := p.lvl0 - 65536, cnt0 := p.cnt0 + 1 })
  else (false, ((s.putPol (excPol i) { p with cnt1 := p.cnt1 + 1 }).addSat .pol_STATUS [] f_pol_STATUS_exc_refused 1).count1 208 6)

/-- A POLICER WRITE committed at sequence point `n` (R344): it replaces one whose boundary has not come. -/
def State.polWrite (s : State) (k cfg n : Nat) : State :=
  let p := s.pol k
  let kept := p.pend.filter fun e => match e.2.2 with
    | some b => decide (b ≤ s.pwr.time.toNat / refillTicks)
    | none => false
  s.putPol k { p with pend := kept ++ [(cfg, n, none)] }

/-- The ingress timestamp of packet `n` is known: WRITEs committed at `n` get their boundary, also those still held for
the die-to-die link (R227, R344). -/
def State.polBoundary (s : State) (n : Nat) (t : Word) : State :=
  let held := s.tab.held.map fun h => if h.seq = n then { h with ts := some t } else h
  let s := { s with tab := { s.tab with held } }
  let one (e : Nat × Nat × Option Nat) : Nat × Nat × Option Nat :=
    if e.2.1 = n ∧ e.2.2 = none then (e.1, n, some (t.toNat / refillTicks + 1)) else e
  { s with pols := s.pols.map fun (e : Nat × Policer) =>
      if e.2.pend.isEmpty then e else (e.1, { e.2 with pend := e.2.pend.map one }) }

end Sys2Proof.Machine
end

