-- ==== Sys2Proof/Machine/Macsec.lean ====
section
/-! DEFINITION. MACsec on the line ports (chapter 10, R377 to R384). The SecTAG's layout and the recovery of
an extended packet number are PRESUMED from IEEE 802.1AE-2018, which R377 cites. -/

namespace Sys2Proof.Machine

/-- The key schedule, salt and SSCI of SA slot `x` (R383). -/
def State.saSchedule (s : State) (x : Nat) : List (List Nat) :=
  aesSchedule ((List.range 4).flatMap fun k => (natLE 8 (s.rd .msc_SA_KEY [x, k]).toNat).map (·.toNat))
def State.saIv (s : State) (x pn : Nat) : List Nat :=
  let w0 := (s.rd .msc_SA_SALT [x, 0]).toNat
  let w1 := (s.rd .msc_SA_SALT [x, 1]).toNat
  let salt := (natLE 8 w0 ++ natLE 4 (bitsOf w1 0 32)).map (·.toNat)
  xorBytes salt (beTo 4 (bitsOf w1 32 32) ++ beTo 8 pn)

/-- The next PN of a slot, 2⁶⁴ once it is exhausted; that is held in `pnPosted` under the slot + 4,096, and SA_PN then
shows 2⁶⁴ − 1. PRESUMED, log entry 6. -/
def State.saPn (s : State) (x : Nat) : Nat :=
  if SMap.get false s.line.pnPosted (4096 + x) then 2 ^ 64 else (s.rd .msc_SA_PN [x]).toNat

/-- The next PN of a slot becomes `pn`; past 2⁶⁴ − 1 the slot is exhausted. PRESUMED, log entry 6. -/
def State.saPut (s : State) (x pn : Nat) : State :=
  if pn < 2 ^ 64 then s.wr .msc_SA_PN [x] (BitVec.ofNat 64 pn)
  else
    let s := s.wr .msc_SA_PN [x] (BitVec.ofNat 64 (2 ^ 64 - 1))
    { s with line := { s.line with pnPosted := SMap.put false s.line.pnPosted (4096 + x) true } }

/-- What MACsec makes of a received frame (R379): dropped before its ICV matters, or passed with the bytes the
parser sees, whether its ICV fails, and the slot and PN an accepted frame raises. -/
structure MsecOut where
  drop : Bool := false
  bytes : List Byte
  icvBad : Bool := false
  sa : Option (Nat × Nat) := none
  deriving DecidableEq, Repr

/-- The receive channel of a port with an SCI (R379). -/
def State.rxChannel (s : State) (m sci : Nat) : Option Nat :=
  (List.range 2048).find? fun c =>
    s.flag .msc_SC_CFG [c] f_msc_SC_CFG_valid && s.fld .msc_SC_CFG [c] f_msc_SC_CFG_dir == 0 &&
      s.fld .msc_SC_CFG [c] f_msc_SC_CFG_port == m && (s.rd .msc_SC_SCI [c]).toNat == sci

/-- The slot of a channel that holds an association number (R378). -/
def State.saSlot (s : State) (c an : Nat) : Option Nat :=
  if s.flag .msc_SC_CFG [c] f_msc_SC_CFG_slot0_valid && s.fld .msc_SC_CFG [c] f_msc_SC_CFG_slot0_an == an then some (2 * c)
  else if s.flag .msc_SC_CFG [c] f_msc_SC_CFG_slot1_valid && s.fld .msc_SC_CFG [c] f_msc_SC_CFG_slot1_an == an
  then some (2 * c + 1) else none

/-- The full packet number of a 32-bit field, given the slot's (XPN). PRESUMED, log entry 6. -/
def xpnRecover (slotPn field : Nat) : Nat :=
  let hi := slotPn / 2 ^ 32
  let lo := slotPn % 2 ^ 32
  (if field < 2 ^ 31 ∧ 2 ^ 31 ≤ lo then hi + 1 else hi) * 2 ^ 32 + field

/-- A received frame of a port with MACsec enabled (R379). PRESUMED, log entry 6. -/
def State.msecRx (s : State) (m : Nat) (frame : List Byte) : MsecOut :=
  let ty := beNat ((frame.drop 12).take 2)
  if ty ≠ 0x88E5 then
    { drop := ty != 0x888E && ty != s.fld .lmac_MSEC_CFG [m] f_lmac_MSEC_CFG_bypass0 &&
        ty != s.fld .lmac_MSEC_CFG [m] f_lmac_MSEC_CFG_bypass1, bytes := frame }
  else
    let tci := leAt frame 14 1
    let sl := leAt frame 15 1
    let sc := bitOf tci 5
    let es := bitOf tci 6
    let conf := bitOf tci 3
    let tagLen := if sc then 16 else 8
    let head := (frame.take (12 + tagLen))
    let body := frame.drop (12 + tagLen)
    let n := body.length - 16
    let bad := frame.length < 12 + tagLen + 16 || bitOf tci 7 || bitOf tci 4 || (sc && es) ||
      (bitOf tci 3 != bitOf tci 2) || decide (48 ≤ sl) || (if sl = 0 then decide (n < 48) else sl != n)
    let out : MsecOut := { drop := true, bytes := frame }
    if bad then out
    else
      let sci := if sc then some (beNat ((frame.drop 20).take 8))
        else if es then some (beNat ((frame.drop 6).take 6) * 65536 + 1) else none
      match sci.bind (s.rxChannel m ·) with
      | none => out
      | some c =>
        match s.saSlot c (tci % 4) with
        | none => out
        | some x =>
          let low := s.saPn x
          let pn := xpnRecover (min low (2 ^ 64 - 1)) (beNat ((frame.drop 16).take 4))
          if 2 ^ 64 ≤ pn then out
          else if s.flag .msc_SC_CFG [c] f_msc_SC_CFG_replay_en && decide (pn + s.fld .msc_SC_CFG [c] f_msc_SC_CFG_replay_window < low)
          then out
          else
            let sched := s.saSchedule x
            let iv := s.saIv x pn
            let data := (body.take n).map (·.toNat)
            let icv := (body.drop n).map (·.toNat)
            let aad := head.map (·.toNat)
            let good := if conf then gcmTag sched iv aad data == icv else gcmTag sched iv (aad ++ data) [] == icv
            let plain := if conf then gcmStream sched iv data else data
            { bytes := frame.take 12 ++ plain.map (BitVec.ofNat 8 ·), icvBad := !good,
              sa := if good then some (x, pn) else none }

/-- An accepted frame raises its slot's PN (R379). PRESUMED, log entry 6. -/
def State.saRaise (s : State) (x pn : Nat) : State := if s.saPn x < pn + 1 then s.saPut x (pn + 1) else s

/-- The transmit channel of a port (R378, R380). PRESUMED, log entry 6. -/
def State.txChannel (s : State) (m : Nat) : Option Nat :=
  (List.range 2048).find? fun c =>
    s.flag .msc_SC_CFG [c] f_msc_SC_CFG_valid && s.fld .msc_SC_CFG [c] f_msc_SC_CFG_dir == 1 &&
      s.fld .msc_SC_CFG [c] f_msc_SC_CFG_port == m

/-- A frame protected with the transmit slot's PN (R380), and the state after it; none where it is dropped.
PRESUMED, log entry 6. -/
def State.msecTx (s : State) (c : Nat) (frame : List Byte) : Option (List Byte) × State :=
  let slot := s.fld .msc_SC_CFG [c] f_msc_SC_CFG_tx_slot
  let x := 2 * c + slot
  let ok := if slot = 0 then s.flag .msc_SC_CFG [c] f_msc_SC_CFG_slot0_valid
    else s.flag .msc_SC_CFG [c] f_msc_SC_CFG_slot1_valid
  let pn := s.saPn x
  if !ok || decide (2 ^ 64 ≤ pn) then (none, s)
  else
    let an := if slot = 0 then s.fld .msc_SC_CFG [c] f_msc_SC_CFG_slot0_an
      else s.fld .msc_SC_CFG [c] f_msc_SC_CFG_slot1_an
    let conf := s.flag .msc_SC_CFG [c] f_msc_SC_CFG_conf
    let withSci := s.flag .msc_SC_CFG [c] f_msc_SC_CFG_include_sci
    let tci := (if s.flag .msc_SC_CFG [c] f_msc_SC_CFG_es then 64 else 0) + (if withSci then 32 else 0) +
      (if conf then 12 else 0) + an
    let data := (frame.drop 12).map (·.toNat)
    let sl := if data.length < 48 then data.length else 0
    let tag := [0x88, 0xE5, tci, sl] ++ beTo 4 pn ++
      (if withSci then beTo 8 (s.rd .msc_SC_SCI [c]).toNat else [])
    let aad := (frame.take 12).map (·.toNat) ++ tag
    let sched := s.saSchedule x
    let iv := s.saIv x pn
    let text := if conf then gcmStream sched iv data else data
    let icv := if conf then gcmTag sched iv aad text else gcmTag sched iv (aad ++ text) []
    let s := s.saPut x (pn + 1)
    let m := s.fld .msc_SC_CFG [c] f_msc_SC_CFG_port
    let at' := 2 ^ s.fld .lmac_MSEC_CFG [m] f_lmac_MSEC_CFG_pn_event_log2
    let s := if at' ≤ pn + 1 ∧ !SMap.get false s.line.pnPosted x then
        let s := { s with line := { s.line with pnPosted := SMap.put false s.line.pnPosted x true } }
        s.postEvent 0x015 (natLE 2 x ++ natLE 8 (pn + 1))
      else s
    (some ((aad ++ text ++ icv).map (BitVec.ofNat 8 ·)), s)

/-- Every valid transmit slot's PN jumps when the device gains the serve; one that would pass 2⁶⁴ − 1 is exhausted, so
that no PN is used again (R381). PRESUMED, log entry 6. -/
def State.msecJump (s : State) : State :=
  s.each (List.range 2048) fun s c =>
    if s.flag .msc_SC_CFG [c] f_msc_SC_CFG_valid && s.fld .msc_SC_CFG [c] f_msc_SC_CFG_dir == 1 then
      let j := 2 ^ s.fld .lmac_MSEC_CFG [s.fld .msc_SC_CFG [c] f_msc_SC_CFG_port] f_lmac_MSEC_CFG_jump_log2
      let jump (s : State) (x : Nat) : State := s.saPut x (s.saPn x + j)
      let s := s.when (s.flag .msc_SC_CFG [c] f_msc_SC_CFG_slot0_valid) (jump · (2 * c))
      s.when (s.flag .msc_SC_CFG [c] f_msc_SC_CFG_slot1_valid) (jump · (2 * c + 1))
    else s

end Sys2Proof.Machine
end

