-- ==== Sys2Proof/Machine/LineRx.lean ====
section
/-! DEFINITION. Receiving frames on the line ports: the receive FIFO, pause and PFC (chapter 10, R361 to
R368). -/

namespace Sys2Proof.Machine

/-- The bits per tick of a port mode (R361). -/
def modeBpt (mode : Nat) : Nat := match mode with | 1 => 50 | 2 => 100 | 3 => 200 | 4 => 400 | _ => 800
def State.portBpt (s : State) (m : Nat) : Nat := modeBpt (s.portMode m)

/-- Whether MAC `m` is a port's first MAC (R361), and whether that port is ON. -/
def State.isPort (s : State) (m : Nat) : Bool :=
  let k := modeLanes (s.portMode m)
  k != 0 && m % k == 0
def State.portState (s : State) (m : Nat) : Nat := s.fld .lmac_PORT_STATUS [m] f_lmac_PORT_STATUS_state
def State.portOn (s : State) (m : Nat) : Bool :=
  s.isPort m && s.portState m == 2 && !s.flag .lmac_PORT_STATUS [m] f_lmac_PORT_STATUS_stop_pending

/-- Largest received and transmitted frames: 64 to 16,000 bytes (R371). -/
def clampFrame (n : Nat) : Nat := max 64 (min 16000 n)
def State.rxMax (s : State) (m : Nat) : Nat := clampFrame (s.fld .lmac_PORT_CFG [m] f_lmac_PORT_CFG_rx_max)
def State.txMax (s : State) (m : Nat) : Nat := clampFrame (s.fld .lmac_PORT_CFG [m] f_lmac_PORT_CFG_tx_max)

/-- A line counter of a port (R376). -/
def State.lineCount (s : State) (m k n : Nat) : State := s.addWrap .lmac_CNT [m, k] f_lmac_CNT_count n

/-- A port's state beside its registers. -/
def State.port (s : State) (m : Nat) : PortX := SMap.get {} s.line.ports m
def State.modPort (s : State) (m : Nat) (f : PortX → PortX) : State :=
  { s with line := { s.line with ports := SMap.modify {} s.line.ports m f } }

/-! ### The receive FIFO (R364) -/

/-- The space a frame holds: rx_max until its last byte has arrived, then its length, less what has left for
the parser; nothing for a dropped frame (R364). -/
def RxFrame.held (rxMax : Nat) (f : RxFrame) : Nat :=
  if f.dropped then 0 else (if f.ended then f.size else rxMax) - f.left

/-- Bytes of a port's FIFO in use, and those of one class. DEDUCED, log entry 47. -/
def State.rxLevel (s : State) (m : Nat) : Nat := (((s.port m).rx).map (RxFrame.held (s.rxMax m))).foldl (· + ·) 0
def State.rxClassLevel (s : State) (m c : Nat) : Nat :=
  ((((s.port m).rx).filter (·.cls == c)).map (RxFrame.held (s.rxMax m))).foldl (· + ·) 0

/-- The class of a frame for pause accounting: the PCP of its outer VLAN tag (R364). -/
def State.rxClass (s : State) (m : Nat) (b : List Byte) : Nat :=
  let ty := beNat ((b.drop 12).take 2)
  if ty = 0x8100 ∨ ty = 0x88A8 then beNat ((b.drop 14).take 1) / 32
  else s.fld .lmac_PORT_FC [m] f_lmac_PORT_FC_dflt_class

/-! ### Sending pause (R367) -/

/-- Marks of R373: xoff, and xon, which acts below xoff. -/
def State.xoffBytes (s : State) (m : Nat) : Nat := s.fld .lmac_PORT_FC [m] f_lmac_PORT_FC_xoff * 256
def State.xonBytes (s : State) (m : Nat) : Nat :=
  let xoff := s.fld .lmac_PORT_FC [m] f_lmac_PORT_FC_xoff
  (if s.fld .lmac_PORT_FC [m] f_lmac_PORT_FC_xon < xoff then s.fld .lmac_PORT_FC [m] f_lmac_PORT_FC_xon else xoff - 1) * 256

/-- A pause frame is sent: `c` a class, or 8 for PAUSE (R367, R376). -/
def State.pauseOut (s : State) (m c quanta : Nat) : State :=
  let s := s.emit (.pauseFrame m (c != 8) (if c = 8 then 0 else 2 ^ c) quanta)
  let s := ((s.lineCount m 10 1).lineCount m 7 1).lineCount m 8 64
  s.modPort m fun x => { x with pauseSent := SMap.put 0 x.pauseSent c s.cycle }

/-- A pause frame is sent now, or after the frame in transmission (R367). DEDUCED, log entry 47. -/
def State.sendPause (s : State) (m c quanta : Nat) : State :=
  if (SMap.get none s.tm.tx m).isSome then s.modPort m fun x => { x with pauseQ := x.pauseQ ++ [(c, quanta)] }
  else s.pauseOut m c quanta

/-- The frame in transmission has ended: the pause frames that waited for it are sent, ahead of any queued frame. -/
def State.pauseFlush (s : State) (m : Nat) : State :=
  let l := (s.port m).pauseQ
  (s.modPort m fun x => { x with pauseQ := [] }).each l fun s e => s.pauseOut m e.1 e.2

/-- Whether class `c` (8 for the port) is above xoff and not yet at xon. -/
def State.txXoff (s : State) (m c : Nat) : Bool :=
  let v := s.fld .lmac_PORT_STATUS [m] f_lmac_PORT_STATUS_tx_xoff
  if c = 8 then v == 255 else bitOf v c

/-- tx_xoff of a class, or of every class under PAUSE. DEDUCED, log entry 47. -/
def State.setXoff (s : State) (m c : Nat) (b : Bool) : State :=
  let v := s.fld .lmac_PORT_STATUS [m] f_lmac_PORT_STATUS_tx_xoff
  s.setFld .lmac_PORT_STATUS [m] f_lmac_PORT_STATUS_tx_xoff
    (if c = 8 then (if b then 255 else 0) else if bitOf v c == b then v else if b then v + 2 ^ c else v - 2 ^ c)

/-- The pause decision of one class, or of the port with 8, at its present level (R367); in the gap between two
holders the state stays as it is (R477). -/
def State.pauseOne (s : State) (m c : Nat) : State :=
  if s.gap then s
  else
  let level := if c = 8 then s.rxLevel m else s.rxClassLevel m c
  if s.txXoff m c then
    if level ≤ s.xonBytes m then (s.setXoff m c false).sendPause m c 0 else s
  else if s.xoffBytes m ≤ level then
    (s.setXoff m c true).sendPause m c (s.fld .lmac_PORT_FC [m] f_lmac_PORT_FC_quanta)
  else s

/-- Pause frames that a change of the FIFO's level calls for (R367), of a port whose MAC is out of reset (R370); a class that
sends none is no longer above xoff once its level is at xon (R374). An in-step follower's line output is not selected (R457).
DEDUCED, log entry 47. -/
def State.pauseCheck (s : State) (m : Nat) : State :=
  let clear (s : State) (c : Nat) : State :=
    s.when (s.txXoff m c && decide (s.rxClassLevel m c ≤ s.xonBytes m)) (·.setXoff m c false)
  let mode := if s.portState m < 2 then 0 else s.fld .lmac_PORT_FC [m] f_lmac_PORT_FC_fc_mode
  if !s.isPort m then s
  else if mode = 1 then s.pauseOne m 8
  else s.each (List.range 8) fun s c =>
    if mode = 2 ∧ bitOf (s.fld .lmac_PORT_FC [m] f_lmac_PORT_FC_tx_class_en) c then s.pauseOne m c else clear s c

/-! ### A frame's first byte (R32, R363, R364, R366, R368) -/

/-- A frame in the FIFO changed, by its number. -/
def State.modRx (s : State) (m fid : Nat) (f : RxFrame → RxFrame) : State :=
  s.modPort m fun x => { x with rx := x.rx.map fun r => if r.fid = fid then f r else r }

/-- The state of a frame's checks: 1 not yet known, 2 failed, 0 good. -/
def State.setFrame (s : State) (fid v : Nat) : State :=
  { s with line := { s.line with frames := SMap.put 0 s.line.frames fid v } }
def State.frameState (s : State) (fid : Nat) : Nat := SMap.get 0 s.line.frames fid

/-- The first frame of a port that has not entered its pipe and may. -/
def State.nextFrame (s : State) (m : Nat) : Option RxFrame :=
  (s.port m).rx.find? fun f => !f.dropped && !f.barred && !f.entered

/-- Frames that port `m` dropped are logged once every frame before them has entered (R455). -/
def State.logWaiting (s : State) (m : Nat) : State := s.logDrops m ((s.nextFrame m).map (·.fid))

/-- The first byte of a frame reaches port `m`; `frame` is what will arrive, without its FCS. -/
def State.rxStart (s : State) (m : Nat) (frame : List Byte) : State :=
  let rxMax := s.rxMax m
  let size := frame.length + 4
  let tooLong := decide (rxMax < size)
  let cut := if tooLong then frame.take (rxMax - 4) else frame
  let control := beNat ((frame.drop 12).take 2) == 0x8808
  let runt := decide (size < 64)
  let discard := s.d2dHealth == 2
  let full := !discard && decide ((modeLanes (s.portMode m)) * 98304 < s.rxLevel m + rxMax)
  let msec := if s.flag .lmac_MSEC_CFG [m] f_lmac_MSEC_CFG_enable && !control then s.msecRx m cut
    else { bytes := cut }
  let fid := s.line.nextFid
  let f : RxFrame :=
    { fid, bytes := msec.bytes, raw := frame, size := if tooLong then rxMax else size, cls := s.rxClass m frame,
      ts := s.pwr.time - BitVec.ofNat 64 (s.fld .lmac_PORT_CFG [m] f_lmac_PORT_CFG_rx_delay),
      dropped := full || discard || msec.drop, barred := control || runt, oversize := tooLong,
      icvBad := msec.icvBad, sa := msec.sa }
  let s := { s with line := { s.line with nextFid := fid + 1 } }
  let s := (s.setFrame fid 1).modPort m fun x => { x with rx := x.rx ++ [f] }
  let s := s.when full fun s => (s.lineCount m 5 1).count1 (111 + m / 4) (12 + m % 4)
  let s := s.when full fun s =>
    let d : OwnDrop := { mac := m, fid, len := msec.bytes.length, ts := f.ts }
    if s.following then { s with twin := { s.twin with ownDrops := s.twin.ownDrops ++ [d] } }
    else if s.flag .twn_STATUS [] f_twn_STATUS_log_source then
      { s with twin := { s.twin with srcDrops := s.twin.srcDrops ++ [d] } }.logWaiting m
    else s
  let s := s.when (msec.drop && !full && !discard) fun s => (s.lineCount m 14 1).count1 54 5
  s.pauseCheck m

/-- RX_FRAME_START (R364): a frame reaches a port that is ON with its link up, none being in progress there.
DEDUCED, log entry 47. -/
def execRxFrameStart (m : Fin 256) (frame : List Byte) (s : State) : Res :=
  if s.portOn m && s.flag .lmac_PORT_STATUS [m.val] f_lmac_PORT_STATUS_link_up &&
      ((s.port m).rx).all (·.ended) then go (s.rxStart m frame)
  else go s

/-- PAUSE_REFRESH (R367): while the level stays above xon, the frame is sent again once half of the quanta time
has elapsed. `c` is a class, or 8 for PAUSE. DEDUCED, log entry 47. -/
def execPauseRefresh (m : Fin 256) (c : Fin 9) (s : State) : Res :=
  let q := s.fld .lmac_PORT_FC [m.val] f_lmac_PORT_FC_quanta
  let ticks := (q * 512 + s.portBpt m - 1) / s.portBpt m
  if s.portOn m && s.txXoff m c &&
      s.fld .lmac_PORT_FC [m.val] f_lmac_PORT_FC_fc_mode == (if c.val = 8 then 1 else 2) &&
      (c.val == 8 || bitOf (s.fld .lmac_PORT_FC [m.val] f_lmac_PORT_FC_tx_class_en) c) &&
      !(s.port m).pauseQ.any (fun e => e.1 == c.val) &&
      s.passed (SMap.get 0 (s.port m).pauseSent c) (ticks / 2) then go (s.sendPause m c q)
  else go s

/-! ### Received pause (R366) -/

/-- Whether class `c`, or the port with 8, is paused in this cycle; a report acts from the cycle after it (R329,
R366). -/
def State.paused (s : State) (m c : Nat) : Bool :=
  let x := s.port m
  let now := SMap.get 0 x.pausedUntil c != 0
  match SMap.find? x.pauseAt c with
  | some (at', was) => if s.cycle ≤ at' then was else now
  | none => now

/-- The bits of rx_paused: the classes paused now, or all of them under PAUSE (R374). -/
def State.rxPaused (s : State) (m : Nat) : Nat :=
  if s.paused m 8 then 255 else (List.range 8).foldl (fun a c => if s.paused m c then a + 2 ^ c else a) 0

/-- A class, or the port with 8, is paused for a quanta value from the next cycle; 0 ends the pause (R366). -/
def State.pauseFor (s : State) (m c quanta : Nat) : State :=
  let ticks := (quanta * 512 + s.portBpt m - 1) / s.portBpt m
  let was := s.paused m c
  s.modPort m fun x => { x with
    pausedUntil := SMap.put 0 x.pausedUntil c (if quanta = 0 then 0 else s.cycle + 1 + ticks)
    pauseAt := SMap.insert x.pauseAt c (s.cycle, was) }

/-- PAUSE_RECEIVE (R366): the MAC reports the PAUSE frame received first, and with rx_en the port node stops.
PRESUMED, log entry 7. -/
def execPauseReceive (m : Fin 256) (s : State) : Res :=
  match (s.port m).reports with
  | .pause q :: rest =>
    let s := s.modPort m fun x => { x with reports := rest }
    if s.flag .lmac_PORT_FC [m.val] f_lmac_PORT_FC_rx_en then go (s.pauseFor m 8 q) else go s
  | _ => go s

/-- PFC_RECEIVE (R366): the MAC reports the PFC frame received first, and with rx_en each enabled class stops.
PRESUMED, log entry 7. -/
def execPfcReceive (m : Fin 256) (s : State) : Res :=
  match (s.port m).reports with
  | .pfc en q :: rest =>
    let s := s.modPort m fun x => { x with reports := rest }
    if s.flag .lmac_PORT_FC [m.val] f_lmac_PORT_FC_rx_en then
      go (s.each ((List.range 8).filter (bitOf en)) fun s c => s.pauseFor m c (q.getD c 0))
    else go s
  | _ => go s

/-- PAUSE_EXPIRY (R366): the pause time of a class, or of the port with 8, has run out. DESIGN CHOICE, log entry 2. -/
def execPauseExpiry (m : Fin 256) (c : Fin 9) (s : State) : Res :=
  let until' := SMap.get 0 (s.port m).pausedUntil c
  if until' ≠ 0 ∧ until' ≤ s.cycle then
    go (s.modPort m fun x => { x with pausedUntil := SMap.put 0 x.pausedUntil c 0 })
  else go s

end Sys2Proof.Machine
end

