-- ==== Sys2Proof/Machine/Order.lean ====
section
/-! DEFINITION. The order keeper, the punt FIFO and what release does (chapters 2, 3, 5, R80 to R84, R175,
R514). -/

namespace Sys2Proof.Machine

/-- A packet's outcome enters its window's fold while in step (R463). DEDUCED, log entry 19. -/
def State.outcome (s : State) (seq kind target len mirrors : Nat) : State :=
  if s.inStep && decide (s.twin.foldFrom ≤ seq) && !s.twin.skipped.contains seq then
    let rec' := natLE 8 seq ++ natLE 1 kind ++ natLE 3 target ++ natLE 2 len ++ natLE 1 mirrors ++ [0]
    { s with twin := { s.twin with
        folds := SMap.modify 0 s.twin.folds (seq / 2 ^ 20) (· + BitVec.ofNat 64 (crc32c 0xFFFFFFFF rec')) } }
  else s

/-! ### The punt FIFO (R514) -/

/-- Bytes of the punt FIFO in use: 64 of header and the packet, per punt. -/
def State.puntBytes (s : State) : Nat := (s.host.punts.map fun p => 64 + p.bytes.length).foldl (· + ·) 0

/-- A punt enters the 4 MiB FIFO, or finds no room and is counted in its ring's drops (R514). -/
def State.puntPut (s : State) (p : Punt) : State :=
  if s.puntBytes + 64 + p.bytes.length ≤ 4194304 then { s with host := { s.host with punts := s.host.punts ++ [p] } }
  else s.addSat .pci_RING_STATUS [64 + p.ring] f_pci_RING_STATUS_drops 1

/-! ### Positions (R80 to R84) -/

/-- Outstanding positions, skipped ones included (R81). -/
def State.outstanding (s : State) : Nat := s.fpc.order.length

/-- The order keeper's list replaced; OK_STATUS shows its length (R84). -/
def State.setOrder (s : State) (l : List OrdEntry) : State :=
  { s with fpc := { s.fpc with order := l } }.setFld .dsp_OK_STATUS [] f_dsp_OK_STATUS_outstanding l.length

/-- The oldest unskipped position of a domain is timed from now, where it was not yet (R82). -/
def timeOldest (now domain : Nat) : List OrdEntry → List OrdEntry
  | [] => []
  | e :: l =>
    if e.domain = domain ∧ !e.skipped then
      (if e.since.isNone then { e with since := some now } else e) :: l
    else e :: timeOldest now domain l

/-- An earlier unskipped position of the domain is outstanding. -/
def State.domainBusy (s : State) (domain : Nat) : Bool :=
  s.fpc.order.any fun e => e.domain == domain && !e.skipped

/-- A packet takes its position (R80). -/
def State.orderTake (s : State) (seq domain trace : Nat) : State :=
  (s.setOrder (timeOldest s.cycle domain (s.fpc.order ++ [{ domain := domain, seq, trace }]))).count1 48 4

/-- The position of a packet. -/
def State.orderOf (s : State) (seq : Nat) : Option OrdEntry := s.fpc.order.find? (·.seq == seq)

/-- A position leaves the order keeper; the next of its domain becomes the oldest. -/
def State.orderDrop (s : State) (e : OrdEntry) : State :=
  s.setOrder (timeOldest s.cycle e.domain (s.fpc.order.filter (·.seq != e.seq)))

/-- A packet's position is vacated (R80). DEDUCED, log entry 19. -/
def State.vacate (s : State) (seq : Nat) : State :=
  match s.orderOf seq with
  | some e => s.orderDrop e
  | none => s

/-- Packets pass to admission, in order (R176, R151). DEDUCED, log entry 19. -/
def State.admitOut (s : State) (l : List AdmPkt) : State :=
  { s with adm := s.adm ++ l.map fun a => { a with at' := s.cycle } }

/-- A fast-break hit counted (R182): 0 hits released, 1 misses, 2 fallback_ttl, 3 fallback_template, 4 held,
5 stomped. -/
def State.fbkCount (s : State) (i : Nat) : State :=
  (s.addWrap .fbk_CNT [i] f_fbk_CNT_count 1).count1 50 (4 + i)

/-- A position is released to the editor (R80, R82, R175, R570): for a fast-break packet the release is its commit. -/
def State.release (s : State) (e : OrdEntry) : State :=
  let s := (s.orderDrop e).count1 (edtGroup e.seq) 4
  let s := s.when e.skipped (·.addSat .dsp_OK_STATUS [] f_dsp_OK_STATUS_late_releases 1)
  let s := s.traceWay e.trace 0x08 0 (natLE 2 e.domain ++ [if e.held then 1 else 0])
  let s := match e.counter with
    | some (n, len) => s.counterAdd n 1 len
    | none => s
  let s := match e.stamp with
    | some h => s.stampHit e.seq h
    | none => s
  let s := s.when e.fastBreak (·.fbkCount 0)
  let s := match e.punt with
    | some p => s.puntPut p
    | none => s
  s.admitOut e.outs

/-- The first position of a domain that may be released: it has committed and was skipped, or every earlier
position of the domain was skipped (R80, R82). -/
def releasable (domain : Nat) : List OrdEntry → Option OrdEntry
  | [] => none
  | e :: l =>
    if e.domain = domain then
      if e.done then some e
      else if e.skipped then releasable domain l
      else (l.find? fun x => x.domain == domain && x.skipped && x.done)
    else releasable domain l

/-- ORDER_RELEASE (R80): the next committed packet of the domain is released to the editor. -/
def execOrderRelease (domain : Fin 4096) (s : State) : Res :=
  match releasable domain s.fpc.order with
  | some e => go (s.release e)
  | none => go s

/-- ORDER_SKIP (R82): the oldest unskipped position of the domain, not yet committed, has been the oldest for
more than skip_timeout × 1,024 cycles. -/
def execOrderSkip (domain : Fin 4096) (s : State) : Res :=
  let t := s.fld .dsp_OK_CFG [] f_dsp_OK_CFG_skip_timeout
  match s.fpc.order.find? fun e => e.domain == domain.val && !e.skipped with
  | some e =>
    match e.since with
    | some c =>
      if t ≠ 0 ∧ !e.done ∧ s.passed c (t * 1024 + 1) then
        let l := s.fpc.order.map fun x => if x.seq = e.seq then { x with skipped := true } else x
        let s := s.setOrder (timeOldest s.cycle domain l)
        let s := (s.addSat .dsp_OK_STATUS [] f_dsp_OK_STATUS_skips 1).count1 48 5
        go (s.stepEnd 4)
      else go s
    | none => go s
  | none => go s

end Sys2Proof.Machine
end

