-- ==== Sys2Proof/Machine/Roster.lean ====
section
/-! DEFINITION. Threads and their cores' rosters, and where the dispatcher sends a packet (chapter 3, R72 to R74, R85 to
R90). -/

namespace Sys2Proof.Machine

/-! ### Threads (R85, R115) -/

/-- Thread `t` of cluster `c`. -/
def State.th (s : State) (c t : Nat) : Thread := SMap.get {} s.fpc.threads (c * 128 + t)

def State.modTh (s : State) (c t : Nat) (f : Thread → Thread) : State :=
  { s with fpc := { s.fpc with threads := SMap.modify {} s.fpc.threads (c * 128 + t) f } }

/-- The state a thread holds but for a halt by the debugger. -/
def Thread.eff (th : Thread) : Nat := if th.state = 4 then th.under else th.state

/-- Whether a thread is resident (R90). -/
def State.isResident (s : State) (c t : Nat) : Bool := bitOf (s.rd .fpc_RESIDENT [c, t / 64]).toNat (t % 64)

/-- A general register; g0 reads as zero and discards writes (R123). -/
def Thread.gr (th : Thread) (r : BitVec 5) : Word := if r = 0 then 0 else SMap.get 0 th.g r.toNat

def Thread.setG (th : Thread) (r : BitVec 5) (v : Word) : Thread :=
  if r = 0 then th else { th with g := SMap.put 0 th.g r.toNat v }

/-- A metadata field (R125). -/
def Thread.meta' (th : Thread) (i : Nat) : BitVec 32 := SMap.get 0 th.m i

/-! ### The roster (R86 to R89) -/

/-- Roster slot `i` of a core's roster word: the thread it names, where it is valid. DESIGN CHOICE, log entry 21. -/
def rosterSlot (w i : Nat) : Option Nat := if bitOf w (4 * i + 3) then some (bitsOf w (4 * i) 3) else none

/-- Whether thread `i` of a core holds a slot of a roster word. -/
def onRoster (w : Word) (i : Nat) : Bool := (List.range 16).any fun j => rosterSlot w.toNat j == some i

/-- The roster in force of a core: the one written before the last switch (R89). -/
def State.roster (s : State) (c k : Nat) : Word := (SMap.get none s.fpc.rosterOld (c * 16 + k)).getD (s.rd .fpc_ROSTER [c, k])

/-- Whether a logical core is present (R119). -/
def State.corePresent (s : State) (c k : Nat) : Bool := bitOf (s.fld .fpc_CL_STATUS [c] f_fpc_CL_STATUS_present) k

/-! ### Dispatch (R72 to R74) -/

/-- The lifecycle of a cluster (R119). -/
def clusterLc (c : Nat) : LcReg :=
  ⟨.fpc_CL_STATUS, [c], f_fpc_CL_STATUS_state, f_fpc_CL_STATUS_restart_pending, f_fpc_CL_STATUS_stop_pending⟩

/-- Whether the dispatcher may choose a cluster: ON, not steered away and not retired (R72, R26). -/
def State.mayDispatch (s : State) (c : Nat) : Bool :=
  s.lcWorks (clusterLc c) && !s.flag .fpc_CL_STATUS [c] f_fpc_CL_STATUS_steered &&
    !s.flag .fpc_CL_STATUS [c] f_fpc_CL_STATUS_retired

/-- IDLE packet threads of a core that hold a roster slot, in ascending order (R74). DEDUCED, log entry 20. -/
def State.idleOn (s : State) (c k : Nat) : List Nat :=
  if s.corePresent c k then
    ((List.range 8).filter fun i =>
      (s.th c (k * 8 + i)).state == 0 && !s.isResident c (k * 8 + i) && onRoster (s.roster c k) i).map
      (k * 8 + ·)
  else []

/-- Idle packet threads of a cluster. DEDUCED, log entry 20. -/
def State.idleIn (s : State) (c : Nat) : Nat := ((List.range 16).map fun k => (s.idleOn c k).length).foldl (· + ·) 0

/-- The thread a packet goes to (R74): on the core with the most idle packet threads, the lowest index winning
ties, the lowest-numbered one. DEDUCED, log entry 20. -/
def State.chooseThread (s : State) (c : Nat) : Option Nat :=
  ((List.range 16).foldl (fun (best : List Nat) k =>
    let l := s.idleOn c k
    if best.length < l.length then l else best) []).head?

/-- The cluster a packet goes to (R72), and whether it was overridden.
DEDUCED, log entry 20; DESIGN CHOICE, log entry 53. -/
def State.chooseCluster (s : State) (q hDisp : Nat) : Option (Nat × Bool) :=
  let slot := s.rdAt q .dsp_DISP_SLOT [hDisp % 128]
  let own := f_dsp_DISP_SLOT_cluster.get slot
  let alt := f_dsp_DISP_SLOT_alt_cluster.get slot
  let altValid := f_dsp_DISP_SLOT_alt_valid.get slot == 1
  let cand := if s.mayDispatch own then some own
    else if altValid && s.mayDispatch alt then some alt
    else ((List.range 32).map fun i => (own + 1 + i) % 32).find? s.mayDispatch
  match cand with
  | none => none
  | some c =>
    let thr := min 128 (s.fld .dsp_DISP_CFG [] f_dsp_DISP_CFG_ovr_threshold)
    if s.flag .dsp_DISP_STATUS [] f_dsp_DISP_STATUS_override_active && altValid && c == own &&
        decide (s.idleIn c < thr) && s.mayDispatch alt && decide (s.idleIn c < s.idleIn alt) then some (alt, true)
    else some (c, false)

/-- A cluster's input queue (R74). -/
def State.queueOf (s : State) (c : Nat) : List Pkt := SMap.get [] s.fpc.inq c

def State.setQueue (s : State) (c : Nat) (l : List Pkt) : State :=
  { s with fpc := { s.fpc with inq := SMap.put [] s.fpc.inq c l } }

/-- The cluster chosen for a packet has no IDLE thread for it and its input queue is full (R74). -/
def State.clusterFull (s : State) (c : Nat) : Bool :=
  ((s.chooseThread c).isNone || !(s.queueOf c).isEmpty) && decide (64 ≤ (s.queueOf c).length)

end Sys2Proof.Machine
end

