-- ==== Sys2Proof/Machine/Ingress.lean ====
section
/-! DEFINITION. Parser entry, the verdict, run-ahead lookups and the fast-break stage (chapters 2 and 5). -/

namespace Sys2Proof.Machine

/-! ### The generator (R127) -/

/-- One step of the SplitMix generator: its next state. -/
def splitMixNext (s : Word) : Word := s + 0x9E3779B97F4A7C15

/-- The output of the generator from a state that has stepped. -/
def splitMixMix (s : Word) : Word :=
  let z := (s ^^^ (s >>> 30)) * 0xBF58476D1CE4E5B9
  let z := (z ^^^ (z >>> 27)) * 0x94D049BB133111EB
  z ^^^ (z >>> 31)

/-- The output computed on a state. -/
def splitMixOut (s : Word) : Word := splitMixMix (splitMixNext s)

/-! ### Parse memory (R55, R57) -/

/-- The bank in use. -/
def State.activeBank (s : State) : Nat := s.fld .prs_STATUS [] f_prs_STATUS_active_bank

/-- A register of the parse-graph unit in a bank (R55). -/
def State.rdBank (s : State) (b : Nat) (r : Reg) (ix : List Nat) : Word :=
  if b = s.activeBank then s.rd r ix
  else match SMap.find? s.fpc.otherBank (r.addr ix) with
    | some v => v
    | none => s.rd r ix

/-- The words of a node in a bank (R39 to R43). -/
def State.nodeWords (s : State) (b n : Nat) : NodeWords :=
  { cfg := s.rdBank b .prs_NODE_CFG [n], exts := (List.range 4).map fun k => s.rdBank b .prs_NODE_EXT [n, k],
    chk := s.rdBank b .prs_NODE_CHK [n], brs := (List.range 16).map fun i => s.rdBank b .prs_NODE_BR [n, i] }

/-- A pipe cannot read a node of a bank (R57). -/
def State.nodeBad (s : State) (b pipe n : Nat) : Bool := bitOf (SMap.get 0 s.fpc.badNodes (b * 1024 + n)) pipe

/-- Reading a node met an uncorrectable error: it is counted and reported, and the replica stays bad (R57).
DEDUCED, log entry 18. -/
def State.nodeError (s : State) (b pipe n : Nat) : State :=
  let k := b * 1024 + n
  let v := SMap.get 0 s.fpc.badNodes k
  let v := if bitOf v pipe then v else v + 2 ^ pipe
  let s := { s with fpc := { s.fpc with badNodes := SMap.put 0 s.fpc.badNodes k v } }
  let s := s.addSat .prs_STATUS [] f_prs_STATUS_ue_count 1
  let s := s.setFld .prs_STATUS [] f_prs_STATUS_last_ue_pipe pipe
  let s := s.setFld .prs_STATUS [] f_prs_STATUS_last_ue_node n
  (s.reportUe (locTile 2 (if v = 0xFFFF then 5 else 2) 0 0x3F 2 pipe) 0).stepEnd 8

/-- PARSE_NODE_REWRITE (R57): the groundskeeper has rewritten a node from another pipe's replica of the same bank;
where every replica fails the node stays unusable. -/
def execParseNodeRewrite (pipe : Fin 16) (node : Fin 1024) (s : State) : Res :=
  go (s.each [0, 1] fun s b =>
    let k := b * 1024 + node.val
    let v := SMap.get 0 s.fpc.badNodes k
    if bitOf v pipe && v != 0xFFFF then
      { s with fpc := { s.fpc with badNodes := SMap.put 0 s.fpc.badNodes k (v - 2 ^ pipe.val) } }
    else s)

/-! ### Run-ahead lookups (R155 to R165) -/

/-- One of the four counts of the run-ahead unit (R168): 0 issued, 1 taken, 2 squashed, 3 not issued. -/
def State.rauCount (s : State) (i n : Nat) : State :=
  (s.addWrap .rau_CNT [i] f_rau_CNT_count n).countEvents 49 (4 + i) n

/-- The plan of a packet (R155). -/
def State.planOf (s : State) (bank mac final : Nat) : Nat :=
  let w := s.rdBank bank .rau_NODE_PLAN [final]
  match s.fld .rau_PORT_CLASS [mac] f_rau_PORT_CLASS_plan_class with
  | 0 => f_rau_NODE_PLAN_plan_c0.get w
  | 1 => f_rau_NODE_PLAN_plan_c1.get w
  | 2 => f_rau_NODE_PLAN_plan_c2.get w
  | _ => f_rau_NODE_PLAN_plan_c3.get w

/-- The key-bundle bytes one segment of a plan slot selects (R160). -/
def segKey (kb : List Byte) (seg : Nat) : List Byte :=
  if bitOf seg 12 then kbRange kb (bitsOf seg 5 7) (bitsOf seg 0 5 + 1) else []

/-- The key of a plan slot for a table (R156). -/
def slotKey (kb : List Byte) (len : Nat) (w : Word) : List Byte :=
  padTo len (segKey kb (f_rau_PLAN_seg0.get w) ++ segKey kb (f_rau_PLAN_seg1.get w) ++
    segKey kb (f_rau_PLAN_seg2.get w) ++ segKey kb (f_rau_PLAN_seg3.get w))

/-- The hash and the shift a lookup of a table carries for a packet (R67, R206). -/
def State.selection (s : State) (p : Pkt) (t : Nat) : Nat × Nat :=
  let prof := s.rdBank p.bank .lbh_NODE_PROF [p.final]
  match s.fld .rau_TBL_DIR [t] f_rau_TBL_DIR_kind with
  | 6 => (p.hEcmp, s.fld .lbh_PROF_CFG [1, f_lbh_NODE_PROF_ecmp_prof.get prof] f_lbh_PROF_CFG_shift)
  | 7 => (p.hLag, s.fld .lbh_PROF_CFG [2, f_lbh_NODE_PROF_lag_prof.get prof] f_lbh_PROF_CFG_shift)
  | _ => (0, 0)

/-- Run-ahead lookups in the in-flight table (R161, R163): those whose result has not moved to a buffer. -/
def State.inFlight (s : State) : Nat :=
  (s.fpc.lookups.filter fun l => l.rau && !l.squashed && (l.result.isNone || l.buf.isNone)).length

/-- A packet's plan is issued (R156, R161). -/
def State.rauIssue (s : State) (p : Pkt) : State :=
  let slots := (List.range 4).filterMap fun j =>
    let w := s.rdBank p.bank .rau_PLAN [p.plan, j]
    if f_rau_PLAN_valid.get w = 1 then some (j, w) else none
  if !(s.fldAt p.seq .rau_CFG [] f_rau_CFG_enable == 1) || slots.isEmpty then s
  else if 2048 < s.inFlight + slots.length then s.rauCount 3 slots.length
  else
    let s := s.each slots fun s (j, w) =>
      let t := f_rau_PLAN_table.get w
      let (hash, shift) := s.selection p t
      let l : Lookup :=
        { id := s.fpc.nextLookup, rau := true, slot := j, seq := p.seq, table := t,
          key := slotKey p.kb ((s.tableKeyLen t).getD 0) w, trace := p.trace, hash, shift }
      { s with fpc := { s.fpc with lookups := s.fpc.lookups ++ [l], nextLookup := l.id + 1 } }
    s.rauCount 0 slots.length

/-- Entries in use of a cluster's parked-result buffer (R163), shown in BUF_STATUS. -/
def State.bufUsed (s : State) (c : Nat) : Nat := (s.fpc.lookups.filter (·.buf == some c)).length
def State.bufShow (s : State) (c : Nat) : State :=
  s.setFld .rau_BUF_STATUS [c] f_rau_BUF_STATUS_occupied (s.bufUsed c)

/-- One untaken lookup is squashed (R165): it leaves, or is marked where its result is still to come. -/
def State.squash (s : State) (l : Lookup) : State :=
  let s := s.rauCount 2 1
  let s := s.traceWay l.trace 0x04 3 [BitVec.ofNat 8 l.table,
    BitVec.ofNat 8 (match l.result with | some r => r.status | none => 0), BitVec.ofNat 8 l.slot]
  let rest := if l.result.isSome then s.fpc.lookups.filter (·.id != l.id)
    else s.fpc.lookups.map fun x => if x.id = l.id then { x with squashed := true, buf := none } else x
  let s := { s with fpc := { s.fpc with lookups := rest } }
  match l.buf with
  | some c => s.bufShow c
  | none => s

/-- The untaken lookups of a packet, in slot order. -/
def State.parked (s : State) (seq : Nat) : List Lookup :=
  s.fpc.lookups.filter fun l => l.rau && l.seq == seq && l.dest.isNone && !l.squashed

/-- Every untaken lookup of a packet is squashed (R165). -/
def State.squashAll (s : State) (seq : Nat) : State := s.each (s.parked seq) State.squash

/-! ### The fast-break path (R171 to R177) -/

/-- The fast-break key (R172). -/
def fbkKeyOf (pipe recipe : Nat) (kb : List Byte) (w : Word) : Nat :=
  let seg (valid off len : Fld) : List Byte :=
    if valid.get w = 1 then kbRange kb (off.get w) (len.get w + 1) else []
  pipe * 2 ^ 164 + recipe * 2 ^ 160 + beNat (padTo 20
    (seg f_fbk_RECIPE_seg0_valid f_fbk_RECIPE_seg0_off f_fbk_RECIPE_seg0_len_m1 ++
      seg f_fbk_RECIPE_seg1_valid f_fbk_RECIPE_seg1_off f_fbk_RECIPE_seg1_len_m1))

/-- The key of a packet that meets R171, if it does. -/
def State.fbkCheck (s : State) (p : Pkt) : Option Nat :=
  let rcp := s.rdBank p.bank .fbk_NODE_RCP [p.final]
  if s.fldAt p.seq .fbk_CFG [] f_fbk_CFG_enable == 1 &&
      bitOf (s.rdAt p.seq .fbk_PORT_EN [p.mac / 64]).toNat (p.mac % 64) && !p.marked &&
      f_fbk_NODE_RCP_valid.get rcp == 1 && !p.hov.isEmpty && decide (p.lastEnd ≤ 128) then
    let r := f_fbk_NODE_RCP_recipe.get rcp
    some (fbkKeyOf (p.mac / 16) r p.kb (s.rdBank p.bank .fbk_RECIPE [r]))
  else none

/-- What the check answers: 0 miss, 1 hit, 2 fallback_ttl, 3 fallback_template (R174). Where both conditions hold the TTL's
comes first; a TTL byte beyond the frame's end reads 0. DESIGN CHOICE, log entry 77. -/
def fbkVerdict (bytes : List Byte) (lastEnd : Nat) (tmpl : Word) : Nat :=
  let op := f_fbk_TMPL_ttl_op.get tmpl
  let ttlOff := f_fbk_TMPL_ttl_off.get tmpl
  if 1 ≤ op ∧ op ≤ 3 ∧ (bytes.getD ttlOff 0).toNat ≤ 1 then 2
  else if lastEnd ≤ ttlOff ∨ lastEnd ≤ f_fbk_TMPL_rw_off.get tmpl + 7 ∨ lastEnd ≤ f_fbk_TMPL_strip.get tmpl then 3
  else 1

/-- The editor's work on a fast-break hit (R176): rewrite, TTL, strip, prepend and padding to 60 bytes. -/
def applyTemplate (w : Nat → Word) (bytes : List Byte) : List Byte :=
  let t := w 0
  let rw := natLE 8 (w 5).toNat
  let off := f_fbk_TMPL_rw_off.get t
  let bytes := if f_fbk_TMPL_rw_en.get t = 1 then
    (List.range 8).foldl (fun b i =>
      if bitOf (f_fbk_TMPL_rw_mask.get t) i then setAt b (off + i) (rw.getD i 0) else b) bytes else bytes
  let ttlOff := f_fbk_TMPL_ttl_off.get t
  let dec (b : List Byte) : List Byte := setAt b ttlOff (b.getD ttlOff 0 - 1)
  let bytes := match f_fbk_TMPL_ttl_op.get t with
    | 1 =>
      let sum := onesSum [beNat ((bytes.drop (ttlOff + 2)).take 2), 0x0100]
      setAt (setAt (dec bytes) (ttlOff + 2) (BitVec.ofNat 8 (sum / 256))) (ttlOff + 3) (BitVec.ofNat 8 sum)
    | 2 | 3 => dec bytes
    | _ => bytes
  let pre := ([1, 2, 3, 4].flatMap fun i => natLE 8 (w i).toNat).take (f_fbk_TMPL_prepend_len.get t)
  let out := pre ++ bytes.drop (f_fbk_TMPL_strip.get t)
  padTo (max 60 out.length) out

/-- A position of the order keeper changed. -/
def State.modOrder (s : State) (seq : Nat) (f : OrdEntry → OrdEntry) : State :=
  s.setOrder (s.fpc.order.map fun e => if e.seq = seq then f e else e)

/-- A fast-break hit (R174 to R176): its run-ahead lookups are squashed, it takes its position, and it is
released at once where no earlier position of its domain is outstanding. -/
def State.fbkHit (s : State) (p : Pkt) (key : Nat) (e : TEntry) (tmpl : Nat) : State :=
  let a := e.data
  let voq := bitsOf a 32 19
  let out := applyTemplate (fun i => s.rdAt p.seq .fbk_TMPL [tmpl, i]) p.bytes
  let ctr := bitsOf a 0 28
  let s := s.squashAll p.seq
  let busy := s.domainBusy p.domain
  let s := (s.orderTake p.seq p.domain p.trace).outcome p.seq 5 voq out.length 0
  let pkt : AdmPkt :=
    { seq := p.seq, fid := p.fid, inMac := p.mac, ts := p.ts, bytes := out, queue := voq,
      dp := min 2 (bitsOf a 61 2), trace := p.trace, tagged := p.trace != 0, fastBreak := true }
  let s := s.modOrder p.seq fun o => { o with
    done := true, held := busy, outs := [pkt], fastBreak := true, stamp := some (fbkKey key, e.id),
    counter := if ctr = 0xFFFFFFF then none else some (ctr, p.bytes.length) }
  if busy then s.fbkCount 4
  else match s.orderOf p.seq with
    | some o => s.release o
    | none => s

/-- A packet for the dispatcher takes its position and waits for dispatch (R72, R80). -/
def State.toCore (s : State) (p : Pkt) : State :=
  let s := s.orderTake p.seq p.domain p.trace
  let pipe := p.mac / 16
  { s with fpc := { s.fpc with dispq := SMap.modify [] s.fpc.dispq pipe (· ++ [p]) } }

/-- The end of the fast-break stage (R171 to R175): the check, and the position it takes. -/
def State.fbkStage (s : State) (p : Pkt) : State :=
  match s.fbkCheck p with
  | none => s.toCore p
  | some key =>
    match s.fbkAt p.seq key with
    | none => ((s.traceWay p.trace 0x03 0 [0]).fbkCount 1).toCore p
    | some e =>
      let tmpl := bitsOf e.data 51 10
      let v := fbkVerdict p.bytes p.lastEnd (s.rdAt p.seq .fbk_TMPL [tmpl, 0])
      let s := s.traceWay p.trace 0x03 0 ([BitVec.ofNat 8 v] ++ natLE 2 tmpl)
      if v = 1 then s.fbkHit p key e tmpl else (s.fbkCount v).toCore p

/-- At most 65,536 positions are outstanding (R81). -/
def orderLimit : Nat := 65536

/-- A packet reaches the end of its pipe's fast-break stage: it waits there while the limit holds it (R81), the link
beyond is full (R32) or another waits. DESIGN CHOICE, log entry 72. -/
def State.stageEnd (s : State) (p : Pkt) (full : Bool := false) : State :=
  let pipe := p.mac / 16
  if (SMap.get [] s.fpc.stage pipe).isEmpty && decide (s.outstanding < orderLimit) && !full then s.fbkStage p
  else { s with fpc := { s.fpc with stage := SMap.modify [] s.fpc.stage pipe (· ++ [p]) } }

/-- ORDER_POSITION_FREE (R32, R81): with a position free below the limit and room in the link's FIFO, the packet at the end of a pipe's
fast-break stage takes its position. -/
def execOrderPositionFree (pipe : Fin 16) (s : State) : Res :=
  match SMap.get [] s.fpc.stage pipe with
  | p :: rest =>
    if s.outstanding < orderLimit then
      go ({ s with fpc := { s.fpc with stage := SMap.put [] s.fpc.stage pipe rest } }.fbkStage p)
    else go s
  | [] => go s

/-! ### The verdict (R50 to R54, R58, R65) -/

/-- Bits [7:0] of the verdict byte (R125, R515). -/
def Pkt.verdictByte (p : Pkt) : Nat :=
  (match verdictOf p.reasons with | some r => r | none => 32) + (if p.marked then 64 else 0)

/-- The punt of a packet (R514, R515): `source` 0 the parser, 1 a thread. -/
def Pkt.punt (p : Pkt) (ring source : Nat) (bytes : List Byte) (prog : List (BitVec 32)) : Punt :=
  { ring, seq := BitVec.ofNat 64 p.seq, ts := p.ts, inMac := p.mac, source, verdict := p.verdictByte,
    reasons := p.reasons, frameLen := p.bytes.length, outLen := bytes.length, domain := p.domain, prog, bytes,
    frame := p.fid, trace := p.trace }

/-- The three hashes and the order domain of a packet (R59, R64, R65). -/
def State.hashPkt (s : State) (p : Pkt) : Pkt × State :=
  let prof := s.rdBank p.bank .lbh_NODE_PROF [p.final]
  let hDisp := s.hashUnit 0 (f_lbh_NODE_PROF_disp_prof.get prof) p.kb
  ({ p with
    hDisp
    hEcmp := s.hashUnit 1 (f_lbh_NODE_PROF_ecmp_prof.get prof) p.kb
    hLag := s.hashUnit 2 (f_lbh_NODE_PROF_lag_prof.get prof) p.kb
    domain := p.mac * 16 + hDisp / 2 ^ 28 }, (s.count1 53 4))

/-- Reasons that stop a walk at a node it does not enter, PARSE_DEEP apart (R49). -/
def stoppingReasons : List Nat := [0, 1, 2, 3, 6, 7, 8, 9, 13, 18, 21, 28]

/-- Nodes a walk has walked. -/
def Walk.nodes (w : Walk) : Nat := w.hov.length + (if stoppingReasons.any (bitOf w.reasons) then 1 else 0)

/-- A packet dropped at the parser output (R52, R58). -/
def State.parserDrop (s : State) (p : Pkt) : State := s.traceWay p.trace 0x06 0 [7]

/-- A packet goes on past the parser. One that finds the die-to-die link's transmit FIFO full is dropped while the link is
LIMITED (R18, R58), and waits at the end of its pipe's fast-break stage while it is at FULL_RATE, so that the backlog
reaches the receive FIFOs (R32). DESIGN CHOICE, log entry 72. -/
def State.parserForward (s : State) (p : Pkt) (d2dFull : Bool) : State :=
  if s.d2dHealth == 1 && d2dFull then
    ((s.addSat .prs_D2D_DROP [] f_prs_D2D_DROP_packets 1).parserDrop p).stepEnd 8
  else
    (s.rauIssue p).stageEnd p d2dFull

/-- A walk has ended: the verdict is formed and handled by the malformed-action table (R50 to R54). -/
def State.parseVerdict (s : State) (p : Pkt) (w : Walk) (d2dFull : Bool) : State :=
  let pipe := p.mac / 16
  let s := if bitOf w.reasons 0 then s.nodeError p.bank pipe w.node else s
  let v := verdictOf w.reasons
  let act := match v with
    | some r => s.rdAt p.seq .prs_MAL_ACT [r]
    | none => 0
  let action := f_prs_MAL_ACT_action.get act
  let s := match v with
    | some r => s.addWrap .prs_MAL_CNT [pipe, r] f_prs_MAL_CNT_packets 1
    | none => s
  let s := (s.count1 (32 + pipe) (if v.isSome then 6 else 5)).countEvents (32 + pipe) 8 w.nodes
  let p := { p with
    hov := w.hov, final := w.final, kb := w.kb, reasons := w.reasons, lastEnd := w.lastEnd,
    marked := v.isSome && action == 3, outer := v.isSome && action == 2 }
  let (p, s) := s.hashPkt p
  let goesOn := v.isNone || decide (2 ≤ action)
  let p := { p with plan := if goesOn then s.planOf p.bank p.mac p.final else 0 }
  let s := s.modTrace p.trace fun t => { t with reasons := w.reasons }
  let s := s.traceWay p.trace 0x02 0 ([BitVec.ofNat 8 (v.getD 32)] ++ natLE 2 p.final ++
    [BitVec.ofNat 8 p.plan, BitVec.ofNat 8 action])
  if goesOn then s.parserForward p d2dFull
  else if action = 0 then (s.parserDrop p).outcome p.seq 3 0 0 0
  else
    let ring := f_prs_MAL_ACT_punt_ring.get act
    let s := s.outcome p.seq 4 ring p.bytes.length 0
    let (ok, s) := s.excCharge (f_prs_MAL_ACT_exc_policer.get act) p.ts
    if ok then (s.traceWay p.trace 0x06 0 ([2, 0] ++ natLE 3 ring)).puntPut (p.punt ring 0 p.bytes [])
    else s.parserDrop p

/-! ### Parser entry (R34 to R36, R644, R646) -/

/-- The walk goes on as far as nodes are settled (R36); `ue` names nodes whose reading meets an uncorrectable
error in this walk. -/
def State.parseWalk (s : State) (p : Pkt) (w : Walk) (beats : Nat) (ended d2dFull : Bool) (ue : List (Fin 1024)) :
    State :=
  let len := p.bytes.length
  let v : FrameView := { bytes := p.bytes, ended, present := if ended then len else 64 * min beats ((len - 1) / 64) }
  let h := s.rd .prs_HORIZON []
  let maxBytes := max 64 (min 384 (f_prs_HORIZON_max_bytes.get h))
  let maxHeaders := max 1 (min 16 (f_prs_HORIZON_max_headers.get h))
  let read (n : Nat) : NodeWords × Bool :=
    (s.nodeWords p.bank n, s.nodeBad p.bank (p.mac / 16) n || ue.any (·.val == n))
  match walkFrom maxBytes maxHeaders read v 17 w with
  | .setAside w => { s with fpc := { s.fpc with waits := SMap.put none s.fpc.waits p.mac (some (p, w)) } }
  | .verdict w => s.parseVerdict p w d2dFull

/-- Whether a packet's sequence number is tagged, before a slot is sought (R580, R584). DESIGN CHOICE, log entry 14. -/
def State.tagged (s : State) (seq : Nat) : Bool :=
  let k := max 4 (min 24 (s.fld .skp_TRACE_CFG [] f_skp_TRACE_CFG_k))
  s.flag .skp_TRACE_CFG [] f_skp_TRACE_CFG_enable && !s.traceFull &&
    ((splitMixOut (s.rd .skp_TRACE_SEED [] ^^^ BitVec.ofNat 64 seq)).toNat % 2 ^ k == 0)

/-- A frame enters its pipe with a sequence number and a timestamp (R646); `prog` comes with an inject (R516). -/
def State.enterParser (s : State) (m fid : Nat) (bytes : List Byte) (seq : Nat) (ts : Word) (ended d2dFull : Bool)
    (beats : Nat) (ue : List (Fin 1024)) (prog : List Byte := []) : State :=
  let pipe := m / 16
  let root := s.fld .prs_PORT_CFG [m] f_prs_PORT_CFG_root_node
  let s := { s with fpc := { s.fpc with seqNext := seq + 1 } }
  let s := (s.polBoundary seq ts).count1 (32 + pipe) 4
  let (s, trace) := if s.tagged seq then
      s.traceOpen { seq := BitVec.ofNat 64 seq, ts, inMac := m, frameLen := bytes.length }
    else (s, 0)
  let s := s.traceWay trace 0x01 0 [BitVec.ofNat 8 pipe]
  let p : Pkt :=
    { seq, fid, mac := m, ts, bytes, bank := s.activeBank, hov := [], final := root,
      kb := List.replicate 128 0, reasons := 0, lastEnd := 0, trace, prog }
  s.parseWalk p { node := root, final := root } beats ended d2dFull ue

/-- A MAC's wait slot holds no frame (R36). -/
def State.waitFree (s : State) (m : Nat) : Bool := (SMap.get none s.fpc.waits m).isNone

/-- A port's frames leave its FIFO as the parser takes their beats (R364): an entered frame that has ended leaves
whole. -/
def State.drainRx (s : State) (m : Nat) : State :=
  (s.modPort m fun x => { x with rx := x.rx.filter fun f => !(f.entered && f.ended) }).pauseCheck m

/-- The frame the parser takes next from a port is marked as entered. -/
def State.takeFrame (s : State) (m : Nat) (f : RxFrame) (beats : Nat) : State :=
  (s.modRx m f.fid fun f => { f with entered := true, left := min (64 * beats) (f.bytes.length) }).drainRx m

/-- A frame that has not entered the parser leaves the receive FIFO without entering it. -/
def State.dropFrame (s : State) (m : Nat) (f : RxFrame) : State :=
  if f.ended then (s.modPort m fun x => { x with rx := x.rx.filter fun r => r.fid != f.fid }).pauseCheck m
  else (s.modRx m f.fid fun f => { f with dropped := true }).pauseCheck m

/-- Intake is held during a handover (R469). -/
def State.intakeHeld (s : State) : Bool := s.flag .twn_STATUS [] f_twn_STATUS_handover

/-- A pipe takes no frame: it is out of service (R25), or its fast-break stage is held: a packet waits at its end for a
position (R81) or for room in the die-to-die link's transmit FIFO (R32), or the packet that waits first for
dispatch has no cluster or finds its cluster's input queue full (R72, R74). The pipe then takes no frame, so its frames stay
in the receive FIFOs of its MACs. DESIGN CHOICE, log entry 72. -/
def State.pipeHeld (s : State) (pipe : Nat) : Bool :=
  s.tileOut 2 pipe || !(SMap.get [] s.fpc.stage pipe).isEmpty ||
    match SMap.get [] s.fpc.dispq pipe with
    | p :: _ => match s.chooseCluster p.seq p.hDisp with
      | some (c, _) => s.clusterFull c
      | none => true
    | [] => false

/-- PARSER_ENTRY (R646, R644): the next frame of MAC `m`, of which `beats` beats are present, takes an entry slot;
an in-step follower enters frames only as its log directs (R456), and a device that is resynchronised discards its
line input and then holds it (R466, R468). `ce` corrected errors were met (R57). DESIGN CHOICE, log entry 72. -/
def execParserEntry (m : Fin 256) (beats : Nat) (d2dFull : Bool) (ue : List (Fin 1024)) (ce : Nat) (s : State) : Res :=
  if s.following || s.intakeHeld || !s.waitFree m || s.pipeHeld (m.val / 16) then go s
  else if s.twinState == 1 && decide (2 ≤ s.twin.phase) && !s.flag .twn_STATUS [] f_twn_STATUS_log_source then
    if s.twin.phase = 2 then
      match s.nextFrame m with
      | some f => go ((s.dropFrame m f).addWrap .twn_CNT [6] f_twn_CNT_count 1)
      | none => go s
    else go s
  else match s.nextFrame m with
    | some f =>
      if f.ended || decide (1 ≤ beats ∧ 64 < f.bytes.length) then
        let seq := s.fpc.seqNext
        let s := s.addSat .prs_STATUS [] f_prs_STATUS_ce_count ce
        let s := (s.logEntry 0 m f.bytes.length f.ts).takeFrame m f beats
        go ((s.enterParser m f.fid f.bytes seq f.ts f.ended d2dFull beats ue).logWaiting m)
      else go s
    | none => go s

/-- Whether a frame has ended: it has left its FIFO, or its last byte has arrived. -/
def State.frameEnded (s : State) (m fid : Nat) : Bool :=
  ((s.port m).rx).all fun f => f.fid != fid || f.ended

/-- Later beats of a frame have left the FIFO for the parser, and free their space (R364). -/
def State.takeMore (s : State) (m fid beats : Nat) : State :=
  (s.modRx m fid fun f => { f with left := max f.left (min (64 * beats) f.bytes.length) }).pauseCheck m

/-- PARSE_RESUME (R36): the packet in MAC `m`'s wait slot goes on at the node it waits on, where that node is
settled now. -/
def execParseResume (m : Fin 256) (beats : Nat) (d2dFull : Bool) (ue : List (Fin 1024)) (ce : Nat) (s : State) : Res :=
  match SMap.get none s.fpc.waits m with
  | some (p, w) =>
    let s := s.addSat .prs_STATUS [] f_prs_STATUS_ce_count ce
    let s := { s with fpc := { s.fpc with waits := SMap.put none s.fpc.waits m none } }
    go ((s.takeMore m p.fid beats).parseWalk p w beats (s.frameEnded m p.fid) d2dFull ue)
  | none => go s

end Sys2Proof.Machine
end

