-- ==== Sys2Proof/Machine/Kryx.lean ====
section
/-! DEFINITION. The Kryx instruction words: the instructions as data, their formats, decoder and encoder
(R136, R137), and what the arithmetic and bit-field instructions compute (R138, R139). -/

namespace Sys2Proof.Machine

/-- The functions of op 0x01 (R138). -/
inductive AluFn
  | add | sub | and | or | xor | shl | shr | sar | rotr | slt | sltu | minu | maxu | mul | mulhu | csum
  | popc | clz | bswap | bswap32 | bswap16
  deriving DecidableEq, Repr

/-- The immediate instructions with a 16-bit immediate used whole (R139). -/
inductive ImmFn
  | addi | andi | ori | xori | slti | sltiu
  deriving DecidableEq, Repr

/-- The bit-field instructions of op 0x0A (R139). -/
inductive FieldFn
  | ext | exts | ins | mask
  deriving DecidableEq, Repr

/-- The atomics of op 0x16 (R140). -/
inductive AmoFn
  | add | and | or | xor | swap | maxu | minu | cas
  deriving DecidableEq, Repr

/-- The conditions of a conditional branch (R139). -/
inductive Cond
  | eq | ne | lt | ge | ltu | geu | bbs | bbc
  deriving DecidableEq, Repr

/-- An instruction word with its operand fields (R136 to R150). Fields that a word may hold and that no rule
reads are not kept. -/
inductive KInstr
  | alu (fn : AluFn) (rd ra rb : BitVec 5)
  | imm (fn : ImmFn) (rd ra : BitVec 5) (imm : BitVec 16)
  | shi (kind : BitVec 2) (rd ra : BitVec 5) (amt : BitVec 6)
  | lui (rd : BitVec 5) (imm : BitVec 16)
  | field (fn : FieldFn) (rd ra : BitVec 5) (pos wm1 : BitVec 6)
  | bcc (cond : Cond) (ra rb : BitVec 5) (hint : Bool) (off : BitVec 12)
  | j (target : BitVec 17)
  | jal (target : BitVec 17)
  | jr (ra : BitVec 5)
  | hld (rd ra : BitVec 5) (off : BitVec 9) (size : BitVec 2) (sx : Bool)
  | hst (rd ra : BitVec 5) (off : BitVec 9) (size : BitVec 2)
  | movmg (rd : BitVec 5) (idx : BitVec 6)
  | movgm (rd : BitVec 5) (idx : BitVec 6)
  | lread (rd : BitVec 5) (hi : Bool) (l : BitVec 3)
  | ld (rd ra : BitVec 5) (off : BitVec 12) (size : BitVec 2) (sx : Bool)
  | st (rd ra : BitVec 5) (off : BitVec 12) (size : BitVec 2)
  | amo (fn : AmoFn) (rd ra rb : BitVec 5)
  | fence
  | cinv (ra : BitVec 5)
  | dma (ra rb rc : BitVec 5)
  | lkp (l : BitVec 3) (table : BitVec 8) (ks : Bool) (koff : BitVec 7)
  | lkw (l : BitVec 3)
  | passRes (rd : BitVec 5) (obj : BitVec 6) (rmt : Bool) (cl : BitVec 5)
  | passCommit (rd : BitVec 5)
  | passRecv (obj : BitVec 6) (soff : BitVec 3) (rmt : Bool)
  | signal (obj : BitVec 6) (rmt : Bool) (cl : BitVec 5)
  | wait (obj : BitVec 6) (rmt : Bool)
  | nop
  | yield'
  | halt
  | rnd (rd : BitVec 5)
  | score (rd ra : BitVec 5)
  | cntAdd (ra rb : BitVec 5)
  | cntAddn (ra rb rc : BitVec 5)
  | polChg (ra rb : BitVec 5)
  | lrn (ra : BitVec 5)
  | dcmt
  | emit (ra : BitVec 5)
  | drop (imm8 : BitVec 8)
  | punt (ra : BitVec 5)
  | mirror (ra : BitVec 5)
  deriving DecidableEq, Repr

/-! ### Codes -/

/-- The fn code of a function of op 0x01, and back (R138). -/
def AluFn.code : AluFn → BitVec 6
  | .add => 0 | .sub => 1 | .and => 2 | .or => 3 | .xor => 4 | .shl => 5 | .shr => 6 | .sar => 7 | .rotr => 8
  | .slt => 9 | .sltu => 10 | .minu => 11 | .maxu => 12 | .mul => 13 | .mulhu => 14 | .csum => 15
  | .popc => 16 | .clz => 17 | .bswap => 18 | .bswap32 => 19 | .bswap16 => 20
def AluFn.all : List AluFn :=
  [.add, .sub, .and, .or, .xor, .shl, .shr, .sar, .rotr, .slt, .sltu, .minu, .maxu, .mul, .mulhu, .csum,
    .popc, .clz, .bswap, .bswap32, .bswap16]
def AluFn.ofCode (c : BitVec 6) : Option AluFn := AluFn.all.find? fun f => f.code == c

/-- A function that reads ra only, so that its rb field must be zero (R138). -/
def AluFn.unary : AluFn → Bool
  | .popc | .clz | .bswap | .bswap32 | .bswap16 => true
  | _ => false

/-- The op of an immediate instruction (R139). -/
def ImmFn.op : ImmFn → BitVec 6
  | .addi => 0x02 | .andi => 0x03 | .ori => 0x04 | .xori => 0x05 | .slti => 0x08 | .sltiu => 0x09

/-- The fn code of a bit-field instruction, and back (R139). -/
def FieldFn.code : FieldFn → BitVec 4
  | .ext => 0 | .exts => 1 | .ins => 2 | .mask => 3
def FieldFn.ofCode (c : BitVec 4) : Option FieldFn := [FieldFn.ext, .exts, .ins, .mask].find? fun f => f.code == c

/-- The fn code of an atomic, and back (R140). -/
def AmoFn.code : AmoFn → BitVec 6
  | .add => 0 | .and => 1 | .or => 2 | .xor => 3 | .swap => 4 | .maxu => 5 | .minu => 6 | .cas => 7
def AmoFn.ofCode (c : BitVec 6) : Option AmoFn :=
  [AmoFn.add, .and, .or, .xor, .swap, .maxu, .minu, .cas].find? fun f => f.code == c

/-- The code of a condition, and back (R139). -/
def Cond.code : Cond → BitVec 3
  | .eq => 0 | .ne => 1 | .lt => 2 | .ge => 3 | .ltu => 4 | .geu => 5 | .bbs => 6 | .bbc => 7
def Cond.ofCode (c : BitVec 3) : Cond :=
  match c.toNat with
  | 0 => .eq | 1 => .ne | 2 => .lt | 3 => .ge | 4 => .ltu | 5 => .geu | 6 => .bbs | _ => .bbc

/-- A truth value as one bit, and back. -/
def bit1 (b : Bool) : BitVec 1 := BitVec.ofBool b
def isOne (b : BitVec 1) : Bool := b == 1#1

/-! ### Formats and the encoder (R136) -/

/-- The formats of R136, most significant field first. -/
def fmtR (op : BitVec 6) (rd ra rb : BitVec 5) (fn : BitVec 6) : BitVec 32 := op ++ rd ++ ra ++ rb ++ 0#5 ++ fn
def fmtI (op : BitVec 6) (rd ra : BitVec 5) (imm : BitVec 16) : BitVec 32 := op ++ rd ++ ra ++ imm
def fmtF (op : BitVec 6) (rd ra : BitVec 5) (pos wm1 : BitVec 6) (fn : BitVec 4) : BitVec 32 :=
  op ++ rd ++ ra ++ pos ++ wm1 ++ fn
def fmtB (op : BitVec 6) (ra rb : BitVec 5) (hint : BitVec 1) (cond : BitVec 3) (off : BitVec 12) : BitVec 32 :=
  op ++ ra ++ rb ++ hint ++ cond ++ off
def fmtJ (op : BitVec 6) (target : BitVec 17) : BitVec 32 := op ++ 0#9 ++ target
def fmtH (op : BitVec 6) (rd ra : BitVec 5) (off : BitVec 9) (size : BitVec 2) (sx : BitVec 1) : BitVec 32 :=
  op ++ rd ++ ra ++ off ++ size ++ sx ++ 0#4
def fmtS (op : BitVec 6) (rd ra : BitVec 5) (off : BitVec 12) (size : BitVec 2) (sx : BitVec 1) : BitVec 32 :=
  op ++ rd ++ ra ++ off ++ size ++ sx ++ 0#1
def fmtM (op : BitVec 6) (rd : BitVec 5) (idx : BitVec 6) (fn : BitVec 4) : BitVec 32 :=
  op ++ rd ++ idx ++ 0#11 ++ fn
def fmtK (op : BitVec 6) (l : BitVec 3) (table : BitVec 8) (ks : BitVec 1) (koff : BitVec 7) : BitVec 32 :=
  op ++ l ++ table ++ ks ++ koff ++ 0#7
def fmtC (op : BitVec 6) (rd : BitVec 5) (obj : BitVec 6) (soff : BitVec 3) (rmt : BitVec 1) (cl : BitVec 5)
    (fn : BitVec 4) : BitVec 32 := op ++ rd ++ obj ++ soff ++ rmt ++ cl ++ 0#2 ++ fn
def fmtD (op : BitVec 6) (ra rb rc : BitVec 5) (fn : BitVec 4) : BitVec 32 := op ++ ra ++ rb ++ rc ++ 0#7 ++ fn
def fmtX (op : BitVec 6) (ra : BitVec 5) (imm8 : BitVec 8) (fn : BitVec 4) : BitVec 32 :=
  op ++ ra ++ imm8 ++ 0#9 ++ fn

/-- The word of an instruction (R136 to R150): fields that no rule reads are zero. DEDUCED, log entry 24. -/
def KInstr.encode : KInstr → BitVec 32
  | .alu fn rd ra rb => fmtR 0x01 rd ra (if fn.unary then 0 else rb) fn.code
  | .imm fn rd ra v => fmtI fn.op rd ra v
  | .shi kind rd ra amt => fmtI 0x06 rd ra (0#8 ++ kind ++ amt)
  | .lui rd v => fmtI 0x07 rd 0 v
  | .field fn rd ra pos wm1 => fmtF 0x0A rd ra pos wm1 fn.code
  | .bcc cond ra rb hint off => fmtB 0x0C ra rb (bit1 hint) cond.code off
  | .j target => fmtJ 0x0D target
  | .jal target => fmtJ 0x0E target
  | .jr ra => fmtR 0x0F 0 ra 0 0
  | .hld rd ra off size sx => fmtH 0x10 rd ra off size (bit1 sx)
  | .hst rd ra off size => fmtH 0x11 rd ra off size 0
  | .movmg rd idx => fmtM 0x12 rd idx 0
  | .movgm rd idx => fmtM 0x12 rd idx 1
  | .lread rd hi l => fmtM 0x12 rd (0#2 ++ bit1 hi ++ l) 2
  | .ld rd ra off size sx => fmtS 0x14 rd ra off size (bit1 sx)
  | .st rd ra off size => fmtS 0x15 rd ra off size 0
  | .amo fn rd ra rb => fmtR 0x16 rd ra rb fn.code
  | .fence => fmtR 0x17 0 0 0 0
  | .cinv ra => fmtR 0x17 0 ra 0 1
  | .dma ra rb rc => fmtD 0x18 ra rb rc 0
  | .lkp l table ks koff => fmtK 0x1C l table (bit1 ks) koff
  | .lkw l => fmtK 0x1D l 0 0 0
  | .passRes rd obj rmt cl => fmtC 0x20 rd obj 0 (bit1 rmt) cl 0
  | .passCommit rd => fmtC 0x20 rd 0 0 0 0 1
  | .passRecv obj soff rmt => fmtC 0x20 0 obj soff (bit1 rmt) 0 2
  | .signal obj rmt cl => fmtC 0x20 0 obj 0 (bit1 rmt) cl 3
  | .wait obj rmt => fmtC 0x20 0 obj 0 (bit1 rmt) 0 4
  | .nop => fmtR 0x2C 0 0 0 0
  | .yield' => fmtR 0x2C 0 0 0 1
  | .halt => fmtR 0x2C 0 0 0 2
  | .rnd rd => fmtR 0x2C rd 0 0 3
  | .score rd ra => fmtR 0x2C rd ra 0 4
  | .cntAdd ra rb => fmtD 0x24 ra rb 0 0
  | .cntAddn ra rb rc => fmtD 0x24 ra rb rc 1
  | .polChg ra rb => fmtD 0x24 ra rb 0 2
  | .lrn ra => fmtD 0x24 ra 0 0 3
  | .dcmt => fmtD 0x24 0 0 0 4
  | .emit ra => fmtX 0x28 ra 0 0
  | .drop imm8 => fmtX 0x28 0 imm8 1
  | .punt ra => fmtX 0x28 ra 0 2
  | .mirror ra => fmtX 0x28 ra 0 3

/-- A bit field that ends beyond bit 63 is ILLEGAL (R139), and rb of a unary function is not kept. -/
def KInstr.wf : KInstr → Bool
  | .field _ _ _ pos wm1 => decide (pos.toNat + wm1.toNat ≤ 63)
  | .alu fn _ _ rb => !fn.unary || rb == 0
  | _ => true

/-! ### The decoder (R137) -/

/-- The `n` bits of a word from bit `lo`. -/
def fieldAt (w : BitVec 32) (lo n : Nat) : BitVec n := w.extractLsb' lo n

/-- An instruction where a condition on the word's zero fields holds. DEDUCED, log entry 24. -/
def whenOk (ok : Bool) (i : KInstr) : Option KInstr := if ok then some i else none

/-- The instruction of a word, or none for a word that raises ILLEGAL (R137). A PASS.RECV or WAIT with rmt = 1
is an instruction, which raises CHAN_ATTR (R142, R152); DEDUCED, log entry 30. -/
def decodeKryx (w : BitVec 32) : Option KInstr :=
  let rd := fieldAt w 21 5
  let ra := fieldAt w 16 5
  let rb := fieldAt w 11 5
  let imm := fieldAt w 0 16
  let fn6 := fieldAt w 0 6
  let fn4 := fieldAt w 0 4
  let zR := fieldAt w 6 5 == 0
  let immI (fn : ImmFn) : Option KInstr := some (.imm fn rd ra imm)
  match (fieldAt w 26 6).toNat with
  | 0x01 =>
    match AluFn.ofCode fn6 with
    | some fn => whenOk (zR && (!fn.unary || rb == 0)) (.alu fn rd ra rb)
    | none => none
  | 0x02 => immI .addi
  | 0x03 => immI .andi
  | 0x04 => immI .ori
  | 0x05 => immI .xori
  | 0x06 => whenOk (fieldAt w 8 8 == 0) (.shi (fieldAt w 6 2) rd ra (fieldAt w 0 6))
  | 0x07 => whenOk (ra == 0) (.lui rd imm)
  | 0x08 => immI .slti
  | 0x09 => immI .sltiu
  | 0x0A =>
    match FieldFn.ofCode fn4 with
    | some fn =>
      whenOk (decide ((fieldAt w 10 6).toNat + (fieldAt w 4 6).toNat ≤ 63))
        (.field fn rd ra (fieldAt w 10 6) (fieldAt w 4 6))
    | none => none
  | 0x0C => some (.bcc (Cond.ofCode (fieldAt w 12 3)) rd ra (isOne (fieldAt w 15 1)) (fieldAt w 0 12))
  | 0x0D => whenOk (fieldAt w 17 9 == 0) (.j (fieldAt w 0 17))
  | 0x0E => whenOk (fieldAt w 17 9 == 0) (.jal (fieldAt w 0 17))
  | 0x0F => whenOk (zR && fn6 == 0 && rd == 0 && rb == 0) (.jr ra)
  | 0x10 => whenOk (fn4 == 0) (.hld rd ra (fieldAt w 7 9) (fieldAt w 5 2) (isOne (fieldAt w 4 1)))
  | 0x11 => whenOk (fieldAt w 0 5 == 0) (.hst rd ra (fieldAt w 7 9) (fieldAt w 5 2))
  | 0x12 =>
    let idx := fieldAt w 15 6
    if fieldAt w 4 11 != 0 then none
    else match fn4.toNat with
      | 0 => some (.movmg rd idx)
      | 1 => some (.movgm rd idx)
      | 2 => whenOk (fieldAt w 19 2 == 0) (.lread rd (isOne (fieldAt w 18 1)) (fieldAt w 15 3))
      | _ => none
  | 0x14 => whenOk (fieldAt w 0 1 == 0) (.ld rd ra (fieldAt w 4 12) (fieldAt w 2 2) (isOne (fieldAt w 1 1)))
  | 0x15 => whenOk (fieldAt w 0 2 == 0) (.st rd ra (fieldAt w 4 12) (fieldAt w 2 2))
  | 0x16 =>
    match AmoFn.ofCode fn6 with
    | some fn => whenOk zR (.amo fn rd ra rb)
    | none => none
  | 0x17 =>
    if !zR then none
    else match fn6.toNat with
      | 0 => some .fence
      | 1 => some (.cinv ra)
      | _ => none
  | 0x18 => whenOk (fieldAt w 4 7 == 0 && fn4 == 0) (.dma rd ra rb)
  | 0x1C =>
    whenOk (fieldAt w 0 7 == 0)
      (.lkp (fieldAt w 23 3) (fieldAt w 15 8) (isOne (fieldAt w 14 1)) (fieldAt w 7 7))
  | 0x1D => whenOk (fieldAt w 0 23 == 0) (.lkw (fieldAt w 23 3))
  | 0x20 =>
    let obj := fieldAt w 15 6
    let rmt := isOne (fieldAt w 11 1)
    let cl := fieldAt w 6 5
    if fieldAt w 4 2 != 0 then none
    else match fn4.toNat with
      | 0 => some (.passRes rd obj rmt cl)
      | 1 => whenOk (obj == 0 && !rmt && cl == 0) (.passCommit rd)
      | 2 => whenOk (rd == 0 && (rmt || cl == 0)) (.passRecv obj (fieldAt w 12 3) rmt)
      | 3 => whenOk (rd == 0) (.signal obj rmt cl)
      | 4 => whenOk (rd == 0 && (rmt || cl == 0)) (.wait obj rmt)
      | _ => none
  | 0x24 =>
    if fieldAt w 4 7 != 0 then none
    else match fn4.toNat with
      | 0 => whenOk (rb == 0) (.cntAdd rd ra)
      | 1 => some (.cntAddn rd ra rb)
      | 2 => whenOk (rb == 0) (.polChg rd ra)
      | 3 => whenOk (ra == 0 && rb == 0) (.lrn rd)
      | 4 => whenOk (rd == 0 && ra == 0 && rb == 0) .dcmt
      | _ => none
  | 0x28 =>
    let imm8 := fieldAt w 13 8
    if fieldAt w 4 9 != 0 then none
    else match fn4.toNat with
      | 0 => whenOk (imm8 == 0) (.emit rd)
      | 1 => whenOk (rd == 0) (.drop imm8)
      | 2 => whenOk (imm8 == 0) (.punt rd)
      | 3 => whenOk (imm8 == 0) (.mirror rd)
      | _ => none
  | 0x2C =>
    if !zR then none
    else match fn6.toNat with
      | 0 => some .nop
      | 1 => some .yield'
      | 2 => some .halt
      | 3 => some (.rnd rd)
      | 4 => some (.score rd ra)
      | _ => none
  | _ => none

/-! ### What the arithmetic computes (R138) -/

/-- The bytes of a word reversed, `n` bytes from the least significant. -/
def byteSwap (n : Nat) (v : Word) : Word := BitVec.ofNat 64 (beNat (natLE n v.toNat))

/-- Number of ones in the low `n` bits. -/
def onesIn (v : Nat) : Nat → Nat
  | 0 => 0
  | n + 1 => (if bitOf v n then 1 else 0) + onesIn v n

/-- 16-bit ones' complement sum of two halves (R138). -/
def csum16 (a b : Nat) : Nat := let t := a % 65536 + b % 65536; t % 65536 + t / 65536

/-- The result of a function of op 0x01 (R138). -/
def AluFn.eval (fn : AluFn) (a b : Word) : Word :=
  let n := b.toNat % 64
  match fn with
  | .add => a + b
  | .sub => a - b
  | .and => a &&& b
  | .or => a ||| b
  | .xor => a ^^^ b
  | .shl => a <<< n
  | .shr => a >>> n
  | .sar => a.sshiftRight n
  | .rotr => a.rotateRight n
  | .slt => Word.ofBool (a.slt b)
  | .sltu => Word.ofBool (a.ult b)
  | .minu => if a.ult b then a else b
  | .maxu => if a.ult b then b else a
  | .mul => a * b
  | .mulhu => BitVec.ofNat 64 (a.toNat * b.toNat / 2 ^ 64)
  | .csum => BitVec.ofNat 64 (csum16 a.toNat b.toNat)
  | .popc => BitVec.ofNat 64 (onesIn a.toNat 64)
  | .clz => if a = 0 then 64 else BitVec.ofNat 64 (63 - Nat.log2 a.toNat)
  | .bswap => byteSwap 8 a
  | .bswap32 => byteSwap 4 (a &&& 0xFFFFFFFF)
  | .bswap16 => byteSwap 2 (a &&& 0xFFFF)

/-- The result of an immediate instruction (R139). -/
def ImmFn.eval (fn : ImmFn) (a : Word) (imm : BitVec 16) : Word :=
  match fn with
  | .addi => a + imm.signExtend 64
  | .andi => a &&& imm.zeroExtend 64
  | .ori => a ||| imm.zeroExtend 64
  | .xori => a ^^^ imm.zeroExtend 64
  | .slti => Word.ofBool (a.slt (imm.signExtend 64))
  | .sltiu => Word.ofBool (a.ult (imm.signExtend 64))

/-- The result of SHI (R139). -/
def shiEval (kind : BitVec 2) (a : Word) (amt : BitVec 6) : Word :=
  let n := amt.toNat
  match kind.toNat with
  | 0 => a <<< n
  | 1 => a >>> n
  | 2 => a.sshiftRight n
  | _ => a.rotateRight n

/-- Ones in bits [pos + width - 1 : pos]. -/
def fieldMask (pos width : Nat) : Word := BitVec.ofNat 64 ((2 ^ width - 1) * 2 ^ pos)

/-- The result of a bit-field instruction on rd and ra (R139). -/
def FieldFn.eval (fn : FieldFn) (d a : Word) (pos width : Nat) : Word :=
  let low := BitVec.ofNat 64 (bitsOf a.toNat pos width)
  match fn with
  | .ext => low
  | .exts => (low <<< (64 - width)).sshiftRight (64 - width)
  | .ins => (d &&& ~~~ fieldMask pos width) ||| ((a <<< pos) &&& fieldMask pos width)
  | .mask => fieldMask pos width

/-- Whether a branch condition holds (R139): BBS and BBC test the bit of ra that the rb field names. -/
def Cond.holds (c : Cond) (a b : Word) (bit : BitVec 5) : Bool :=
  match c with
  | .eq => a == b
  | .ne => a != b
  | .lt => a.slt b
  | .ge => !a.slt b
  | .ltu => a.ult b
  | .geu => !a.ult b
  | .bbs => a.getLsbD bit.toNat
  | .bbc => !a.getLsbD bit.toNat

/-- The new value of the word an atomic acts on, where it stores one (R140): `old` in memory, `b` in rb and `d`
in rd. -/
def AmoFn.eval (fn : AmoFn) (old b d : Word) : Word :=
  match fn with
  | .add => old + b
  | .and => old &&& b
  | .or => old ||| b
  | .xor => old ^^^ b
  | .swap => b
  | .maxu => if old.ult b then b else old
  | .minu => if b.ult old then b else old
  | .cas => if old = d then b else old

end Sys2Proof.Machine
end

