-- ==== Sys2Proof/Machine/Thread.lean ====
section
/-! DEFINITION. Threads, the roster, pass channels, event flags and how a thread's packet ends (chapters 3 and 4,
R68 to R96, R146 to R154). -/

namespace Sys2Proof.Machine

/-! ### Threads (R85, R115) -/

/-- Something happened in a cluster that makes its dead-ball condition fail until now (R101, R103). -/
def State.stir (s : State) (c : Nat) : State :=
  { s with fpc := { s.fpc with quiet := SMap.put 0 s.fpc.quiet c s.cycle, depSeen := SMap.put false s.fpc.depSeen c false } }

/-! ### The roster (R86 to R89) -/

/-- A core that runs no thread takes a pending roster and runs the thread of the next slot that names a READY
thread (R88, R89). DESIGN CHOICE, log entry 21. -/
def State.coreSwitch (s : State) (c k : Nat) : State :=
  if !s.corePresent c k || (List.range 8).any fun i => (s.th c (k * 8 + i)).state == 2 then s
  else
    let key := c * 16 + k
    let s := { s with fpc := { s.fpc with rosterOld := SMap.put none s.fpc.rosterOld key none } }
    let cur := SMap.get 15 s.fpc.cur key
    let w := (s.rd .fpc_ROSTER [c, k]).toNat
    let ready (i : Nat) : Bool := match rosterSlot w i with
      | some j => (s.th c (k * 8 + j)).state == 1
      | none => false
    match ((List.range 16).map fun i => (cur + 1 + i) % 16).find? ready with
    | some i =>
      let t := k * 8 + bitsOf w (4 * i) 3
      let s := { s with fpc := { s.fpc with cur := SMap.put 15 s.fpc.cur key i } }
      ((s.modTh c t fun th => { th with state := 2 }).stir c).count1 c 6
    | none => s

/-- A thread that becomes READY runs at once where its core is idle (R87); one that is halted keeps it for its
RESUME (R111). -/
def State.becomeReady (s : State) (c t : Nat) : State :=
  let s := (s.modTh c t fun th => if th.state = 4 then { th with under := 1 } else { th with state := 1 }).stir c
  s.coreSwitch c (t / 8)

/-- What a waiting thread waits for has come (R86). -/
def State.wake (s : State) (c t : Nat) : State := (s.modTh c t fun th => { th with ready := true }).becomeReady c t

/-- The first of the threads that wait for an object (R93, R95): the one that entered WAIT first, then the
lower number. The answer is cluster × 128 + thread. -/
def State.firstWaiter (s : State) (kind obj line : Nat) : Option Nat :=
  (s.fpc.threads.foldl (fun (acc : Option (Nat × Nat)) e =>
    let th := e.2
    if th.eff = 3 ∧ th.waitKind = kind ∧ th.waitObj = obj ∧ th.waitLine = line then
      match acc with
      | some (_, c) => if th.waitSince < c then some (e.1, th.waitSince) else acc
      | none => some (e.1, th.waitSince)
    else acc) none).map (·.1)

/-- Threads that were woken for an object and have not yet run. DEDUCED, log entry 26. -/
def State.awarded (s : State) (kind obj line : Nat) : Nat :=
  (s.fpc.threads.filter fun e =>
    e.2.ready && e.2.eff != 3 && e.2.waitKind == kind && e.2.waitObj == obj && e.2.waitLine == line).length

/-- The first waiter for an object is woken, if one waits. DEDUCED, log entry 26. -/
def State.wakeFirst (s : State) (kind obj line : Nat) : State :=
  match s.firstWaiter kind obj line with
  | some k => s.wake (k / 128) (k % 128)
  | none => s

/-! ### Pass channels (R91 to R94, R98, R99) -/

/-- A slot's state: 0 EMPTY, 1 RESERVED, 2 COMMITTED, 3 VOID. -/
def State.slotState (s : State) (c ch i : Nat) : Nat := bitsOf (s.rd .fpc_CHAN_SLOTS [c, ch]).toNat (2 * i) 2
def State.setSlot (s : State) (c ch i v : Nat) : State :=
  s.wr .fpc_CHAN_SLOTS [c, ch] (Fld.set ⟨2 * i, 2⟩ (s.rd .fpc_CHAN_SLOTS [c, ch]) v)

def State.chanHead (s : State) (c ch : Nat) : Nat := s.fld .fpc_CHAN_STATUS [c, ch] f_fpc_CHAN_STATUS_head
def State.chanTail (s : State) (c ch : Nat) : Nat := s.fld .fpc_CHAN_STATUS [c, ch] f_fpc_CHAN_STATUS_tail
def State.chanUsed (s : State) (c ch : Nat) : Nat := s.fld .fpc_CHAN_STATUS [c, ch] f_fpc_CHAN_STATUS_occupied

/-- The head is receivable: COMMITTED, or VOID with a COMMITTED slot after it (R86). -/
def State.chanReady (s : State) (c ch : Nat) : Bool :=
  match ((List.range (s.chanUsed c ch)).map fun i => s.slotState c ch ((s.chanHead c ch + i) % 32)).find? (· != 3) with
  | some v => v == 2
  | none => false

/-- A reader is woken for a receivable head (R93). -/
def State.wakeReader (s : State) (c ch : Nat) : State :=
  if s.chanReady c ch && s.awarded 3 ch c == 0 then s.wakeFirst 3 ch c else s

/-- The tail slot is reserved (R91). -/
def State.reserveSlot (s : State) (c ch : Nat) : Nat × State :=
  let i := s.chanTail c ch
  let s := (s.setSlot c ch i 1).setFld .fpc_CHAN_STATUS [c, ch] f_fpc_CHAN_STATUS_tail ((i + 1) % 32)
  (i, s.setFld .fpc_CHAN_STATUS [c, ch] f_fpc_CHAN_STATUS_occupied (s.chanUsed c ch + 1))

/-- A reserved slot is committed, waking a reader (R92). -/
def State.commitSlot (s : State) (c ch i : Nat) : State :=
  if s.slotState c ch i = 1 then ((s.setSlot c ch i 2).count1 c 13).wakeReader c ch else s

/-- A reserved slot becomes VOID (R94, R113). -/
def State.voidSlot (s : State) (c ch i : Nat) : State :=
  if s.slotState c ch i = 1 then
    ((s.setSlot c ch i 3).addSat .fpc_CHAN_STATUS [c, ch] f_fpc_CHAN_STATUS_voids_made 1).wakeReader c ch
  else s

/-- The head slot is freed: the head advances, and a waiting writer is woken (R86, R93). -/
def State.freeHead (s : State) (c ch : Nat) : State :=
  let i := s.chanHead c ch
  let s := (s.setSlot c ch i 0).setFld .fpc_CHAN_STATUS [c, ch] f_fpc_CHAN_STATUS_head ((i + 1) % 32)
  let s := s.setFld .fpc_CHAN_STATUS [c, ch] f_fpc_CHAN_STATUS_occupied (s.chanUsed c ch - 1)
  let gone (r : Reservation) : Bool := r.committed && r.cluster == c && r.chan == ch && r.slot == i
  let strip (e : Nat × Thread) : Nat × Thread :=
    if e.2.resv.any gone then (e.1, { e.2 with resv := e.2.resv.filter fun r => !gone r }) else e
  let s := { s with fpc := { s.fpc with threads := s.fpc.threads.map strip } }
  if s.chanUsed c ch + s.awarded 4 ch c < 32 then s.wakeFirst 4 ch c else s

/-- VOID slots at the head are skipped (R93). -/
def State.skipVoids (s : State) (c ch : Nat) : Nat → State
  | 0 => s
  | n + 1 =>
    if 0 < s.chanUsed c ch ∧ s.slotState c ch (s.chanHead c ch) = 3 then
      let s := (s.freeHead c ch).addSat .fpc_CHAN_STATUS [c, ch] f_fpc_CHAN_STATUS_voids_skipped 1
      (s.count1 c 14).skipVoids c ch n
    else s

/-- Byte address of a slot in channel memory (R68, R129). -/
def slotMem (c ch i : Nat) : Nat := c * 131072 + ch * 2048 + i * 64

/-- A producer outside the threads commits one slot, where there is room (R96); `none` where the channel is
full. DEDUCED, log entry 26. -/
def State.feedChannel (s : State) (c ch : Nat) (bytes : List Byte) : Option State :=
  if s.chanUsed c ch + s.awarded 4 ch c < 32 then
    let (i, s) := s.reserveSlot c ch
    let s := { s with fpc := { s.fpc with chanMem := s.fpc.chanMem.writeBytes (slotMem c ch i) (padTo 64 bytes) } }
    some (s.commitSlot c ch i)
  else none

/-! ### Event flags (R95) -/

def State.evtSet (s : State) (c f : Nat) : Bool := bitOf (s.fld .fpc_EVT_STATUS [c] f_fpc_EVT_STATUS_set) f
def State.setEvt (s : State) (c f : Nat) (b : Bool) : State :=
  s.setFld .fpc_EVT_STATUS [c] ⟨f, 1⟩ (if b then 1 else 0)

/-- A flag is signalled (R95). -/
def State.signalFlag (s : State) (c f : Nat) : State :=
  match s.firstWaiter 5 f c with
  | some k => s.wake (k / 128) (k % 128)
  | none =>
    if s.evtSet c f then s.addSat .fpc_EVT_STATUS [c] f_fpc_EVT_STATUS_merged 1 else s.setEvt c f true

/-! ### The end of a thread's packet or program -/

/-- A thread's outstanding lookups are discarded (R150): each leaves a waypoint marked squashed and frees its buffer
entry (R165, R170). -/
def State.discardLookups (s : State) (c t : Nat) : State :=
  let mine (l : Lookup) : Bool := match l.dest with
    | some (a, b, _) => a == c && b == t
    | none => false
  let gone := s.fpc.lookups.filter mine
  let drop (l : Lookup) : Lookup := if mine l then { l with squashed := true, dest := none, buf := none } else l
  let s := s.each gone fun s l =>
    s.traceWay l.trace 0x04 (if l.rau then 3 else 1) [BitVec.ofNat 8 l.table, 0, BitVec.ofNat 8 l.slot]
  let s := { s with fpc := { s.fpc with lookups := s.fpc.lookups.map drop } }
  s.each (gone.filterMap (·.buf)) State.bufShow

/-- Every slot a thread holds RESERVED becomes VOID (R94). DEDUCED, log entry 26. -/
def State.voidAll (s : State) (c t : Nat) : State :=
  s.each ((s.th c t).resv.filter fun r => !r.released && !r.committed) fun s r => s.voidSlot r.cluster r.chan r.slot

/-- The lookups of a thread that its packet's end leaves without effect (R170): those still out are discarded, and the
waypoints of those that returned and were not waited on, or of all where the packet ends by a drop without commit, are
marked squashed. -/
def State.squashTaken (s : State) (c t : Nat) (all : Bool) : State :=
  let th := s.th c t
  let ways := (th.l.filter fun e => e.2.way != 0 && (all || !e.2.waited)).map (·.2.way)
  match th.pkt with
  | some p => (s.waySquash p.trace ways).discardLookups c t
  | none => s.discardLookups c t

/-- What a thread was woken for and will not use goes to the next waiter: the receivable head of a channel, or its free
slot (R86, R93). -/
def State.wakeNext (s : State) (th : Thread) : State :=
  if !th.ready then s
  else match th.waitKind with
    | 3 => s.wakeReader th.waitLine th.waitObj
    | 4 =>
      if s.chanUsed th.waitLine th.waitObj + s.awarded 4 th.waitObj th.waitLine < 32
      then s.wakeFirst 4 th.waitObj th.waitLine else s
    | _ => s

/-- A thread becomes IDLE and its core switches (R85). -/
def State.endThread (s : State) (c t : Nat) : State :=
  let th := s.th c t
  let s := (s.voidAll c t).discardLookups c t
  (((s.modTh c t fun _ => { pc := th.pc }).stir c).wakeNext th).coreSwitch c (t / 8)

/-- The packet of a thread is dropped without commit (R148, R153): `kind` is that of its trace's DISPOSITION,
3 exception, 4 dead-ball, 5 drain-abort, 6 mem-error. DEDUCED, log entry 19. -/
def State.dropPacket (s : State) (p : Pkt) (kind detail : Nat) : State :=
  let s := s.squashAll p.seq
  let s := s.traceWay p.trace 0x06 0 [BitVec.ofNat 8 kind, BitVec.ofNat 8 detail]
  (s.outcome p.seq 6 0 0 0).vacate p.seq

/-- A thread ends by a drop of its packet, or commits nothing where it is resident (R153). -/
def State.abortThread (s : State) (c t kind detail : Nat) : State :=
  let s := match (s.th c t).pkt with
    | some p => (s.squashTaken c t true).dropPacket p kind detail
    | none => s
  s.endThread c t

/-- A thread raises an exception (R153, R154). -/
def State.exception (s : State) (c t code : Nat) : State :=
  let first := s.fld .fpc_EXC_STATUS [c] f_fpc_EXC_STATUS_exceptions == 0
  let s := s.addSat .fpc_EXC_STATUS [c] f_fpc_EXC_STATUS_exceptions 1
  let s := s.setFld .fpc_EXC_STATUS [c] f_fpc_EXC_STATUS_last_code code
  let s := s.setFld .fpc_EXC_STATUS [c] f_fpc_EXC_STATUS_last_thread t
  let s := s.setFld .fpc_EXC_STATUS [c] f_fpc_EXC_STATUS_last_pc (s.th c t).pc
  let s := s.count1 c 12
  let s := match (s.th c t).pkt with
    | some p => s.when (code == 14) fun s => (s.count1 (edtGroup p.seq) 4).count1 (edtGroup p.seq) 5
    | none => s
  let s := s.when first fun s =>
    s.postEvent 0x004 (natLE 1 c ++ natLE 4 (s.rd .fpc_EXC_STATUS [c]).toNat)
  s.abortThread c t 3 code

/-- An uncorrectable error in a cluster memory drops the reading thread's packet (R120, R121): `mem` is
1 instruction SRAM, 2 shared memory, 3 channel memory. The report names the cluster and no macro, word or bit of it.
DEDUCED, log entry 29; DESIGN CHOICE, log entry 78. -/
def State.memError (s : State) (c t mem : Nat) : State :=
  let s := s.addSat .fpc_ERR_STATUS [c] f_fpc_ERR_STATUS_ue_count 1
  let s := s.setFld .fpc_ERR_STATUS [c] f_fpc_ERR_STATUS_last_ue_mem mem
  let s := s.reportUe (locTile 2 2 0 c 0 0x3FF) 0
  (s.abortThread c t 6 0).stepEnd 8

/-! ### A thread's start (R71, R122, R127) -/

/-- The metadata fields of a packet's descriptor (R125), with the prog words of an inject (R516). -/
def Pkt.meta' (p : Pkt) : SMap (BitVec 32) :=
  let w (v : Nat) : BitVec 32 := BitVec.ofNat 32 v
  let fields : List (Nat × BitVec 32) :=
    [(0, w p.seq), (1, w (p.seq / 2 ^ 32)), (2, w (p.mac + p.mac / 16 * 2 ^ 8 + p.domain * 2 ^ 12)),
      (3, w p.bytes.length),
      (4, w (p.verdictByte + p.hov.length * 2 ^ 7 + p.final * 2 ^ 12 + p.plan * 2 ^ 22)), (5, w p.reasons),
      (6, w p.ts.toNat), (7, w (p.ts.toNat / 2 ^ 32)), (8, w p.hDisp), (9, w p.hEcmp), (10, w p.hLag),
      (33, w (min 384 p.bytes.length))] ++
    (List.range p.hov.length).map fun k => (16 + k, w ((p.hov.getD k (0, 0)).1 * 2 ^ 9 + (p.hov.getD k (0, 0)).2))
  let fields := fields ++ if p.prog.isEmpty then [] else (List.range 8).map fun k => (48 + k, w (leAt p.prog (4 * k) 4))
  fields.foldl (fun m e => SMap.put 0 m e.1 e.2) []

/-- A packet thread as its dispatch leaves it (R71, R122). -/
def packetThread (seed : Word) (entry : Nat) (p : Pkt) : Thread :=
  { pc := entry, m := p.meta', hdr := Memory.writeBytes [] 0 (p.bytes.take 384), kb := p.kb,
    gen := seed ^^^ BitVec.ofNat 64 p.seq, pkt := some p }

/-- A resident thread as its cluster's start leaves it (R122, R127); its key bundle reads zero. DESIGN CHOICE, log entry
77. -/
def State.residentThread (s : State) (c t : Nat) : Thread :=
  { pc := match s.program c with | some p => p.residentEntry.val | none => 0
    gen := s.rd .dsp_RNG_SEED [] ^^^ BitVec.ofNat 64 (0x8000000000000000 + c * 128 + t) }

/-- A resident thread starts, or restarts, at the resident entry point (R85, R104). -/
def State.startResident (s : State) (c t : Nat) : State := (s.modTh c t fun _ => s.residentThread c t).becomeReady c t

/-! ### A cluster's transitions and its cores (R26, R116, R119, R120) -/

/-- CLUSTER_STATE after a change (R512). -/
def State.clusterEvent (s : State) (c : Nat) : State :=
  s.postEvent 0x005 (natLE 1 c ++ natLE 8 (s.rd .fpc_CL_STATUS [c]).toNat)

/-- A cluster's start or stop begins (R116). -/
def State.clusterEdge (s : State) (c : Nat) (e : LcEdge) : State :=
  match e with
  | .stay => s
  | .beginStart => s.clusterEvent c
  | .beginStop => { s with fpc := { s.fpc with stopSince := SMap.put 0 s.fpc.stopSince c s.cycle } }.clusterEvent c

/-- Physical cores of a cluster that failed or were retired, by the lifetime record (R26). -/
def State.badCores (s : State) (c : Nat) : List Nat :=
  (List.range 17).filter fun p => (SMap.find? s.mgmt.life.cores (c * 32 + p)).isSome

/-- A core's failure enters the lifetime record (R26): `cause` 0 self-test, 1 margin, 2 failed while running.
DEDUCED, log entry 29. -/
def State.coreRecord (s : State) (c p cause : Nat) : State :=
  { s with mgmt := { s.mgmt with life := { s.mgmt.life with
      cores := SMap.insert s.mgmt.life.cores (c * 32 + p) (1 + cause) } } }

/-- The logical index that a physical core serves now. DEDUCED, log entry 29. -/
def State.logicalOf (s : State) (c p : Nat) : Option Nat :=
  let used := s.flag .fpc_CL_STATUS [c] f_fpc_CL_STATUS_spare_used
  let k := if p = 16 then (if used then some (s.fld .fpc_CL_STATUS [c] f_fpc_CL_STATUS_spare_for) else none)
    else if used && s.fld .fpc_CL_STATUS [c] f_fpc_CL_STATUS_spare_for == p then none else some p
  match k with
  | some k => if s.corePresent c k then some k else none
  | none => none

/-- The physical core that serves a logical index (R119). -/
def State.physicalOf (s : State) (c k : Nat) : Nat :=
  if s.flag .fpc_CL_STATUS [c] f_fpc_CL_STATUS_spare_used && s.fld .fpc_CL_STATUS [c] f_fpc_CL_STATUS_spare_for == k
  then 16 else k

/-- CORE_FAIL is posted (R22, R23, R512): the core, the index it served and the level at which it was found. -/
def State.coreEvent (s : State) (c p k found : Nat) : State :=
  s.postEventAt 0x006 (locTile found 4 0 c 1 p) 0 (natLE 1 c ++ natLE 1 p ++ natLE 1 k)

/-- Physical core `p`, which serves index `k`, stops (R26): the packets of its threads are dropped and counted, its index
reads absent, and a cluster below 12 usable cores is retired. DEDUCED, log entry 29; DESIGN CHOICE, log entry 73. -/
def State.coreFail (s : State) (c p k found : Nat) : State :=
  let bit (f : Fld) (i : Nat) : Fld := ⟨f.lo + i, 1⟩
  let s := s.setFld .fpc_CL_STATUS [c] (bit f_fpc_CL_STATUS_failed_phys p) 1
  let s := s.setFld .fpc_CL_STATUS [c] (bit f_fpc_CL_STATUS_present k) 0
  let s := s.setFld .fpc_CL_STATUS [c] f_fpc_CL_STATUS_cores_usable
    (s.fld .fpc_CL_STATUS [c] f_fpc_CL_STATUS_cores_usable - 1)
  let s := s.when (p == 16) fun s =>
    (s.setFlag .fpc_CL_STATUS [c] f_fpc_CL_STATUS_spare_used false).setFld .fpc_CL_STATUS [c] f_fpc_CL_STATUS_spare_for 0
  let s := (s.coreRecord c p 2).coreEvent c p k found
  let dropped := ((List.range 8).filter fun i => (s.th c (k * 8 + i)).pkt.isSome).length
  let s := s.each ((List.range 8).map (k * 8 + ·)) fun s t =>
    if (s.th c t).state = 0 then s else s.abortThread c t 6 0
  let s := s.when (decide (0 < dropped)) fun s =>
    { s with fpc := { s.fpc with coreDrops := SMap.modify 0 s.fpc.coreDrops c (· + dropped) } }.stepEnd 8
  if s.fld .fpc_CL_STATUS [c] f_fpc_CL_STATUS_cores_usable < 12 then
    let (s, e) := s.lcRequest (clusterLc c) false false
    (s.setFlag .fpc_CL_STATUS [c] f_fpc_CL_STATUS_retired true).clusterEdge c e
  else s

/-- An uncorrectable error in a thread's scratch (4) or in its core's register file (5) stops the core (R120, R121).
DEDUCED, log entry 29. -/
def State.coreError (s : State) (c t mem : Nat) : State :=
  let s := s.addSat .fpc_ERR_STATUS [c] f_fpc_ERR_STATUS_ue_count 1
  let s := s.setFld .fpc_ERR_STATUS [c] f_fpc_ERR_STATUS_last_ue_mem mem
  s.coreFail c (s.physicalOf c (t / 8)) (t / 8) 3

/-- A corrected error in a cluster memory, or a parity error of a cache, is counted (R120, R121). -/
def State.ceCount (s : State) (c : Nat) (shared : Bool) : State :=
  s.addSat .fpc_ERR_STATUS [c] (if shared then f_fpc_ERR_STATUS_ce_shared else f_fpc_ERR_STATUS_ce_other) 1

end Sys2Proof.Machine
end

