-- ==== Sys2Proof/Machine/KExec.lean ====
section
/-! DEFINITION. What one Kryx instruction does when a thread issues it (chapter 4, R129 to R151). -/

namespace Sys2Proof.Machine

/-- How an instruction leaves its thread (R86, R87, R135): it completes, with a jump or not; it meets a long
stall on an object and issues again later; it raises an exception; it meets an uncorrectable error in a
cluster memory, 2 shared, 3 channel or 4 scratch; it yields; or its thread's packet or program is over. -/
inductive KOut
  | next (s : State) (jump : Option Nat)
  | stall (s : State) (kind obj line : Nat)
  | raise (code : Nat)
  | memErr (s : State) (mem : Nat)
  | yield'
  | over (s : State)

/-! ### The core-local address map (R129, R130) -/

/-- The region and offset of an access. -/
inductive Place
  | scratch (o : Nat) | key (o : Nat) | prepend (o : Nat) | slot (cl o : Nat) | shared (o : Nat) | window (o : Nat)
  | nowhere
  deriving DecidableEq, Repr

/-- Where an access of `n` bytes at address `a` by a thread of cluster `c` lies, wholly (R129). -/
def place (c a n : Nat) : Place :=
  let within (lo size : Nat) : Bool := decide (lo ≤ a) && decide (a + n ≤ lo + size)
  if within 0 0x200 then .scratch a
  else if within 0x1000 0x80 then .key (a - 0x1000)
  else if within 0x1100 0x80 then .prepend (a - 0x1100)
  else if within 0x40000 0x20000 then .slot c (a - 0x40000)
  else if within 0x100000 0x100000 then .shared (a - 0x100000)
  else if within 0x1000000 0x400000 then .slot ((a - 0x1000000) / 0x20000) ((a - 0x1000000) % 0x20000)
  else if within 0x200000000 0x200000000 then .window (a - 0x200000000)
  else .nowhere

/-- Bytes of a size field (R136). -/
def sizeBytes (size : BitVec 2) : Nat := 2 ^ size.toNat

/-- A loaded value of `n` bytes, sign-extended or not. -/
def extend (n : Nat) (sx : Bool) (v : Nat) : Word :=
  if sx && decide (2 ^ (8 * n - 1) ≤ v) then BitVec.ofNat 64 (v + 2 ^ 64 - 2 ^ (8 * n)) else BitVec.ofNat 64 v

/-- Shared memory of a cluster (R68). -/
def State.sharedBytes (s : State) (c o n : Nat) : List Byte := s.fpc.shared.readBytes (c * 2 ^ 20 + o) n
def State.sharedBad (s : State) (c o : Nat) : Bool := SMap.get false s.fpc.badShared (c * 2 ^ 17 + o / 8)
def State.setSharedBad (s : State) (c o : Nat) (b : Bool) : State :=
  { s with fpc := { s.fpc with badShared := SMap.put false s.fpc.badShared (c * 2 ^ 17 + o / 8) b } }

/-- A store to shared memory; a word written has good check bits again (R120). -/
def State.sharedWrite (s : State) (c o : Nat) (bs : List Byte) : State :=
  { s with fpc := { s.fpc with shared := s.fpc.shared.writeBytes (c * 2 ^ 20 + o) bs } }.setSharedBad c o false

/-- Whether the HBM channel of a byte of the program-data window serves it (R410). -/
def State.windowOk (s : State) (o : Nat) : Bool := s.regionOk 5 o

/-- A cached line of a cluster, and the line replaced (R70). -/
def State.cachedLine (s : State) (c line : Nat) : Option (List Byte) := SMap.find? s.fpc.dcache (c * 2 ^ 27 + line)

/-- A cached line of a cluster is invalidated (R131). -/
def State.dropLine (s : State) (c line : Nat) : State :=
  { s with fpc := { s.fpc with dcache := SMap.erase s.fpc.dcache (c * 2 ^ 27 + line) } }

/-- A store to the program-data window updates HBM and the issuing cluster's cached line (R70, R131); on a frozen
channel HBM takes nothing (R427). DESIGN CHOICE, log entry 27. -/
def State.windowWrite (s : State) (c o : Nat) (bs : List Byte) : State :=
  let s := s.when (s.windowOk o) fun s => { s with fpc := { s.fpc with pdata := s.fpc.pdata.writeBytes o bs } }
  match s.cachedLine c (o / 64) with
  | some l =>
    let l' := (List.range bs.length).foldl (fun l i => setAt l (o % 64 + i) (bs.getD i 0)) l
    { s with fpc := { s.fpc with dcache := SMap.insert s.fpc.dcache (c * 2 ^ 27 + o / 64) l' } }
  | none => s

/-! ### Reservations (R91, R92, R113) -/

/-- Uncommitted reservations a thread holds. -/
def Thread.live (th : Thread) : List Reservation := th.resv.filter fun r => !r.released && !r.committed

/-- A thread's reservation of a slot: a live one first. -/
def Thread.resvOf (th : Thread) (cl ch i : Nat) : Option Reservation :=
  let is (r : Reservation) : Bool := r.cluster == cl && r.chan == ch && r.slot == i
  match th.live.find? is with
  | some r => some r
  | none => th.resv.find? is

/-- A byte stored at an offset of a cluster's channel memory by a thread: `none` where the thread holds no
reservation of its slot; a released or committed slot discards it (R92, R113). DESIGN CHOICE, log entry 25. -/
def State.slotStore (s : State) (th : Thread) (cl o : Nat) (b : Byte) : Option State :=
  match th.resvOf cl (o / 2048) (o % 2048 / 64) with
  | some r =>
    if r.released || r.committed then some s
    else some { s with fpc := { s.fpc with chanMem := s.fpc.chanMem.write (cl * 131072 + o) b } }
  | none => none

/-- Whether a channel or flag may be used (R96): enabled, and for a remote one fed by the issuing cluster. -/
def attrOk (attr : Word) (isRemote : Bool) (src : Nat) : Bool :=
  f_fpc_CHAN_CFG_enable.get attr == 1 &&
    (!isRemote || (f_fpc_CHAN_CFG_ext_kind.get attr == 3 && f_fpc_CHAN_CFG_src_cluster.get attr == src))
def State.chanOk (s : State) (c cl ch : Nat) (rmt : Bool) : Bool := attrOk (s.rd .fpc_CHAN_CFG [cl, ch]) rmt c

/-- Whether flag `f` may be used: a number above 31 names no flag, and raises CHAN_ATTR as a flag without its attribute does
(R96, R142). DESIGN CHOICE, log entry 77. -/
def State.evtOk (s : State) (c cl f : Nat) (rmt : Bool) : Bool :=
  decide (f < 32) && attrOk (s.rd .fpc_EVT_CFG [cl, f]) rmt c

/-! ### Lookups (R144, R145, R164) -/

/-- An l register. -/
def Thread.lreg (th : Thread) (i : Nat) : LReg := SMap.get {} th.l i
def Thread.setL (th : Thread) (i : Nat) (r : LReg) : Thread := { th with l := SMap.put {} th.l i r }

/-- LKP (R144, R164). DESIGN CHOICE, log entry 25. -/
def State.lkp (s : State) (c t l table : Nat) (ks : Bool) (koff : Nat) (err : CoreErr) : KOut :=
  let th := s.th c t
  let r := th.lreg l
  match s.tableKeyLen table with
  | none => .raise 8
  | some len =>
    let start := if ks then koff else 4 * koff
    if (if ks then 128 else 512) < start + len then .raise 8
    else if r.issued && !r.waited then .raise 9
    else if !ks && err == .memBad then .memErr s 4
    else
      let s := s.when (!ks && err == .memFixed) (·.ceCount c false)
      let key := if ks then kbRange th.kb start len else th.scratch.readBytes start len
      let seq := match th.pkt with | some p => p.seq | none => s.fpc.seqNext
      let old := match th.pkt with
        | some p => (s.parked p.seq).find? fun (x : Lookup) => x.table == table && x.key == key
        | none => none
      match old with
      | some x =>
        let s := (s.rauCount 1 1).count1 c 15
        match x.result with
        | some v =>
          let s := { s with fpc := { s.fpc with lookups := s.fpc.lookups.filter (·.id != x.id) } }
          let s := match x.buf with | some b => s.bufShow b | none => s
          .next (s.modTh c t (·.setL l { issued := true, result := some v, way := x.way })) none
        | none =>
          let bind (y : Lookup) : Lookup := if y.id = x.id then { y with dest := some (c, t, l) } else y
          let s := { s with fpc := { s.fpc with lookups := s.fpc.lookups.map bind } }
          .next (s.modTh c t (·.setL l { issued := true })) none
      | none =>
        let (hash, shift) := match th.pkt with
          | some p => s.selection p table
          | none => (0, 0)
        let x : Lookup :=
          { id := s.fpc.nextLookup, rau := false, slot := 0xFF, seq, table, key, dest := some (c, t, l),
            trace := match th.pkt with | some p => p.trace | none => 0
            hash, shift }
        let s := { s with fpc := { s.fpc with lookups := s.fpc.lookups ++ [x], nextLookup := x.id + 1 } }
        .next (s.modTh c t (·.setL l { issued := true })) none

/-- LKW (R145): the first completed wait consumes the lookup, whose entry is stamped at commit (R147). While a thread waits,
wait_obj and the LONG_WAIT data show the number of the l register (R106, R115). DESIGN CHOICE, log entry 77. -/
def State.lkw (s : State) (c t l : Nat) : KOut :=
  let th := s.th c t
  let r := th.lreg l
  if !r.issued then .raise 10
  else match r.result with
    | none => .stall (s.count1 c 7) 1 l 0
    | some v =>
      let stamps := if r.waited then th.stamps else match v.hit with
        | some h => th.stamps ++ [h]
        | none => th.stamps
      .next (s.modTh c t fun th => { th.setL l { r with waited := true } with stamps }) none

/-! ### Loads, stores and atomics (R130, R131, R140) -/

/-- The address of a load or store. -/
def memAddr (a : Word) (off : BitVec 12) : Nat := (a + off.signExtend 64).toNat

/-- LD (R140, R131), with what its read of scratch, shared memory or the data cache meets (R120): a parity error of the
cached line is a miss (R68). DESIGN CHOICE, log entry 25. -/
def State.load (s : State) (c t : Nat) (rd : BitVec 5) (a n : Nat) (sx : Bool) (err : CoreErr) : KOut :=
  let th := s.th c t
  let put (s : State) (v : Nat) : KOut := .next (s.modTh c t (·.setG rd (extend n sx v))) none
  let miss (s : State) (o : Nat) : KOut := .stall (s.count1 c 8) 2 0 (o / 64)
  match place c a n with
  | .scratch o =>
    if err = .memBad then .memErr s 4
    else put (s.when (err == .memFixed) (·.ceCount c false)) (leNat (th.scratch.readBytes o n))
  | .key o => put s (leNat (kbRange th.kb o n))
  | .prepend o => if s.isResident c t then .raise 13 else put s (leNat (th.prepend.readBytes o n))
  | .shared o =>
    if o % n ≠ 0 then .raise 3
    else if err = .memBad ∨ s.sharedBad c o then .memErr (s.setSharedBad c o true) 2
    else put (s.when (err == .memFixed) (·.ceCount c true)) (leNat (s.sharedBytes c o n))
  | .window o =>
    if o % n ≠ 0 then .raise 3
    else match s.cachedLine c (o / 64) with
      | some l =>
        if err = .memFixed ∨ err = .memBad then miss ((s.dropLine c (o / 64)).ceCount c false) o
        else put s (leNat ((l.drop (o % 64)).take n))
      | none => miss s o
  | _ => .raise 2

/-- ST (R140, R92, R131). A store in the remote channel window may run into the next cluster's channels (R130). DESIGN CHOICE, log entry 25. -/
def State.store (s : State) (c t : Nat) (v : Word) (a n : Nat) : KOut :=
  let th := s.th c t
  let bs := natLE n v.toNat
  match place c a n with
  | .scratch o => .next (s.modTh c t fun th => { th with scratch := th.scratch.writeBytes o bs }) none
  | .prepend o =>
    if s.isResident c t then .raise 13
    else .next (s.modTh c t fun th => { th with prepend := th.prepend.writeBytes o bs }) none
  | .slot cl o =>
    let s' := (List.range n).foldl (fun (acc : Option State) i =>
      match acc with
      | some s => s.slotStore th (cl + (o + i) / 0x20000) ((o + i) % 0x20000) (bs.getD i 0)
      | none => none) (some s)
    match s' with
    | some s => .next s none
    | none => .raise 6
  | .shared o => if o % n ≠ 0 then .raise 3 else .next (s.sharedWrite c o bs) none
  | .window o => if o % n ≠ 0 then .raise 3 else .next (s.windowWrite c o bs) none
  | _ => .raise 2

/-- An atomic on a shared-memory word (R69, R140). DESIGN CHOICE, log entry 25. -/
def State.atomic (s : State) (c t : Nat) (fn : AmoFn) (rd : BitVec 5) (a : Nat) (b : Word) (err : CoreErr) :
    KOut :=
  match place c a 8 with
  | .shared o =>
    if o % 8 ≠ 0 then .raise 3
    else if err = .memBad ∨ s.sharedBad c o then .memErr (s.setSharedBad c o true) 2
    else
      let s := s.when (err == .memFixed) (·.ceCount c true)
      let old := BitVec.ofNat 64 (leNat (s.sharedBytes c o 8))
      let new := fn.eval old b ((s.th c t).gr rd)
      .next ((s.sharedWrite c o (natLE 8 new.toNat)).modTh c t (·.setG rd old)) none
  | _ => .raise 2

/-- DMA (R141). DESIGN CHOICE, log entry 25. The 10 bits of rc name 1 to 1,023 blocks, so 1,024 cannot be asked for.
DESIGN CHOICE, log entry 77. -/
def State.dmaStart (s : State) (c t : Nat) (a b r : Word) : KOut :=
  let blocks := bitsOf r.toNat 0 10
  let obj := bitsOf r.toNat 10 6
  let isFlag := bitOf r.toNat 16
  let n := 64 * blocks
  let ends (x y : Place) : Bool := match x, y with
    | .shared _, .window _ | .window _, .shared _ => true
    | _, _ => false
  let attr := if isFlag then s.rd .fpc_EVT_CFG [c, obj % 32] else s.rd .fpc_CHAN_CFG [c, obj]
  if blocks = 0 then .raise 0
  else if !ends (place c a.toNat n) (place c b.toNat n) then .raise 2
  else if a.toNat % 64 ≠ 0 ∨ b.toNat % 64 ≠ 0 then .raise 3
  else if (isFlag && decide (32 ≤ obj)) || !attrOk attr false c || f_fpc_CHAN_CFG_ext_kind.get attr != 2 then .raise 7
  else if 4 ≤ (s.fpc.dmas.filter fun d => d.cluster == c && d.thread == t).length then .raise 15
  else
    let job : DmaJob := { cluster := c, thread := t, src := a.toNat, dst := b.toNat, blocks, isFlag, obj }
    .next ({ s with fpc := { s.fpc with dmas := s.fpc.dmas ++ [job] } }.stir c) none

/-! ### Channels and flags (R91 to R96, R142) -/

/-- The core-local address of a slot (R129). -/
def slotAddr (cl ch i : Nat) (rmt : Bool) : Nat :=
  (if rmt then 0x1000000 + cl * 0x20000 else 0x40000) + 0x800 * ch + 0x40 * i

/-- PASS.RES (R91). DESIGN CHOICE, log entry 25; DEDUCED, log entry 26. -/
def State.passRes (s : State) (c t : Nat) (rd : BitVec 5) (ch : Nat) (rmt : Bool) (cl' : Nat) : KOut :=
  let th := s.th c t
  let cl := if rmt then cl' else c
  if !s.chanOk c cl ch rmt then .raise 7
  else if 4 ≤ th.live.length then .raise 5
  else if (if th.ready then s.chanUsed cl ch else s.chanUsed cl ch + s.awarded 4 ch cl) ≥ 32 then .stall s 4 ch cl
  else
    let (i, s) := s.reserveSlot cl ch
    .next (s.modTh c t fun th => { th.setG rd (BitVec.ofNat 64 (slotAddr cl ch i rmt)) with
      resv := th.resv ++ [{ cluster := cl, chan := ch, slot := i }] }) none

/-- PASS.COMMIT (R92, R113): a remote one takes effect later (R142). One of a released slot ends the reservation, so a
later store there raises SLOT_ACCESS. DESIGN CHOICE, log entry 25. -/
def State.passCommit (s : State) (c t : Nat) (a : Nat) : KOut :=
  let th := s.th c t
  match place c a 64 with
  | .slot cl o =>
    if o % 64 ≠ 0 then .raise 6
    else
      let ch := o / 2048
      let i := o % 2048 / 64
      match th.resvOf cl ch i with
      | none => .raise 6
      | some r =>
        if r.committed then .raise 6
        else if r.released then .next (s.modTh c t fun th => { th with resv := th.resv.erase r }) none
        else if !s.chanOk c cl ch (decide (0x1000000 ≤ a)) then .raise 7
        else
          let mark (x : Reservation) : Reservation := if x = r then { x with committed := true } else x
          let s := s.modTh c t fun th => { th with resv := th.resv.map mark }
          if cl = c then .next (s.commitSlot cl ch i) none
          else .next { s with fpc := { s.fpc with remote := s.fpc.remote ++ [.commit c cl ch i] } } none
  | _ => .raise 6

/-- PASS.RECV (R93), with what its read of the slot meets (R120).
DEDUCED, log entries 26, 30. -/
def State.passRecv (s : State) (c t ch soff : Nat) (rmt : Bool) (err : CoreErr) : KOut :=
  let th := s.th c t
  if rmt || !s.chanOk c c ch false then .raise 7
  else if !th.ready && s.awarded 3 ch c != 0 then .stall s 3 ch c
  else
    let s := s.skipVoids c ch 32
    if 0 < s.chanUsed c ch ∧ s.slotState c ch (s.chanHead c ch) = 2 then
      let bytes := s.fpc.chanMem.readBytes (slotMem c ch (s.chanHead c ch)) 64
      let s := s.modTh c t fun th => { th with ready := false }
      let s := (s.freeHead c ch).wakeReader c ch
      if err = .memBad then .memErr s 3
      else .next ((s.when (err == .memFixed) (·.ceCount c false)).modTh c t fun th => { th with scratch := th.scratch.writeBytes (64 * soff) bytes }) none
    else .stall s 3 ch c

/-- SIGNAL (R95, R142). -/
def State.signal (s : State) (c f : Nat) (rmt : Bool) (cl : Nat) : KOut :=
  if !s.evtOk c (if rmt then cl else c) f rmt then .raise 7
  else if rmt then .next { s with fpc := { s.fpc with remote := s.fpc.remote ++ [.signal c cl f] } } none
  else .next (s.signalFlag c f) none

/-- WAIT (R95, R142). DEDUCED, log entry 30. -/
def State.waitFlag (s : State) (c t f : Nat) (rmt : Bool) : KOut :=
  if rmt || !s.evtOk c c f false then .raise 7
  else if (s.th c t).ready then .next s none
  else if s.evtSet c f then .next (s.setEvt c f false) none
  else .stall s 5 f c

/-! ### Deferred updates, commit and disposition (R146 to R151) -/

/-- An entry of the deferred buffer (R146). -/
def State.defer (s : State) (c t : Nat) (d : Deferred) : KOut :=
  if 32 ≤ (s.th c t).deferred.length then .raise 11
  else .next (s.modTh c t fun th => { th with deferred := th.deferred ++ [d] }) none

/-- Policer charges among deferred entries, in issue order. -/
def chargesOf (l : List Deferred) : List (Nat × Nat) :=
  l.filterMap fun d => match d with
    | .charge p n => some (p, n)
    | _ => none

/-- A commit begins (R147). -/
def State.beginCommit (s : State) (k : Commit) : State := { s with fpc := { s.fpc with commits := s.fpc.commits ++ [k] } }

/-- A resident thread's commit begins (R146, R147, R346). -/
def State.residentCommit (s : State) (c t : Nat) : State :=
  let th := s.th c t
  let s := s.beginCommit
    { seq := none, kind := 3, ts := s.pwr.time, entries := th.deferred, charges := chargesOf th.deferred,
      stamps := th.stamps }
  s.modTh c t fun th => { th with deferred := [], stamps := [] }

/-- The output packet of an EMIT or PUNT (R151), or none for EDIT_BAD. DEDUCED, log entry 28. -/
def Thread.output (th : Thread) (p : Pkt) : Option (List Byte) :=
  let m32 := (th.meta' 32).toNat
  let strip := bitsOf m32 0 9
  let pre := bitsOf m32 16 8
  let hdrEnd := bitsOf (th.meta' 33).toNat 0 9
  if 128 < pre ∨ 384 < hdrEnd ∨ hdrEnd < strip then none
  else some (th.prepend.readBytes (128 - pre) pre ++ th.hdr.readBytes strip (hdrEnd - strip) ++ p.bytes.drop 384)

/-- A disposition retires (R150): untaken lookups are squashed, its commit begins, and its thread becomes IDLE.
`kind` is 0 EMIT, 1 DROP, 2 PUNT. A dropped packet's position is vacated. -/
def State.retire (s : State) (c t : Nat) (p : Pkt) (kind detail target : Nat) (out : Option AdmPkt)
    (punt : Option (Punt × Nat)) : State :=
  let th := s.th c t
  let s := ((s.squashAll p.seq).squashTaken c t false).traceWay p.trace 0x06 0
    ([BitVec.ofNat 8 kind, BitVec.ofNat 8 detail] ++ natLE 3 target)
  let s := (s.count1 c 11).beginCommit
    { seq := some p.seq, kind, mac := p.mac, ts := p.ts, entries := th.deferred, charges := chargesOf th.deferred,
      stamps := th.stamps, mirrors := th.mirrors, out, punt, domain := p.domain, trace := p.trace }
  let s := s.when (kind == 1) fun s => (s.outcome p.seq 1 0 0 th.mirrors.length).vacate p.seq
  s.endThread c t

/-- EMIT (R150, R151). -/
def State.emitPkt (s : State) (c t : Nat) (a : Word) : KOut :=
  let th := s.th c t
  match th.pkt with
  | none => .raise 13
  | some p =>
    match th.output p with
    | none => .raise 14
    | some b =>
      let voq := bitsOf a.toNat 0 19
      let out : AdmPkt :=
        { seq := p.seq, fid := p.fid, inMac := p.mac, ts := p.ts, bytes := padTo (max 60 b.length) b, queue := voq,
          dp := min 2 (bitsOf a.toNat 20 2), trace := p.trace, tagged := p.trace != 0 }
      .over (s.retire c t p 0 0 voq (some out) none)

/-- DROP (R150). -/
def State.dropPkt (s : State) (c t : Nat) (reason : BitVec 8) : KOut :=
  match (s.th c t).pkt with
  | none => .raise 13
  | some p => .over (s.retire c t p 1 reason.toNat 0 none none)

/-- PUNT (R150, R151): the policer is charged at commit. DEDUCED, log entry 28. -/
def State.puntPkt (s : State) (c t : Nat) (a : Word) : KOut :=
  let th := s.th c t
  match th.pkt with
  | none => .raise 13
  | some p =>
    match th.output p with
    | none => .raise 14
    | some b =>
      let ring := bitsOf a.toNat 0 10
      let prog := (List.range 8).map fun i => th.meta' (48 + i)
      .over (s.retire c t p 2 0 ring none (some (p.punt ring 1 b prog, bitsOf a.toNat 16 12)))

/-- MIRROR (R150): the copy is padded to 60 bytes as an output is. DEDUCED, log entry 28. -/
def State.mirrorPkt (s : State) (c t : Nat) (a : Word) : KOut :=
  let th := s.th c t
  match th.pkt with
  | none => .raise 13
  | some p =>
    if 4 ≤ th.mirrors.length then .raise 12
    else
      let n := bitsOf a.toNat 24 6
      let b := if n = 0 then p.bytes else p.bytes.take (64 * n)
      let out : AdmPkt :=
        { seq := p.seq, fid := p.fid, inMac := p.mac, ts := p.ts, bytes := padTo (max 60 b.length) b,
          queue := bitsOf a.toNat 0 19, dp := min 2 (bitsOf a.toNat 20 2) }
      .next (s.modTh c t fun th => { th with mirrors := th.mirrors ++ [out] }) none

/-- The counter a SCORE names, from the latest completed sweep (R143, R573). -/
def State.score (s : State) (a : Word) : Word :=
  let g := a.toNat / 8
  if g < 321 ∧ s.flag .skp_PERM [g] f_skp_PERM_score then
    BitVec.ofNat 64 ((SMap.get 0 s.cnt.sweepPage a.toNat).toNat % 2 ^ 48)
  else 0xFFFFFFFFFFFFFFFF

/-! ### One instruction -/

/-- What an instruction does for thread `t` of cluster `c`; `err` says what its read of a cluster memory meets. -/
def State.kexec (s : State) (c t : Nat) (err : CoreErr) (i : KInstr) : KOut :=
  let th := s.th c t
  let res := s.isResident c t
  let put (rd : BitVec 5) (v : Word) : KOut := .next (s.modTh c t (·.setG rd v)) none
  match i with
  | .alu fn rd ra rb => put rd (fn.eval (th.gr ra) (th.gr rb))
  | .imm fn rd ra v => put rd (fn.eval (th.gr ra) v)
  | .shi kind rd ra amt => put rd (shiEval kind (th.gr ra) amt)
  | .lui rd v => put rd (v.zeroExtend 64 <<< 16)
  | .field fn rd ra pos wm1 =>
    if 63 < pos.toNat + wm1.toNat then .raise 0
    else put rd (fn.eval (th.gr rd) (th.gr ra) pos.toNat (wm1.toNat + 1))
  | .bcc cond ra rb _ off =>
    if cond.holds (th.gr ra) (th.gr rb) rb then
      .next s (some ((BitVec.ofNat 17 th.pc + off.signExtend 17).toNat))
    else .next s none
  | .j target => .next s (some target.toNat)
  | .jal target => .next (s.modTh c t (·.setG 31 (BitVec.ofNat 64 (th.pc + 1)))) (some target.toNat)
  | .jr ra => .next s (some ((th.gr ra).toNat % 131072))
  | .hld rd ra off size sx =>
    let a := (th.gr ra).toNat % 512 + off.toNat
    let n := sizeBytes size
    if res then .raise 13
    else if 384 < a + n then .raise 1
    else put rd (extend n sx (beNat (th.hdr.readBytes a n)))
  | .hst rd ra off size =>
    let a := (th.gr ra).toNat % 512 + off.toNat
    let n := sizeBytes size
    if res then .raise 13
    else if 384 < a + n then .raise 1
    else .next (s.modTh c t fun th => { th with hdr := th.hdr.writeBytes a (natBE n (th.gr rd).toNat) }) none
  | .movmg rd idx => if res then .raise 13 else put rd ((th.meta' idx.toNat).zeroExtend 64)
  | .movgm rd idx =>
    let v := (th.gr rd).setWidth 32
    let set (v : BitVec 32) : KOut :=
      .next (s.modTh c t fun th => { th with m := SMap.put 0 th.m idx.toNat v }) none
    if res then .raise 13
    else if idx = 32 then set (v &&& 0x00FF01FF)
    else if idx = 33 then set (v &&& 0x000001FF)
    else if 48 ≤ idx.toNat then set v
    else .raise 4
  | .lread rd hi l =>
    let r := th.lreg l.toNat
    if !r.waited then .raise 10
    else match r.result with
      | some v => put rd (BitVec.ofNat 64 ((v.status * 2 ^ 120 + v.data % 2 ^ 120) / (if hi then 2 ^ 64 else 1)))
      | none => .raise 10
  | .ld rd ra off size sx => s.load c t rd (memAddr (th.gr ra) off) (sizeBytes size) sx err
  | .st rd ra off size => s.store c t (th.gr rd) (memAddr (th.gr ra) off) (sizeBytes size)
  | .amo fn rd ra rb => s.atomic c t fn rd (th.gr ra).toNat (th.gr rb) err
  | .fence => .next s none
  | .cinv ra =>
    match place c (th.gr ra).toNat 1 with
    | .window o => .next (s.dropLine c (o / 64)) none
    | _ => .raise 2
  | .dma ra rb rc => s.dmaStart c t (th.gr ra) (th.gr rb) (th.gr rc)
  | .lkp l table ks koff => s.lkp c t l.toNat table.toNat ks koff.toNat err
  | .lkw l => s.lkw c t l.toNat
  | .passRes rd obj rmt cl => s.passRes c t rd obj.toNat rmt cl.toNat
  | .passCommit rd => s.passCommit c t (th.gr rd).toNat
  | .passRecv obj soff rmt => s.passRecv c t obj.toNat soff.toNat rmt err
  | .signal obj rmt cl => s.signal c obj.toNat rmt cl.toNat
  | .wait obj rmt => s.waitFlag c t obj.toNat rmt
  | .nop => .next s none
  | .yield' => .yield'
  | .halt =>
    if !res then .raise 13 else .over ((s.residentCommit c t).endThread c t)
  | .rnd rd =>
    let g := splitMixNext th.gen
    .next (s.modTh c t fun th => { th.setG rd (splitMixMix g) with gen := g }) none
  | .score rd ra => put rd (s.score (th.gr ra))
  | .cntAdd ra rb =>
    let n := (th.gr ra).toNat % 2 ^ 28
    if s.counterCount ≤ n then .raise 8 else s.defer c t (.count n 1 ((th.gr rb).toNat % 2 ^ 32))
  | .cntAddn ra rb rc =>
    let n := (th.gr ra).toNat % 2 ^ 28
    if s.counterCount ≤ n then .raise 8
    else s.defer c t (.count n ((th.gr rb).toNat % 2 ^ 16) ((th.gr rc).toNat % 2 ^ 32))
  | .polChg ra rb =>
    if !s.flag .tm_hmc_CARVE [] f_tm_hmc_CARVE_pol_en then .raise 8
    else s.defer c t (.charge ((th.gr ra).toNat % 2 ^ 20) ((th.gr rb).toNat % 2 ^ 32))
  | .lrn ra =>
    let o := (th.gr ra).toNat % 512
    if 512 < o + 32 then .raise 2
    else if err = .memBad then .memErr s 4
    else (s.when (err == .memFixed) (·.ceCount c false)).defer c t (.learn (th.scratch.readBytes o 32))
  | .dcmt => if !res then .raise 13 else .next (s.residentCommit c t) none
  | .emit ra => s.emitPkt c t (th.gr ra)
  | .drop imm8 => s.dropPkt c t imm8
  | .punt ra => s.puntPkt c t (th.gr ra)
  | .mirror ra => s.mirrorPkt c t (th.gr ra)

/-- A thread's instruction has completed: its pc moves on. DESIGN CHOICE, log entry 23. -/
def State.advance (s : State) (c t : Nat) (jump : Option Nat) : State :=
  s.modTh c t fun th =>
    { th with pc := (jump.getD (th.pc + 1)) % 131072, ready := false, waitKind := 0, waitObj := 0, waitLine := 0 }

/-- The fetch of a thread's next word meets an uncorrectable error, now or before the word was rewritten (R120). -/
def State.fetchFails (s : State) (c t : Nat) (err : CoreErr) : Bool :=
  err == .fetchBad || SMap.get false s.fpc.badIsram (c * 131072 + (s.th c t).pc)

/-- Such a fetch drops the thread's packet, and the word keeps its error until it is rewritten (R120). -/
def State.fetchError (s : State) (c t : Nat) : State :=
  let bad := SMap.put false s.fpc.badIsram (c * 131072 + (s.th c t).pc) true
  { s with fpc := { s.fpc with badIsram := bad } }.memError c t 1

/-- A word that is no instruction reaches IS (R137); what its fetch met is counted (R120). -/
def State.illegal (s : State) (c t : Nat) (err : CoreErr) : State :=
  if s.fetchFails c t err then s.fetchError c t
  else (s.when (err == .fetchFixed || err == .icache) (·.ceCount c false)).exception c t 0

/-- An instruction of a thread has completed: a thread that the debugger stepped halts again (R111). -/
def State.complete (s : State) (c t : Nat) : State :=
  let s := s.count1 c 4
  if (s.th c t).stepping then
    let s := s.modTh c t fun th => { th with state := 4, under := 1, stepping := false, waitSince := s.cycle }
    s.coreSwitch c (t / 8)
  else s

/-- A thread that is RUNNING issues an instruction (R85 to R87, R120, R135). DESIGN CHOICE, log entry 23. -/
def State.runInstr (s : State) (c t : Nat) (err : CoreErr) (i : KInstr) : State :=
  if s.fetchFails c t err then s.fetchError c t
  else if err = .regBad then s.coreError c t 5
  else
    let s := s.when (err == .fetchFixed || err == .icache || err == .regFixed) (·.ceCount c false)
    match s.kexec c t err i with
    | .next s jump => (s.advance c t jump).complete c t
    | .stall s kind obj line =>
      let s := s.modTh c t fun th =>
        { th with state := 3, waitKind := kind, waitObj := obj, waitLine := line, waitSince := s.cycle,
                  longSeen := false, ready := false }
      (s.stir c).coreSwitch c (t / 8)
    | .raise code => s.exception c t code
    | .memErr s mem => if mem = 4 then s.coreError c t 4 else s.memError c t mem
    | .yield' =>
      let s := (s.advance c t none).modTh c t fun th => { th with state := 1 }
      ((s.complete c t).stir c).coreSwitch c (t / 8)
    | .over s => s.count1 c 4

/-- The command that thread `t` of cluster `c` issues an instruction: it has an effect where that thread runs.
DESIGN CHOICE, log entry 23. -/
def State.issue (s : State) (c : Fin 32) (t : Fin 128) (err : CoreErr) (i : KInstr) : Res :=
  if (s.th c t).state = 2 then go (s.runInstr c t err i) else go s

end Sys2Proof.Machine
end

