-- ==== Sys2Proof/Machine/Commit.lean ====
section
/-! DEFINITION. Commit: policer charges, learn events and what a completed commit makes real (R147 to R149, R211,
R341). -/

namespace Sys2Proof.Machine

/-! ### Policer charges (R341) -/

/-- The first commit of which a condition holds, with the ones before and after it. -/
def splitCommit (f : Commit → Bool) : List Commit → Option (List Commit × Commit × List Commit)
  | [] => none
  | k :: l =>
    if f k then some ([], k, l)
    else match splitCommit f l with
      | some (a, x, b) => some (k :: a, x, b)
      | none => none

/-- POLICER_CHARGE (R341, R149): the next charge of the oldest commit that has one reaches the POL block, over the
die-to-die link: one that finds the link FAILED waits (R15, R18). DESIGN CHOICE, log entry 16. -/
def execPolicerCharge (s : State) : Res :=
  if s.d2dHealth = 2 then go s
  else match splitCommit (fun k => !k.charges.isEmpty) s.fpc.commits with
  | some (before, k, after) =>
    match k.charges with
    | (n, bytes) :: rest =>
      let (colour, redDrop, s) := s.dataCharge n bytes k.ts
      let k := { k with charges := rest, colour := max k.colour colour, red := k.red || redDrop }
      go { s with fpc := { s.fpc with commits := before ++ k :: after } }
    | [] => go s
  | none => go s

/-! ### Learning (R211 to R213, R458) -/

/-- Learned entries a MAC owns at packet `q`'s sequence position. -/
def State.learnedAt (s : State) (q m : Nat) : Nat :=
  (s.tab.cells.filter fun e => match e.2.at q with
    | some x => x.owner == m + 1
    | none => false).length

/-- Whether a MAC is at its limit (R211). -/
def State.atLimit (s : State) (q m : Nat) : Bool :=
  let limit := s.fldAt q .exm_LEARN_PORT [m] f_exm_LEARN_PORT_limit
  limit != 0xFFFFF && decide (limit ≤ s.learnedAt q m)

/-- Whether a number names a valid exact-match table: some directory entry is of that table. -/
def State.exmValid (s : State) (i : Nat) : Bool :=
  decide (i < 64) && s.flag .exm_TBL_CFG [i] f_exm_TBL_CFG_valid && (List.range 256).any fun t =>
    s.flag .rau_TBL_DIR [t] f_rau_TBL_DIR_valid && s.fld .rau_TBL_DIR [t] f_rau_TBL_DIR_kind == 2 &&
      s.fld .rau_TBL_DIR [t] f_rau_TBL_DIR_inst == i

/-- A learn event is posted to the learn ring, and forwarded by an in-step source (R213, R458).
DEDUCED, log entry 28. -/
def State.learnPost (s : State) (q mac : Nat) (ts : Word) (r : List Byte) : State :=
  let e := padTo 64 (r.take 17 ++ [0] ++ natLE 2 mac ++ (r.drop 20).take 8 ++ natLE 4 (s.learnedAt q mac) ++
    natLE 8 q ++ natLE 8 ts.toNat)
  let s := if s.ringRoom 32 then s.addSat .exm_LEARN_STATUS [] f_exm_LEARN_STATUS_events 1
    else s.addSat .exm_LEARN_STATUS [] f_exm_LEARN_STATUS_ring_drops 1
  let s := s.ringPut 32 e
  s.when s.isSource (·.rallyPut 5 0 (toWords e))

/-- One LRN entry at commit (R211): the state after it, and whether it met the port's limit. -/
def State.learnOne (s : State) (q mac : Nat) (ts : Word) (r : List Byte) : State × Bool :=
  if !s.exmValid (leAt r 16 1) then (s.addSat .exm_LEARN_STATUS [] f_exm_LEARN_STATUS_bad_table 1, false)
  else if s.atLimit q mac then (s, true)
  else if s.isFollower then (s, false)
  else
    let (ok, s) := s.excCharge (s.fldAt q .exm_LEARN_PORT [mac] f_exm_LEARN_PORT_policer) ts
    if ok then (s.learnPost q mac ts r, false)
    else (s.addSat .exm_LEARN_CNT [mac] f_exm_LEARN_CNT_policed 1, false)

/-- The learn entries of a commit in issue order. DESIGN CHOICE, log entry 32. -/
def State.learnAll (s : State) (q mac : Nat) (ts : Word) (l : List Deferred) : State × Bool :=
  l.foldl (fun (acc : State × Bool) d =>
    match d with
    | .learn r => let (s, b) := acc.1.learnOne q mac ts r; (s, acc.2 || b)
    | _ => acc) (s, false)

/-! ### Completion (R147, R148) -/

/-- An earlier unskipped position of an entry's domain is outstanding. -/
def State.domainBusyBefore (s : State) (e : OrdEntry) : Bool :=
  match s.fpc.order.find? fun x => x.domain == e.domain && !x.skipped with
  | some x => x.seq != e.seq
  | none => false

/-- A packet's position has committed and holds what its release sends on. -/
def State.orderDone (s : State) (q : Nat) (outs : List AdmPkt) (punt : Option Punt) : State :=
  s.modOrder q fun e => { e with done := true, outs, punt, held := s.domainBusyBefore e }

/-- A packet dropped at commit: its copies go on, and its position is vacated. -/
def State.commitDrop (s : State) (q : Nat) (k : Commit) : State := (s.admitOut k.mirrors).vacate q

/-- The disposition of a packet whose commit is complete (R80, R150, R211, R342). DEDUCED, log entry 19. -/
def State.commitDisposition (s : State) (q : Nat) (k : Commit) (excess : Bool) : State :=
  let copies := k.mirrors.length
  if excess && k.kind != 1 then
    let s := (s.outcome q 7 0 0 copies).traceWay k.trace 0x06 0 [8]
    s.commitDrop q k
  else match k.kind with
    | 0 =>
      match k.out with
      | some a =>
        let a := { a with dp := max a.dp k.colour, red := k.red }
        (s.outcome q 0 a.queue a.bytes.length copies).orderDone q (k.mirrors ++ [a]) none
      | none => s
    | 2 =>
      match k.punt with
      | some (p, pol) =>
        let s := s.outcome q 2 p.ring p.bytes.length copies
        let (ok, s) := s.excCharge pol k.ts
        if ok then s.orderDone q k.mirrors (some p) else s.commitDrop q k
      | none => s
    | _ => s.admitOut k.mirrors

/-- Whether a packet whose entries met the port's limit is dropped (excess DROP), counted once (R211). -/
def State.excessCount (s : State) (q mac : Nat) : State × Bool :=
  if s.fldAt q .exm_LEARN_PORT [mac] f_exm_LEARN_PORT_excess = 0 then
    (s.addSat .exm_LEARN_CNT [mac] f_exm_LEARN_CNT_excess_drops 1, true)
  else (s.addSat .exm_LEARN_CNT [mac] f_exm_LEARN_CNT_excess_floods 1, false)

/-- A commit whose charges are answered is complete (R147, R198, R208, R211). A resident thread's LRN entries have
no ingress MAC, which is a free value. DESIGN CHOICE, log entry 32. -/
def State.completeCommit (s : State) (k : Commit) : State :=
  let q := match k.seq with | some n => n | none => s.fpc.seqNext
  let (free, s) := if k.seq.isSome then (0, s) else s.free
  let mac := if k.seq.isSome then k.mac else free.toNat % 256
  let s := s.each k.entries fun s d => match d with
    | .count n p b => s.counterAdd n p b
    | _ => s
  let s := s.each k.stamps fun s h => s.stampHit q h
  let s := s.traceWay k.trace 0x07 0 [BitVec.ofNat 8 k.entries.length, BitVec.ofNat 8 k.mirrors.length]
  let (s, limited) := s.learnAll q mac k.ts k.entries
  match k.seq with
  | none => s
  | some _ =>
    let (s, excess) := if limited && k.kind != 1 then s.excessCount q mac else (s, false)
    s.commitDisposition q k excess

/-- COMMIT_COMPLETE (R147): the oldest commit whose charges are all answered completes. -/
def execCommitComplete (s : State) : Res :=
  match splitCommit (fun k => k.charges.isEmpty) s.fpc.commits with
  | some (before, k, after) =>
    go ({ s with fpc := { s.fpc with commits := before ++ after } }.completeCommit k)
  | none => go s

end Sys2Proof.Machine
end

