-- ==== Sys2Proof/Machine/Cluster.lean ====
section
/-! DEFINITION. Dispatch, the clusters' units and lifecycle, the dead-ball detector and the debugger (chapter 3, R26,
R72 to R75, R86, R89, R101 to R121). -/

namespace Sys2Proof.Machine

/-! ### Dispatch (R72 to R75) -/

/-- The dispatcher's tick feeds the channels and flags of its kind (R96). DEDUCED, log entry 20. -/
def State.dispatchTick (s : State) (c : Nat) : State :=
  let n := SMap.get 0 s.fpc.dispatched c + 1
  let s := { s with fpc := { s.fpc with dispatched := SMap.put 0 s.fpc.dispatched c n } }
  let due (attr : Word) : Bool :=
    f_fpc_CHAN_CFG_enable.get attr == 1 && f_fpc_CHAN_CFG_ext_kind.get attr == 1 &&
      n % 2 ^ (f_fpc_CHAN_CFG_tick_log2.get attr + 6) == 0
  let s := s.each ((List.range 64).filter fun ch => due (s.rd .fpc_CHAN_CFG [c, ch])) fun s ch =>
    (s.feedChannel c ch (natLE 8 n)).getD s
  s.each ((List.range 32).filter fun f => due (s.rd .fpc_EVT_CFG [c, f])) fun s f => s.signalFlag c f

/-- Entries of a cluster's parked-result buffer are allocated for a packet's lookups (R163). -/
def State.parkAt (s : State) (c seq : Nat) : State :=
  (s.each (s.parked seq) fun s l =>
    if s.bufUsed c < 64 then
      let put (y : Lookup) : Lookup := if y.id = l.id then { y with buf := some c } else y
      { s with fpc := { s.fpc with lookups := s.fpc.lookups.map put } }
    else (s.addSat .rau_BUF_STATUS [c] f_rau_BUF_STATUS_overflow 1).squash l).bufShow c

/-- A thread starts on a packet (R71, R75, R122). -/
def State.startPacket (s : State) (c t : Nat) (p : Pkt) : State :=
  let entry := match s.program c with | some g => g.entry.val | none => 0
  let seed := s.rd .dsp_RNG_SEED []
  let s := (s.modTh c t fun _ => packetThread seed entry p).count1 c 10
  let s := s.traceWay p.trace 0x05 0 [BitVec.ofNat 8 c, BitVec.ofNat 8 (t / 8), BitVec.ofNat 8 t]
  s.becomeReady c t

/-- A packet enters the cluster chosen for it. -/
def State.enterCluster (s : State) (c : Nat) (p : Pkt) : State :=
  let s := ((s.parkAt c p.seq).dispatchTick c).stir c
  match s.chooseThread c with
  | some t => if (s.queueOf c).isEmpty then s.startPacket c t p else s.setQueue c (s.queueOf c ++ [p])
  | none => s.setQueue c (s.queueOf c ++ [p])

/-- DISPATCH (R72 to R75): the packet that waits first from a parser pipe is dispatched; it is held while no cluster
can be chosen, or while the chosen one's input queue of 64 is full. DEDUCED, log entry 20. -/
def execDispatch (pipe : Fin 16) (s : State) : Res :=
  match SMap.get [] s.fpc.dispq pipe.val with
  | [] => go s
  | p :: rest =>
    match s.chooseCluster p.seq p.hDisp with
    | none => go (s.count1 48 7)
    | some (c, ovr) =>
      if s.clusterFull c then go s
      else
        let s := { s with fpc := { s.fpc with dispq := SMap.put [] s.fpc.dispq pipe.val rest } }
        let s := s.when ovr fun s => (s.addSat .dsp_DISP_STATUS [] f_dsp_DISP_STATUS_overrides 1).count1 48 6
        go (s.enterCluster c p)

/-- INPUT_QUEUE_DISPATCH (R74): the packet that waits first in a cluster's input queue goes to an IDLE packet
thread. -/
def execInputQueueDispatch (c : Fin 32) (s : State) : Res :=
  match s.queueOf c, s.chooseThread c with
  | p :: rest, some t => go ((s.setQueue c rest).startPacket c t p)
  | _, _ => go s

/-! ### Data cache, DMA and remote operations (R70, R96, R141, R142) -/

/-- DCACHE_LINE_FILL (R86): a line that threads of the cluster wait for arrives. Lines map to 512 sets of 8 ways; in
a full set the line of way `way` is replaced. A line on a frozen channel holds free values (R427).
DESIGN CHOICE, log entry 27. -/
def execDcacheLineFill (c : Fin 32) (line : BitVec 27) (way : Fin 8) (s : State) : Res :=
  let n := line.toNat
  let waiting := (List.range 128).filter fun t =>
    let th := s.th c t
    th.eff == 3 && th.waitKind == 2 && th.waitLine == n
  if waiting.isEmpty then go s
  else
    let base := c.val * 2 ^ 27
    let inSet := (s.fpc.dcache.filter fun e => e.1 / 2 ^ 27 == c.val && e.1 % 512 == n % 512).map (·.1)
    let dcache := if 8 ≤ inSet.length then SMap.erase s.fpc.dcache (inSet.getD way.val 0) else s.fpc.dcache
    let (bytes, s) := if s.windowOk (64 * n) then (s.fpc.pdata.readBytes (64 * n) 64, s)
      else (List.range 8).foldl (fun (acc : List Byte × State) _ =>
        let (v, s) := acc.2.free
        (acc.1 ++ natLE 8 v.toNat, s)) ([], s)
    let s := { s with fpc := { s.fpc with dcache := SMap.insert dcache (base + n) bytes } }
    go (s.each waiting fun s t => s.wake c t)

/-- The bytes of one end of a DMA, and whether they can be reached (R141). -/
def State.dmaRead (s : State) (c a n : Nat) : List Byte :=
  match place c a n with
  | .shared o => s.sharedBytes c o n
  | .window o => s.fpc.pdata.readBytes o n
  | _ => []
def State.dmaReach (s : State) (c a n : Nat) : Bool :=
  match place c a n with
  | .window o => (List.range (n / 64)).all fun k => s.windowOk (o + 64 * k)
  | _ => true
def State.dmaWrite (s : State) (c a : Nat) (bs : List Byte) : State :=
  match place c a bs.length with
  | .shared o =>
    let s := { s with fpc := { s.fpc with shared := s.fpc.shared.writeBytes (c * 2 ^ 20 + o) bs } }
    let words (e : Nat × Bool) : Bool :=
      !(decide (c * 2 ^ 17 + o / 8 ≤ e.1) && decide (e.1 < c * 2 ^ 17 + (o + bs.length) / 8))
    { s with fpc := { s.fpc with badShared := s.fpc.badShared.filter words } }
  | .window o => { s with fpc := { s.fpc with pdata := s.fpc.pdata.writeBytes o bs } }
  | _ => s

/-- A finished DMA commits its record or signals its flag; it waits while the channel is full (R96, R141).
DESIGN CHOICE, log entry 27. -/
def State.dmaReport (s : State) (before after : List DmaJob) (d : DmaJob) (status : Nat) : State :=
  let gone := { s with fpc := { s.fpc with dmas := before ++ after } }
  if d.isFlag then (gone.stir d.cluster).signalFlag d.cluster d.obj
  else
    let record := natLE 8 d.src ++ natLE 8 d.dst ++ natLE 2 d.blocks ++ natLE 1 status
    match (gone.stir d.cluster).feedChannel d.cluster d.obj record with
    | some s => s
    | none => { s with fpc := { s.fpc with dmas := before ++ { d with finished := some status } :: after } }

/-- REMOTE_OP_ARRIVE (R142): the oldest remote operation takes effect at its target cluster. -/
def execRemoteOpArrive (s : State) : Res :=
  match s.fpc.remote with
  | [] => go s
  | o :: rest =>
    let s := { s with fpc := { s.fpc with remote := rest } }
    match o with
    | .commit src cl ch i => go (((s.stir src).stir cl).commitSlot cl ch i)
    | .signal src cl f => go (((s.stir src).stir cl).signalFlag cl f)

/-! ### The roster (R89) -/

/-- A ROSTER write reads back at once (R9) and takes effect at the core's next switch, at once where the core
runs no thread, or is refused. DESIGN CHOICE, log entry 21. -/
def State.rosterWrite (s : State) (c k : Nat) (w : Word) (a : Access) : State :=
  let stranded := (List.range 8).any fun i =>
    let t := k * 8 + i
    ((s.th c t).state != 0 || s.isResident c t) && !onRoster w i
  if stranded then (s.setFlag .fpc_ERR_STATUS [c] f_fpc_ERR_STATUS_roster_refused true).accessError 4 a
  else
    let old := s.roster c k
    ({ s with fpc := { s.fpc with rosterOld := SMap.put none s.fpc.rosterOld (c * 16 + k) (some old) } }.wr
      .fpc_ROSTER [c, k] w).coreSwitch c k

/-- ROSTER_WRITE (R89). DESIGN CHOICE, log entry 21. -/
def execRosterWrite (c : Fin 32) (k : Fin 16) (w : Word) (s : State) : Res :=
  go (s.rosterWrite c k w (regAccess .fpc_ROSTER [c.val, k.val]))

/-! ### The dead-ball detector and the long-wait watch (R101 to R106) -/

/-- The threads of a cluster that are not IDLE. DEDUCED, log entry 31. -/
def State.busyThreads (s : State) (c : Nat) : List Nat := (List.range 128).filter fun t => (s.th c t).state != 0

/-- A thread waits on a channel or flag of the cluster's own threads alone (R101, R102). -/
def State.localWait (s : State) (th : Thread) : Bool :=
  let attr := if th.waitKind = 5 then s.rd .fpc_EVT_CFG [th.waitLine, th.waitObj]
    else s.rd .fpc_CHAN_CFG [th.waitLine, th.waitObj]
  let k := f_fpc_CHAN_CFG_ext_kind.get attr
  th.state == 3 && (th.waitKind == 3 || th.waitKind == 4 || th.waitKind == 5) && (k == 0 || decide (3 < k))

/-- The dead-ball condition of a cluster (R101); a cluster without a thread at work has none (DEDUCED, log entry
31). -/
def State.deadBall (s : State) (c : Nat) : Bool :=
  let l := s.busyThreads c
  let lineOut (th : Thread) : Bool := th.state == 4 && th.under == 3 && th.waitKind == 2
  !l.isEmpty && (l.all fun t => (s.th c t).state == 4 || s.localWait (s.th c t)) && (s.queueOf c).isEmpty &&
    (l.all fun t => !lineOut (s.th c t)) &&
    (s.fpc.lookups.all fun x => x.result.isSome || x.squashed ||
      !(x.buf == some c || (match x.dest with | some (d, _, _) => d == c | none => false))) &&
    (s.fpc.dmas.all fun d => d.cluster != c) &&
    s.fpc.remote.all fun o => match o with
      | .commit src cl _ _ => src != c && cl != c
      | .signal src cl _ => src != c && cl != c

/-- A hold of a dead ball ends, and the cluster is dispatched to again (R104, R116). -/
def State.dbEnd (s : State) (c : Nat) : State :=
  { s with fpc := { s.fpc with dbHeld := SMap.put false s.fpc.dbHeld c false } }.setFlag
    .fpc_CL_STATUS [c] f_fpc_CL_STATUS_steered false

/-- The window starts anew where the condition failed before a change or fails after it (R101, R103).
DEDUCED, log entry 31. -/
def State.settle (s old : State) (c : Nat) : State := if old.deadBall c && s.deadBall c then s else s.stir c

/-- The auto-abort steps (R104). -/
def State.deadBallAbort (s : State) (c : Nat) : State :=
  let waiting := (List.range 128).filter fun t => (s.th c t).state == 3
  let s := s.each waiting fun s t =>
    match (s.th c t).pkt with
    | some p =>
      (((s.squashTaken c t true).dropPacket p 4 0).addSat .fpc_DB_STATUS [c] f_fpc_DB_STATUS_aborted_packets 1).endThread c t
    | none => ((s.voidAll c t).discardLookups c t).startResident c t
  s.dbEnd c

/-- A bit map of threads `64 i` to `64 i + 63` of a list. -/
def threadBits (l : List Nat) (i : Nat) : Word :=
  l.foldl (fun w t => if t / 64 = i then w ||| (1 <<< (t % 64)) else w) 0

/-- The detector fires (R104, R105). -/
def State.deadBallFire (s : State) (c : Nat) : State :=
  let l := s.busyThreads c
  let s := (s.wr .fpc_DB_THREADS [c, 0] (threadBits l 0)).wr .fpc_DB_THREADS [c, 1] (threadBits l 1)
  let s := s.addSat .fpc_DB_STATUS [c] f_fpc_DB_STATUS_fires 1
  let s := s.postEvent 0x001 (natLE 1 c ++ natLE 8 (threadBits l 0).toNat ++ natLE 8 (threadBits l 1).toNat)
  let s := (s.setFlag .fpc_CL_STATUS [c] f_fpc_CL_STATUS_steered true).stepEnd 5
  if s.flag .fpc_DB_CFG [c] f_fpc_DB_CFG_hold then
    { s with fpc := { s.fpc with dbHeld := SMap.put false s.fpc.dbHeld c true } }
  else s.deadBallAbort c

/-- A dead ball of a cluster is held (R104). -/
def State.isHeld (s : State) (c : Nat) : Bool := SMap.get false s.fpc.dbHeld c

/-- DEAD_BALL (R101 to R105): the condition has held for the window; with a halted thread it is reported as a
halted dependency once. -/
def execDeadBall (c : Fin 32) (s : State) : Res :=
  let window := max 256 (s.fld .fpc_DB_CFG [c] f_fpc_DB_CFG_window)
  if s.flag .fpc_DB_CFG [c] f_fpc_DB_CFG_enable && decide (2 ≤ s.lc (clusterLc c)) && !s.isHeld c && s.deadBall c &&
      s.passed (SMap.get 0 s.fpc.quiet c.val) window then
    if (s.busyThreads c).any fun t => (s.th c t).state == 4 then
      if SMap.get false s.fpc.depSeen c.val then go s
      else
        let s := { s with fpc := { s.fpc with depSeen := SMap.put false s.fpc.depSeen c.val true } }
        go ((s.addSat .fpc_DB_STATUS [c] f_fpc_DB_STATUS_halted_deps 1).postEvent 0x002 (natLE 1 c))
    else go (s.deadBallFire c)
  else go s

/-- A write of 1 to db_resume (R118). -/
def State.dbResume (s : State) (c : Nat) : State := if s.isHeld c then s.deadBallAbort c else s

/-- DB_RESUME (R118). -/
def execDbResume (c : Fin 32) (s : State) : Res := go (s.dbResume c)

/-- The wait_kind a reader shows (R113, R115): halted_dep where the head slot is RESERVED by a HALTED thread. -/
def State.waitKindShown (s : State) (c t : Nat) : Nat :=
  let th := s.th c t
  if th.waitKind = 3 ∧ s.slotState c th.waitObj (s.chanHead c th.waitObj) = 1 ∧
      s.fpc.threads.any fun e => e.2.state == 4 && e.2.live.any fun r =>
        r.cluster == c && r.chan == th.waitObj && r.slot == s.chanHead c th.waitObj then 6
  else th.waitKind

/-- LONG_WAIT (R106). -/
def execLongWait (c : Fin 32) (t : Fin 128) (s : State) : Res :=
  let th := s.th c t
  let thr := s.fld .fpc_WATCH_CFG [c] f_fpc_WATCH_CFG_threshold
  if th.state = 3 ∧ thr ≠ 0 ∧ !th.longSeen ∧ s.passed th.waitSince (thr * 1024 + 1) then
    let s := s.modTh c t fun th => { th with longSeen := true }
    let s := s.addSat .fpc_WATCH_CFG [c] f_fpc_WATCH_CFG_long_waits 1
    go (s.postEvent 0x003 (natLE 1 c ++ natLE 1 t ++ natLE 1 (s.waitKindShown c t) ++ natLE 1 th.waitObj))
  else go s

/-! ### The debugger (R111 to R114) -/

/-- HALT (R111, R112). DEDUCED, log entry 29. A waiting thread keeps the cycle at which its wait began, so the time it
spends HALTED counts toward the long-wait threshold once it waits again (R106). DESIGN CHOICE, log entry 77. -/
def State.dbgHalt (s : State) (c t : Nat) : State :=
  let th := s.th c t
  if th.state = 4 then s
  else
    let under := if th.state = 2 then 1 else th.state
    let since := if th.state = 3 then th.waitSince else s.cycle
    let old := s
    let s := s.modTh c t fun th => { th with state := 4, under, waitSince := since, stepping := false }
    ((s.settle old c).coreSwitch c (t / 8)).stepEnd 6

/-- DBG_HALT (R111, R112). -/
def execDbgHalt (c : Fin 32) (t : Fin 128) (s : State) : Res := go (s.dbgHalt c t)

/-- RESUME (R111). -/
def State.dbgResume (s : State) (c t : Nat) : State :=
  let th := s.th c t
  if th.state = 4 then
    ((s.modTh c t fun th => { th with state := th.under, under := 0 }).settle s c).coreSwitch c (t / 8)
  else s

/-- DBG_RESUME (R111). -/
def execDbgResume (c : Fin 32) (t : Fin 128) (s : State) : Res := go (s.dbgResume c t)

/-- The word a thread would issue next (R116). DESIGN CHOICE, log entry 23. -/
def State.nextWord (s : State) (c t : Nat) : BitVec 32 := SMap.get 0 s.fpc.isram (c * 131072 + (s.th c t).pc)

/-- STEP (R111, R137): a halted thread that would be READY issues the instruction at its pc, fetched from instruction
SRAM; one that would be in WAIT goes on waiting. It halts again when its instruction completes; one that was IDLE, and one
that its instruction ends, is IDLE and not halted. DESIGN CHOICE, log entry 23. -/
def State.dbgStep (s : State) (c t : Nat) (err : CoreErr) : State :=
  let th := s.th c t
  if th.state ≠ 4 then s
  else if th.under = 1 then
    let w := s.nextWord c t
    let old := s
    let s := s.modTh c t fun th => { th with state := 2, under := 0, stepping := true }
    let s := match decodeKryx w with
      | some i => s.runInstr c t err i
      | none => s.illegal c t err
    s.settle old c
  else (s.modTh c t fun th => { th with state := th.under, under := 0, stepping := true }).settle s c

/-- DBG_STEP (R111). -/
def execDbgStep (c : Fin 32) (t : Fin 128) (err : CoreErr) (s : State) : Res := go (s.dbgStep c t err)

/-- RELEASE_SLOT (R113). -/
def State.releaseSlot (s : State) (c ch i : Nat) : State :=
  if s.slotState c ch i = 1 then
    let free (r : Reservation) : Reservation :=
      if r.cluster = c ∧ r.chan = ch ∧ r.slot = i ∧ !r.committed then { r with released := true } else r
    let one (e : Nat × Thread) : Nat × Thread :=
      if e.2.resv.isEmpty then e else (e.1, { e.2 with resv := e.2.resv.map free })
    ({ s with fpc := { s.fpc with threads := s.fpc.threads.map one } }.voidSlot c ch i).settle s c
  else s

/-- RELEASE_SLOT (R113). -/
def execReleaseSlot (c : Fin 32) (ch : Fin 64) (i : Fin 32) (s : State) : Res := go (s.releaseSlot c ch i)

/-! ### The cluster lifecycle (R116, R117, R26) -/

/-- The domain that holds a cluster (R611). -/
def clusterDomain (c : Nat) : Nat := 2 + c / 4

/-- ON or OFF is requested of a cluster (R116, R117, R622); a retired cluster ignores it. -/
def State.clusterRequest (s : State) (c : Nat) (on : Bool) : State :=
  if s.flag .fpc_CL_STATUS [c] f_fpc_CL_STATUS_retired then s
  else
    let s := s.setFlag .fpc_CL_CTRL [c] f_fpc_CL_CTRL_enable on
    let s := s.when on (·.pdWanted (clusterDomain c))
    let (s, e) := s.lcRequest (clusterLc c) on (s.pdOn (clusterDomain c))
    s.clusterEdge c e

/-- The cycle of rest of a cluster ends (R117, R620). -/
def State.clusterRest (s : State) (c : Nat) : State :=
  let (s, e) := s.lcRest (clusterLc c) (s.pdOn (clusterDomain c))
  s.clusterEdge c e

/-- CLUSTER_ENABLE (R116): a direct write, which on an in-step pair ends in-step operation (R460). -/
def execClusterEnable (c : Fin 32) (on : Bool) (s : State) : Res := go ((s.stepEnd 3).clusterRequest c on)

/-- The next cluster of a management restart's reload is stopped and started (R532). -/
def State.reloadFrom (s : State) : List Nat → State
  | [] => { s with mgmt := { s.mgmt with reload := [] } }
  | c :: rest =>
    if s.lc (clusterLc c) = 2 then
      ({ s with mgmt := { s.mgmt with reload := c :: rest } }.clusterRequest c false).clusterRequest c true
    else s.reloadFrom rest

/-- Entries of a table outside a range of keys. -/
def SMap.outside {α : Type} (m : SMap α) (lo n : Nat) : SMap α :=
  m.filter fun e => decide (e.1 < lo) || decide (lo + n ≤ e.1)

/-- Values listed from a key upward, the default left out. -/
def putList {α : Type} [DecidableEq α] (d : α) (m : SMap α) (k : Nat) : List α → SMap α
  | [] => m
  | v :: l => putList d (SMap.put d m k v) (k + 1) l

/-- The memories of a cluster as its start leaves them (R116): the program image, everything else zero.
DESIGN CHOICE, log entry 9. -/
def State.loadCluster (s : State) (c : Nat) : State :=
  let g := s.program c
  let words := match g with | some g => g.words | none => []
  let bytes := match g with | some g => g.shared | none => []
  let cfg (l : List Word) (i : Nat) : Word := l.getD i 0
  let s := { s with fpc := { s.fpc with
    isram := putList 0 (s.fpc.isram.outside (c * 131072) 131072) (c * 131072) words
    shared := Memory.writeBytes (SMap.outside s.fpc.shared (c * 2 ^ 20) (2 ^ 20)) (c * 2 ^ 20) bytes
    badShared := SMap.outside s.fpc.badShared (c * 2 ^ 17) (2 ^ 17)
    badIsram := SMap.outside s.fpc.badIsram (c * 2 ^ 17) (2 ^ 17)
    chanMem := SMap.outside s.fpc.chanMem (c * 131072) 131072
    dcache := SMap.outside s.fpc.dcache (c * 2 ^ 27) (2 ^ 27)
    threads := SMap.outside s.fpc.threads (c * 128) 128
    cur := SMap.outside s.fpc.cur (c * 16) 16
    rosterOld := SMap.outside s.fpc.rosterOld (c * 16) 16
    dbHeld := SMap.put false s.fpc.dbHeld c false } }
  let s := s.each (List.range 64) fun s ch =>
    let s := s.wr .fpc_CHAN_CFG [c, ch] (cfg (match g with | some g => g.chanCfg | none => []) ch)
    let s := s.wr .fpc_CHAN_SLOTS [c, ch] 0
    let s := s.setFld .fpc_CHAN_STATUS [c, ch] f_fpc_CHAN_STATUS_head 0
    let s := s.setFld .fpc_CHAN_STATUS [c, ch] f_fpc_CHAN_STATUS_tail 0
    s.setFld .fpc_CHAN_STATUS [c, ch] f_fpc_CHAN_STATUS_occupied 0
  let s := s.each (List.range 32) fun s f =>
    s.wr .fpc_EVT_CFG [c, f] (cfg (match g with | some g => g.evtCfg | none => []) f)
  let s := s.setFld .fpc_EVT_STATUS [c] f_fpc_EVT_STATUS_set 0
  let s := s.wr .fpc_RESIDENT [c, 0] (match g with | some g => g.resident0 | none => 0)
  let s := s.wr .fpc_RESIDENT [c, 1] (match g with | some g => g.resident1 | none => 0)
  s.setFlag .fpc_CL_STATUS [c] f_fpc_CL_STATUS_steered false

/-- The core map of a cluster at its start (R26, R119): the spare serves the lowest failed index.
DEDUCED, log entry 29. -/
def State.coreMap (s : State) (c : Nat) : State :=
  let bad := s.badCores c
  let failed := bad.filter (· < 16)
  let spare := if bad.contains 16 then none else failed.head?
  let present := (List.range 16).foldl
    (fun v k => if bad.contains k && spare != some k then v else v + 2 ^ k) 0
  let s := s.setFld .fpc_CL_STATUS [c] f_fpc_CL_STATUS_failed_phys (bad.foldl (fun v p => v + 2 ^ p) 0)
  let s := s.setFld .fpc_CL_STATUS [c] f_fpc_CL_STATUS_cores_usable (17 - bad.length)
  let s := s.setFlag .fpc_CL_STATUS [c] f_fpc_CL_STATUS_spare_used spare.isSome
  let s := s.setFld .fpc_CL_STATUS [c] f_fpc_CL_STATUS_spare_for (spare.getD 0)
  s.setFld .fpc_CL_STATUS [c] f_fpc_CL_STATUS_present present

/-- CLUSTER_START_DONE (R116, R26, R541): `failed` names the physical cores whose self-test failed, which are retired. A
cluster with fewer
than 12 usable cores is retired. -/
def execClusterStartDone (c : Fin 32) (failed : List (Fin 17)) (s : State) : Res :=
  if s.lc (clusterLc c) ≠ 1 then go s
  else
    let new := (failed.map (·.val)).filter fun p => !(s.badCores c).contains p
    let s := s.each new fun s p =>
      (s.retireCore c p 0).coreEvent c p (if p < 16 then p else 255) 3
    let s := s.coreMap c
    if 5 < (s.badCores c).length then
      let s := s.setFlag .fpc_CL_STATUS [c] f_fpc_CL_STATUS_retired true
      go ((s.lcStartFail (clusterLc c)).clusterEvent c)
    else
      let s := s.loadCluster c
      let s := s.each ((List.range 128).filter fun t => s.isResident c t && s.corePresent c (t / 8)) fun s t =>
        s.startResident c t
      let s := (s.lcStartDone (clusterLc c)).clusterEvent c
      match s.mgmt.reload with
      | d :: rest => if d = c.val then go (s.reloadFrom rest) else go s
      | [] => go s

/-- CLUSTER_DRAIN_LIMIT (R116): after drain_limit µs every packet a stopping cluster still holds is dropped. -/
def execClusterDrainLimit (c : Fin 32) (s : State) : Res :=
  let limit := max 1 (s.fld .fpc_CL_CTRL [c] f_fpc_CL_CTRL_drain_limit)
  if s.lc (clusterLc c) = 3 ∧ s.passed (SMap.get 0 s.fpc.stopSince c.val) (limit * cyclesPerUs) then
    let held := (List.range 128).filter fun t => (s.th c t).pkt.isSome
    let queue := s.queueOf c
    let any := !held.isEmpty || !queue.isEmpty
    let s := s.setQueue c []
    let s := s.dbEnd c
    let s := s.each held fun s t => s.abortThread c t 5 0
    let s := s.each queue fun s p => s.dropPacket p 5 0
    go (s.when any (·.stepEnd 8))
  else go s

/-- CLUSTER_STOP_DONE (R116): with no packet left, resident threads stop, outstanding responses are discarded and the
cluster is OFF. DEDUCED, log entry 29. -/
def execClusterStopDone (c : Fin 32) (s : State) : Res :=
  if s.lc (clusterLc c) = 3 ∧ (s.queueOf c).isEmpty ∧ ((List.range 128).all fun t => (s.th c t).pkt.isNone) then
    let s := s.each (s.busyThreads c) fun s t => s.discardLookups c t
    let s := { s with fpc := { s.fpc with
      threads := SMap.outside s.fpc.threads (c.val * 128) 128
      dmas := s.fpc.dmas.filter fun d => d.cluster != c.val } }
    go (((s.dbEnd c).lcStopDone (clusterLc c)).clusterEvent c)
  else go s

/-- CORE_FAIL (R26): a running core stops. DEDUCED, log entry 29. -/
def execCoreFail (c : Fin 32) (p : Fin 17) (s : State) : Res :=
  match s.logicalOf c p with
  | none => go s
  | some k => if s.lc (clusterLc c) < 2 then go s else go (s.coreFail c p k 4)

end Sys2Proof.Machine
end

