-- ==== Sys2Proof/Machine/QueueOps.lean ====
section
/-! DEFINITION. Queues, the cell buffer and watermarks: the operations that admission, spilling, scheduling and
the fabric share (chapter 8, R281 to R307). -/

namespace Sys2Proof.Machine

/-! ### A queue and its configuration (R285, R300) -/

def State.q (s : State) (q : Nat) : Queue := SMap.get {} s.tm.queues q
def State.modQ (s : State) (q : Nat) (f : Queue → Queue) : State :=
  { s with tm := { s.tm with queues := SMap.modify {} s.tm.queues q f } }

/-- Queues below 524,288 are VOQs (R285). -/
def isVoq (q : Nat) : Bool := decide (q < 524288)

/-- The configuration an admission of packet `seq` uses (R300): for a VOQ packet numbered below S the earlier one. -/
def Queue.cfgAt (x : Queue) (voq : Bool) (seq : Nat) : Nat :=
  match x.cfgOld with
  | some (at', old) => if voq && decide (seq < at') then old else x.cfg
  | none => x.cfg

def qcPool (c : Nat) : Nat := bitsOf c 1 4
def qcGroup (c : Nat) : Nat := bitsOf c 5 12
def qcMinCells (c : Nat) : Nat := bitsOf c 20 20
def qcMaxDepth (c : Nat) : Nat := bitsOf c 40 20
def qcYellow (c : Nat) : Nat := bitsOf c 60 4
def qcRed (c : Nat) : Nat := bitsOf c 64 4
def qcSpill (c : Nat) : Nat := bitsOf c 68 8
def qcProfile (c : Nat) : Nat := bitsOf c 76 8
def qcWredEn (c : Nat) : Bool := bitOf c 84
def qcWredW (c : Nat) : Nat := bitsOf c 85 4

/-- Cells of a stored length (R282). -/
def cellsOf (len : Nat) : Nat := (len + 255) / 256

/-- M, W and R of R292: blocks whose writes and all earlier ones have completed, writes pending, reads pending. -/
def Queue.pendingReads (x : Queue) : Nat := (x.blocks.filter fun b => 2 ≤ b.stage).length
def Queue.middle (x : Queue) : Nat := ((x.blocks.filter fun b => b.stage < 2).takeWhile (·.stage == 1)).length
def Queue.pendingWrites (x : Queue) : Nat := x.blocks.length - x.pendingReads - x.middle

/-- On-die cells of a queue: head, tail, cells being written and cells taken for pending reads (R293, R297).
DEDUCED, log entry 42. -/
def Queue.ondie (x : Queue) : Nat :=
  x.head.length + x.tail.length +
    ((x.blocks.filter fun b => b.stage != 1 && b.stage != 4).map (·.cells.length)).foldl (· + ·) 0

/-- Sums over the queues of a group, or of a pool (R297, R305). -/
def State.sumQ (s : State) (sel : Queue → Bool) (f : Queue → Nat) : Nat :=
  ((s.tm.queues.filter fun e => sel e.2).map fun e => f e.2).foldl (· + ·) 0
def State.groupLevel (s : State) (g : Nat) : Nat :=
  s.sumQ (fun x => qcGroup x.cfg == g) fun x => x.ondie + 16 * x.middle
def State.poolCells (s : State) (p : Nat) : Nat := s.sumQ (fun x => qcPool x.cfg == p) Queue.ondie

/-- On-die cells that the pool's queues hold beyond their guarantees (R297, R314). DEDUCED, log entry 42. -/
def State.poolUsed (s : State) (p : Nat) : Nat :=
  s.sumQ (fun x => qcPool x.cfg == p) fun x => x.ondie - qcMinCells x.cfg

/-! ### Watermarks (R305 to R307) -/

/-- A watermark's level is evaluated at the end of a cycle (R307). DEDUCED, log entry 42. -/
def State.wmSet (s : State) (w level : Nat) : State :=
  let old := s.fld .qmg_WM_PEAK [w] f_qmg_WM_PEAK_level
  let peak := s.fld .qmg_WM_PEAK [w] f_qmg_WM_PEAK_peak
  if level = old ∧ level ≤ peak then s
  else
    let s := s.setFld .qmg_WM_PEAK [w] f_qmg_WM_PEAK_level level
    let s := s.setFld .qmg_WM_PEAK [w] f_qmg_WM_PEAK_peak (max level peak)
    let hi := s.fld .qmg_WM_CFG [w] f_qmg_WM_CFG_high
    let lo := s.fld .qmg_WM_CFG [w] f_qmg_WM_CFG_low
    let cross (s : State) (flag count : Fld) (mark : Nat) : State :=
      let was := s.flag .qmg_WM_STATUS [w] flag
      let s := (s.setFlag .qmg_WM_STATUS [w] flag true).addSat .qmg_WM_STATUS [w] count 1
      if was then s else s.postEvent 0x010 (natLE 2 w ++ natLE 1 mark ++ natLE 4 level)
    let s := s.when (s.flag .qmg_WM_CFG [w] f_qmg_WM_CFG_hi_en && decide (hi ≤ level ∧ old < hi))
      fun s => cross s f_qmg_WM_STATUS_hi_flag f_qmg_WM_STATUS_hi_count 0
    s.when (s.flag .qmg_WM_CFG [w] f_qmg_WM_CFG_lo_en && decide (level ≤ lo ∧ lo < old))
      fun s => cross s f_qmg_WM_STATUS_lo_flag f_qmg_WM_STATUS_lo_count 1

/-- Free on-die cells (R281, R309). -/
def State.freeCells (s : State) : Nat := s.fld .qmg_STATUS [] f_qmg_STATUS_free_cells

/-- Blocks in the write queue of a stack, and blocks read that wait to enter a head (R306, key FIFOs 0 to 7). -/
def State.blockWrites (s : State) (stack : Nat) : Nat :=
  s.sumQ (fun _ => true) fun x => (x.blocks.filter fun b => b.stage == 0 && b.chan / 32 == stack).length
def State.blockReturns (s : State) (stack : Nat) : Nat :=
  s.sumQ (fun _ => true) fun x => (x.blocks.filter fun b => b.stage == 3 && b.chan / 32 == stack).length

/-- Entries of key FIFO `k` (R306): what the model holds of each crossing, none of what leaves in the cycle in which it
comes. DESIGN CHOICE, log entry 79. -/
def State.fifoLevel (s : State) (k : Nat) : Nat :=
  let lanes (f : Nat → Bool) : List (Nat × Lane) := s.tm.lanes.filter fun e => f e.1
  let sent (f : Nat → Bool) : Nat := ((lanes f).map fun e => e.2.tx.length).foldl (· + ·) 0
  let got (f : Nat → Bool) : Nat := (s.tm.rxData.filter fun e => f e.1).length
  match k with
  | 0 | 1 | 2 | 3 => s.blockWrites k
  | 4 | 5 | 6 | 7 => s.blockReturns (k - 4)
  | 8 => (s.adm.filter fun a => !a.egress).length
  | 10 => sent fun l => decide (l < 160)
  | 11 => sent fun l => decide (160 ≤ l)
  | 12 => got fun l => decide (l < 160)
  | 13 => got fun l => decide (160 ≤ l)
  | 15 => s.twin.rx.length
  | _ => 0

/-- The level of a watermark instance (R305). -/
def State.wmLevel (s : State) (w : Nat) : Nat :=
  if w < 4096 then s.groupLevel w else if w < 4112 then s.poolCells (w - 4096) else s.fifoLevel (w - 4112)

/-- The instances whose levels a change of queue `q` moves, to be evaluated at the end of the cycle (R305). -/
def State.wmTouch (s : State) (l : List Nat) : State :=
  { s with tm := { s.tm with wmDirty := (s.tm.wmDirty ++ l).eraseDups } }
def State.qLevels (s : State) (q : Nat) : State :=
  let c := (s.q q).cfg
  s.wmTouch [qcGroup c, 4096 + qcPool c]

/-- The end of a cycle for the watermarks (R305): the levels that may have moved, and those of the key FIFOs.
DEDUCED, log entry 42. -/
def State.wmTick (s : State) : State :=
  let s := s.each (s.tm.wmDirty ++ (List.range 16).map (4112 + ·)) fun s w => s.wmSet w (s.wmLevel w)
  { s with tm := { s.tm with wmDirty := [] } }

/-! ### The cell buffer (R281 to R284) -/

/-- Cells in use in a bank. -/
def State.bankUsed (s : State) (b : Nat) : Nat := (SMap.get [] s.tm.bankRows b).length

/-- The next bank in rotation that is available and has a free cell (R25, R283). DESIGN CHOICE, log entry 79. -/
def State.nextBank (s : State) : Nat :=
  ((List.range 256).map fun i => (s.tm.bankPtr + 1 + i) % 256).find? (fun b =>
    decide (s.bankUsed b < 3072) && !s.tileOut 10 b) |>.getD 0

/-- The lowest of the numbers below `n` that a list does not hold, if any. -/
def lowestFree (n : Nat) (taken : List Nat) : Option Nat :=
  (List.range (min n (taken.length + 1))).find? fun k => !taken.contains k

/-- The section of the bank that holds a cell (R281). -/
def cellSection (c : Nat) : Nat := c % 256 / 16

/-- One cell is taken from the free lists (R283): of its bank's free rows the lowest. The answer is its number.
DESIGN CHOICE, log entry 79. -/
def State.cellTake (s : State) : State × Nat :=
  let b := s.nextBank
  let rows := SMap.get [] s.tm.bankRows b
  let row := (lowestFree 3072 rows).getD 0
  let s := { s with tm := { s.tm with bankRows := SMap.put [] s.tm.bankRows b (row :: rows), bankPtr := b } }
  (s.setFld .qmg_STATUS [] f_qmg_STATUS_free_cells (s.freeCells - 1), row * 256 + b)

/-- `n` cells are taken, with their numbers in order. -/
def State.cellsTake (s : State) : Nat → State × List Nat
  | 0 => (s, [])
  | n + 1 =>
    let (s, b) := s.cellTake
    let (s, bs) := s.cellsTake n
    (s, b :: bs)

/-- Cells with these numbers are freed. -/
def State.cellsFree (s : State) (cells : List Nat) : State :=
  let s := { s with tm := { s.tm with bankRows := cells.foldl (fun m c =>
    SMap.put [] m (c % 256) ((SMap.get [] m (c % 256)).erase (c / 256))) s.tm.bankRows } }
  s.setFld .qmg_STATUS [] f_qmg_STATUS_free_cells (s.freeCells + cells.length)

/-- What the checks of cells read for transmission or a spill write found (R284): corrected errors and uncorrectable
ones, of one macro reported together (R24). DEDUCED, log entry 42. -/
def State.cellErrors (s : State) (cells : List QCell) (found : List CellFind) : State :=
  let met := found.filter fun f => cells.any fun c => c.cell == f.cell.val
  let s := s.each met fun s f =>
    if f.bad then s.bankUe (f.cell.val % 256) (f.cell.val / 256)
    else s.addSat .buf_CE_CNT [f.cell.val % 256] f_buf_CE_CNT_corrected 1
  s.reportUes ((met.filter (·.bad)).map fun f => locWord 2 2 1 0x3F 10 (f.cell.val % 256) 0 (f.cell.val / 256) 0xFF)

/-- Whether a cell read has an uncorrectable error, and the place of the first such cell among those read. -/
def QCell.unread (c : QCell) (found : List CellFind) : Bool := found.any fun f => f.bad && f.cell.val == c.cell
def firstBad (cells : List QCell) (found : List CellFind) : Option Nat := cells.findIdx? (·.unread found)

/-! ### Head, tail and dead cells (R286, R295) -/

/-- The head target in cells (R286); none for a queue that does not spill. DEDUCED, log entry 42. -/
def State.headTarget (s : State) (x : Queue) : Option Nat :=
  if s.flag .qmg_CFG [] f_qmg_CFG_spill_en && qcSpill x.cfg != 0 then some (qcSpill x.cfg * 16) else none

/-- A cell of a packet that is no longer in the queue: it is freed when reached. DEDUCED, log entry 43. -/
def Queue.deadCell (x : Queue) (c : QCell) : Bool := !(x.pkts.any fun p => p.id == c.pkt)

/-- Cells move from the tail to the head while no middle and no transfer is pending (R286), and dead cells at
the front of the head are freed. DEDUCED, log entry 43. -/
def State.qSettle (s : State) (q : Nat) : State :=
  let x := s.q q
  let move (x : Queue) : Queue :=
    if x.blocks.isEmpty then
      let n := match s.headTarget x with
        | some t => min x.tail.length (t - x.head.length)
        | none => x.tail.length
      { x with head := x.head ++ x.tail.take n, tail := x.tail.drop n }
    else x
  let rec clean : Nat → Queue → List Nat → Queue × List Nat
    | 0, x, freed => (x, freed)
    | n + 1, x, freed =>
      match x.head with
      | c :: rest => if x.deadCell c then clean n (move { x with head := rest }) (c.cell :: freed) else (x, freed)
      | [] => (x, freed)
  let x := move x
  let (x, freed) := clean (x.head.length + x.tail.length) x []
  ((s.modQ q fun _ => x).cellsFree freed).qLevels q

/-- A packet leaves the queue's accounts: it was sent, discarded or lost. -/
def State.qRemove (s : State) (q id : Nat) : State :=
  s.modQ q fun x =>
    match x.pkts.find? fun p => p.id == id with
    | some p => { x with
        pkts := x.pkts.filter fun p => p.id != id
        depth := x.depth - p.len, count := x.count - 1 }
    | none => x

/-- A packet counted under a drop cause (R313), in a QMG section (R568). -/
def State.dropCount (s : State) (cause : Nat) : State :=
  (s.addWrap .qmg_DROP_CNT [cause] f_qmg_DROP_CNT_packets 1).count1 (175 + s.nextBank / 16) 5

/-! ### Eligibility of the head packet (R287) -/

/-- A packet whose checks passed: its frame is good, or it came from reassembly. -/
def State.pktChecked (s : State) (a : AdmPkt) : Bool := a.egress || s.frameState a.fid == 0

/-- The head packet of a queue, where its next cell is at the front of the head. -/
def Queue.front (x : Queue) : Option QPkt :=
  match x.pkts, x.head with
  | p :: _, c :: _ => if c.pkt = p.id then some p else none
  | _, _ => none

/-- A packet of which some cells have left and others have not. -/
def Queue.partly (x : Queue) : Bool := x.pkts.any fun p => 0 < p.sent

/-! ### Lifecycle of a queue (R301, R302, R620) -/

/-- A request for ON or OFF of a queue (R301, R302): a start needs its domain, and a stop keeps the sequence point of
the request, one that is pending as well. -/
def Queue.request (x : Queue) (on canStart : Bool) (at' : Nat) : Queue :=
  match x.state, on with
  | 0, true => if canStart && !x.restart then { x with state := 1 } else x
  | 0, false => { x with restart := false }
  | 1, true => { x with stop := false }
  | 1, false => if x.stop then x else { x with stop := true, stopAt := at' }
  | 2, true => { x with stop := false }
  | 2, false => if x.stop then x else { x with state := 3, stopAt := at' }
  | _, b => { x with restart := b }

/-- The cycle of rest of a queue ends (R302, R620). -/
def Queue.rested (x : Queue) (canStart : Bool) : Queue :=
  if x.state = 0 ∧ x.restart then { x with restart := false, state := if canStart then 1 else 0 }
  else if x.state = 2 ∧ x.stop then { x with stop := false, state := 3 }
  else x

/-- The state bits of a READ (R300). -/
def Queue.stateBits (x : Queue) : Nat :=
  let b (c : Bool) (i : Nat) : Nat := if c then 2 ^ i else 0
  x.depth % 2 ^ 40 + x.count % 2 ^ 26 * 2 ^ 40 + (x.head.length + x.tail.length) % 2 ^ 20 * 2 ^ 66 +
    x.blocks.length % 2 ^ 25 * 2 ^ 86 + x.state * 2 ^ 111 + b x.ctx.isSome 113 + b x.stop 114 + b x.restart 115

end Sys2Proof.Machine
end

