-- ==== Sys2Proof/Machine/FabOps.lean ====
section
/-! DEFINITION. The fabric's shared operations: identifiers, control messages, credit, and cells handed to lanes
(chapter 10, R386 to R395). -/

namespace Sys2Proof.Machine

/-! ### Identifiers and cells (R386, R388, R389) -/

/-- Whether the device is one of a twin pair, and its identifier, whose bit 0 then comes from TWIN_ID (R388). -/
def State.fabTwin (s : State) : Bool := s.flag .fab_CFG [] f_fab_CFG_twin
def State.devId (s : State) : Nat :=
  let d := s.fld .fab_CFG [] f_fab_CFG_dev_id
  if s.fabTwin then d / 2 * 2 + s.fld .glb_STRAPS [] f_glb_STRAPS_twin_id else d

/-- CRC-16 with polynomial 0x1021 over bytes, most significant bit first (R386). -/
def crc16 (bs : List Byte) : Nat :=
  bs.foldl (fun c b =>
    (List.range 8).foldl (fun c _ => if 0x8000 ≤ c then (c * 2) % 0x10000 ^^^ 0x1021 else c * 2)
      (c ^^^ b.toNat * 256)) 0xFFFF

/-- A cell's header as a 128-bit number, hcrc included (R386). -/
def FCell.header (c : FCell) : Nat :=
  let b (x : Bool) (i : Nat) : Nat := if x then 2 ^ i else 0
  let h := c.kind * 2 ^ 126 + c.dst * 2 ^ 116 + b c.pair 115 + c.src * 2 ^ 105 + b c.void 104 + b c.tag 103 +
    c.pkt * 2 ^ 80 + c.idx * 2 ^ 74 + c.len * 2 ^ 60 + c.port * 2 ^ 52 + c.cls * 2 ^ 49 + c.dp * 2 ^ 47 +
    b c.srcPair 46
  h + crc16 ((natBE 16 h).take 14)

/-- The cell of a received header and payload. -/
def FCell.ofHeader (h : Nat) (payload : List Byte) : FCell :=
  { kind := bitsOf h 126 2, dst := bitsOf h 116 10, pair := bitOf h 115, src := bitsOf h 105 10,
    void := bitOf h 104, tag := bitOf h 103, pkt := bitsOf h 80 23, idx := bitsOf h 74 6, len := bitsOf h 60 14,
    port := bitsOf h 52 8, cls := bitsOf h 49 3, dp := bitsOf h 47 2, srcPair := bitOf h 46, payload }

/-- The FCS the editor appends: the CRC-32 of IEEE 802.3 over the frame, least significant byte first
(R151, R176). PRESUMED, log entry 7. -/
def ethCrc (bs : List Byte) : Nat :=
  (bs.foldl (fun c b =>
    (List.range 8).foldl (fun c _ => if c % 2 = 1 then (c / 2) ^^^ 0xEDB88320 else c / 2) (c ^^^ b.toNat))
    0xFFFFFFFF) ^^^ 0xFFFFFFFF
def withFcs (bs : List Byte) : List Byte := bs ++ natLE 4 (ethCrc bs)

/-! ### Lanes -/

def State.lane (s : State) (l : Nat) : Lane := SMap.get {} s.tm.lanes l
def State.modLane (s : State) (l : Nat) (f : Lane → Lane) : State :=
  { s with tm := { s.tm with lanes := SMap.modify {} s.tm.lanes l f } }
def State.laneState (s : State) (l : Nat) : Nat := s.fld .fab_LANE_STATUS [l] f_fab_LANE_STATUS_state

/-- A sender's link credit for a priority (R395). -/
def Lane.credit (x : Lane) (ctrl : Bool) : Nat :=
  if ctrl then (x.offer1 + x.credit1 + 2 ^ 24 - x.sent1) % 2 ^ 24
  else (x.offer0 + x.credit0 + 2 ^ 24 - x.sent0) % 2 ^ 24

/-- The cells of a priority that may still be handed to a lane: its credit, less the cells handed and not yet sent.
DESIGN CHOICE, log entry 48. -/
def Lane.room (x : Lane) (ctrl : Bool) : Nat := x.credit ctrl - (x.tx.filter fun c => (c.kind == 2) == ctrl).length

/-- LANE_STATUS shows the credit (R403). -/
def State.laneShow (s : State) (l : Nat) : State :=
  let x := s.lane l
  let s := s.setFld .fab_LANE_STATUS [l] f_fab_LANE_STATUS_data_credit (min (x.credit false) 4095)
  s.setFld .fab_LANE_STATUS [l] f_fab_LANE_STATUS_ctrl_credit (min (x.credit true) 255)

/-- Whether lane `l` is eligible for a cell (R393, R395): UP, with credit of the cell's priority and the bit of
its destination; for a pair cell of which one copy was handed to an endpoint, only a lane to the other twin. -/
def State.laneEligible (s : State) (c : FCell) (l : Nat) : Bool :=
  let x := s.lane l
  let dev := s.fld .fab_LANE_STATUS [l] f_fab_LANE_STATUS_partner_dev
  let endpoint := s.fld .fab_LANE_STATUS [l] f_fab_LANE_STATUS_partner_role == 0
  s.laneState l == 4 && x.room (c.kind == 2) != 0 && bitOf x.reach c.dst &&
    (c.served == 0 || (endpoint && dev == (if c.served = 1 then c.dst + 1 else c.dst)))

/-- The first eligible lane after the pointer, in ascending order, wrapping (R393). -/
def State.laneFor (s : State) (c : FCell) : Option Nat :=
  ((List.range 320).map fun i => (s.tm.lanePtr + 1 + i) % 320).find? (s.laneEligible c)

/-- A cell is handed to a lane, which sends it later (R393, R396); a tagged packet's FABRIC_OUT is recorded with its last
cell (R581). DESIGN CHOICE, log entry 48. -/
def State.laneHand (s : State) (c : FCell) (l : Nat) : State :=
  let s := s.modLane l fun x => { x with tx := x.tx ++ [c] }
  let s := { s with tm := { s.tm with lanePtr := l } }.laneShow l
  if c.trace = 0 then s
  else
    let first := SMap.get (l, s.pwr.time.toNat) s.tm.fabOut c.trace
    if c.last then
      { s with tm := { s.tm with fabOut := SMap.erase s.tm.fabOut c.trace } }.traceWay c.trace 0x0B 0
        (natLE 2 first.1 ++ natLE 4 (s.pwr.time.toNat - first.2))
    else { s with tm := { s.tm with fabOut := SMap.insert s.tm.fabOut c.trace first } }

/-- The cell that a lane sends next and the rest: control cells take precedence over data cells (R390). -/
def nextCell : List FCell → Option (FCell × List FCell)
  | [] => none
  | c :: l =>
    if c.kind = 2 then some (c, l)
    else match l.find? (·.kind == 2) with
      | some k => some (k, c :: l.erase k)
      | none => some (c, l)

/-- The next cell handed to a lane is sent, and its credit is spent (R395); a lane that is stopping has given up its credit
(R396). DESIGN CHOICE, log entry 48. -/
def State.laneSend (s : State) (l : Nat) : State :=
  match nextCell (s.lane l).tx with
  | some (c, rest) =>
    let s := s.emit (.cell l c.kind [c.header] (padTo 256 c.payload))
    let spent := if s.laneState l = 4 then 1 else 0
    let s := s.modLane l fun x =>
      if c.kind = 2 then { x with tx := rest, sent1 := (x.sent1 + spent) % 2 ^ 24 }
      else { x with tx := rest, sent0 := (x.sent0 + spent) % 2 ^ 24 }
    (s.laneShow l).count1 (210 + l / 4) 4
  | none => s

/-- The cells handed to a lane and not yet sent go back to the framer, ahead of its queues (R396).
DESIGN CHOICE, log entry 48. -/
def State.laneGive (s : State) (l : Nat) : State :=
  let cells := (s.lane l).tx.map fun c => { c with trace := 0 }
  let s := s.modLane l fun x => { x with tx := [] }
  { s with tm := { s.tm with
    ctrlQ := cells.filter (·.kind == 2) ++ s.tm.ctrlQ
    dataQ := cells.filter (·.kind != 2) ++ s.tm.dataQ } }

/-- Handing the head of a framer queue to a lane (R393, R395): the state after it and what of the cell is left to hand
over; none where no lane is eligible. Each copy for one twin goes to that twin alone. DESIGN CHOICE, log entry 48. -/
def State.handOver (s : State) (c : FCell) : Option (State × Option FCell) :=
  match s.laneFor c with
  | none => none
  | some l =>
    let endpoint := s.fld .fab_LANE_STATUS [l] f_fab_LANE_STATUS_partner_role == 0
    let even := s.fld .fab_LANE_STATUS [l] f_fab_LANE_STATUS_partner_dev % 2 == 0
    if c.pair && endpoint && c.served == 0 then
      some (s.laneHand { c with last := false, served := if even then 2 else 1 } l,
        some { c with served := if even then 1 else 2 })
    else some (s.laneHand c l, none)

/-! ### Control cells (R390) -/

/-- The waiting messages of a destination leave in a control cell. DESIGN CHOICE, log entry 48. -/
def State.ctrlFlush (s : State) (key : Nat) : State :=
  let (_, l) := SMap.get (0, []) s.tm.msgs key
  if l.isEmpty then s
  else
    let c : FCell :=
      { kind := 2, dst := key / 2, pair := key % 2 == 1, src := s.devId, srcPair := s.fabTwin,
        idx := min 32 l.length, payload := (l.take 32).flatMap fun m => natBE 8 m }
    { s with tm := { s.tm with msgs := SMap.erase s.tm.msgs key, ctrlQ := s.tm.ctrlQ ++ [c] } }

/-- A message for a destination (R390): the cell leaves at 32 messages. Only the holder of the serve sends
(R388). DESIGN CHOICE, log entry 48. -/
def State.msgSend (s : State) (dst : Nat) (pair : Bool) (m : Nat) : State :=
  if s.serves then
    let key := dst * 2 + (if pair then 1 else 0)
    let (at', l) := SMap.get (0, []) s.tm.msgs key
    let at' := if l.isEmpty then s.cycle else at'
    let s := { s with tm := { s.tm with msgs := SMap.insert s.tm.msgs key (at', l ++ [m]) } }
    if 32 ≤ l.length + 1 then s.ctrlFlush key else s
  else s

/-- A REQUEST for a VOQ with its backlog (R390, R391), where SYS_MAP names a destination (R402). -/
def State.requestSend (s : State) (q : Nat) : State :=
  let e := s.rd .fab_SYS_MAP [q / 8]
  let backlog := min 0xFFFFFFF (((s.q q).depth + 255) / 256)
  let s := s.modQ q fun x => { x with requestAt := s.cycle }
  if f_fab_SYS_MAP_valid.get e = 1 then
    s.msgSend (f_fab_SYS_MAP_dev.get e) (f_fab_SYS_MAP_pair.get e == 1)
      (2 ^ 60 + q / 8 * 2 ^ 44 + q % 8 * 2 ^ 41 + backlog)
  else s

/-! ### Credit of a VOQ (R330, R332) -/

/-- A balance changed; a sum outside 32 bits is a free value. DESIGN CHOICE, log entry 45. -/
def State.addBalance (s : State) (q : Nat) (d : Int) : State :=
  let b := (s.q q).balance + d
  if -2147483648 ≤ b ∧ b < 2147483648 then s.modQ q fun x => { x with balance := b }
  else
    let (v, s) := s.free
    s.modQ q fun x => { x with balance := (v.setWidth 32).toInt }

/-- The balance of an empty VOQ is given up (R332). -/
def State.creditRelease (s : State) (q : Nat) : State :=
  let s := s.addSat .sch_STATUS [] f_sch_STATUS_credit_released (s.q q).balance.toNat
  s.modQ q fun x => { x with balance := 0, emptySince := none }

/-- A VOQ has been empty for credit_hold µs with a balance above zero (R332); in the gap between two holders of the serve the
time does not advance (R477). -/
def State.creditDue (s : State) (q : Nat) : Bool :=
  let x := s.q q
  match x.emptySince with
  | some c => x.pkts.isEmpty && decide (0 < x.balance) && !s.gap &&
      s.passed c (s.fld .sch_ING_CFG [] f_sch_ING_CFG_credit_hold * cyclesPerUs)
  | none => false

/-- The time of R332 runs from the cycle in which the VOQ is empty with a balance above zero; with credit_hold 0
the balance is released in that cycle. -/
def State.holdStart (s : State) (q : Nat) : State :=
  let x := s.q q
  if x.pkts.isEmpty ∧ 0 < x.balance then
    if s.fld .sch_ING_CFG [] f_sch_ING_CFG_credit_hold = 0 ∧ !s.gap then s.creditRelease q
    else s.modQ q fun x => { x with emptySince := some (x.emptySince.getD s.cycle) }
  else s.modQ q fun x => { x with emptySince := none }

/-! ### Nodes and heads of egress queues (R287, R322, R355) -/

def nodeKey (lvl n : Nat) : Nat := lvl * 65536 + n
def State.node (s : State) (lvl n : Nat) : SchedNode := SMap.get {} s.tm.nodes (nodeKey lvl n)
def ndParent (c : Nat) : Nat := bitsOf c 0 16

/-- The port above a node. -/
def State.portOf (s : State) : Nat → Nat → Nat
  | 0, n => n
  | lvl + 1, n => s.portOf lvl (ndParent (s.node (lvl + 1) n).cfg)

/-- The head packet of egress queue `n` that R287 lets go: it is whole, and its queue is ON. -/
def State.egressFront (s : State) (n : Nat) : Option QPkt :=
  let x := s.q (524288 + n)
  if x.state = 2 then
    match x.front with
    | some p => if p.sent = 0 then some p else none
    | none => none
  else none

/-- Whether a port has gates, and the largest frame of one that has (R354, R359). -/
def State.gateEn (s : State) (p : Nat) : Bool := s.flag .tgt_PORT_CFG [p] f_tgt_PORT_CFG_gate_en
def State.gateMaxFrame (s : State) (p : Nat) : Nat := clampFrame (s.fld .tgt_PORT_CFG [p] f_tgt_PORT_CFG_max_frame)

/-- Frames too long for a gated port are discarded as they reach the head of an egress queue (R355). -/
def State.dropOversize (s : State) (q : Nat) : Nat → State
  | 0 => s
  | k + 1 =>
    let n := q - 524288
    match if isVoq q then none else s.egressFront n with
    | some x =>
      let p := s.portOf 4 n
      if (s.node 4 n).cfg != 0 && s.gateEn p && decide (s.gateMaxFrame p < x.len) then
        let s := s.addSat .tgt_PORT_STATUS [p] f_tgt_PORT_STATUS_oversize 1
        ((s.qRemove q x.id).qSettle q).dropOversize q k
      else s
    | none => s

/-- A queue's cells move up, and what reaches its head is looked at (R286, R355). -/
def State.qHead (s : State) (q : Nat) : State :=
  let s := s.qSettle q
  s.dropOversize q (s.q q).pkts.length

/-- What follows when packets have left a queue: its lost remainder is cleared once it is empty (R295), and a VOQ
that becomes empty sends its REQUEST and starts its hold (R391, R332). -/
def State.qLeft (s : State) (q : Nat) : State :=
  let s := s.qHead q
  let x := s.q q
  if x.pkts.isEmpty then
    let s := s.when (x.count != 0 && x.head.isEmpty && x.tail.isEmpty && x.blocks.isEmpty) fun s =>
      (s.addSat .qmg_LOSS [] f_qmg_LOSS_lost_packets x.count).modQ q fun x => { x with count := 0, depth := 0 }
    if isVoq q then (s.requestSend q).holdStart q else s
  else s

end Sys2Proof.Machine
end

