-- ==== Sys2Proof/Machine/HbmReq.lean ====
section
/-! DEFINITION. HBM controllers: what the stacks hold, and the requests to them (chapter 11). -/

namespace Sys2Proof.Machine

/-! ### What the stacks hold (R15, R410, R411) -/

/-- The table address T of channel-local address `a` on controller `c` of stacks 4-5: R410 turned round. -/
def feTable (c a : Nat) : Nat :=
  let h := a / 256
  (h * 64 + (c ^^^ (h % 64) ^^^ (h / 64 % 64))) * 256 + a % 256

/-- The region of stacks 4-5 that holds table address `t`, and the offset in it. -/
def State.feRegion (s : State) (t : Nat) : Option (Nat × Nat) :=
  ((List.range 8).find? fun r =>
    let base := s.fld .fe_hmc_REGION [r] f_fe_hmc_REGION_base * 2 ^ 26
    decide (base ≤ t) && decide (t < base + s.regionSize r)).map
      fun r => (r, t - s.fld .fe_hmc_REGION [r] f_fe_hmc_REGION_base * 2 ^ 26)

/-- Where the content of a granule is held: in the engine's memory for the regions whose layout the spec gives, else in the
stack (R15, R410). DESIGN CHOICE, log entry 50. -/
def State.granHome (s : State) (k gran : Nat) : Option (Nat × Nat) :=
  if k < 128 then none
  else match s.feRegion (feTable (k - 128) (gran * 64)) with
    | some (r, o) => if 2 ≤ r ∧ r ≤ 5 then some (r, o) else none
    | none => none

/-- The entry of an LPM slice or an exact-match table that lies at a place (R189, R194). -/
def State.entryIn (s : State) (kind loc : Nat) : Option (Nat × TEntry) :=
  s.tab.cells.findSome? fun e =>
    match e.2.cur with
    | some x => if e.1 / 2 ^ 200 = kind ∧ x.loc = loc then some (e.1, x) else none
    | none => none

/-- An entry as numbers. -/
def entryFields (e : Nat × TEntry) : List Nat := [e.1, e.2.data, if e.2.hit then 1 else 0, e.2.stamp]

/-- What a unit holds in a granule whose byte layout the spec does not give, as numbers: a data policer of stacks 0-3, the
routes and the way of an exact-match bucket of stacks 4-5 (R15, R410, R411); nothing where no unit holds anything there.
DESIGN CHOICE, log entry 50. -/
def State.unitHeld (s : State) (k gran : Nat) : List Nat :=
  if k < 128 then
    let n := (gran - polGranule) * 128 + k
    if s.flag .tm_hmc_CARVE [] f_tm_hmc_CARVE_pol_en ∧ polGranule ≤ gran ∧ n < 2 ^ 20 then
      let p := s.pol n
      [p.cfg, p.lvl0, p.lvl1, p.last, p.cnt0.toNat, p.cnt1.toNat, p.cnt2.toNat]
    else []
  else match s.feRegion (feTable (k - 128) (gran * 64)) with
    | some (0, o) => [o / 32 + 1, o / 32 + 2].flatMap fun loc => ((s.entryIn 2 loc).map entryFields).getD []
    | some (1, o) => ((s.entryIn 3 (4 * (2 ^ 23 + o / 256) + o % 256 / 64)).map entryFields).getD []
    | _ => []

/-- The stack's own bytes of a granule. -/
def State.stackBytes (s : State) (k gran : Nat) : List Byte := s.hbm.mem.readBytes (k * 2 ^ 30 + gran * 64) 64

/-- The 64 bytes of a granule: tree nodes, rules, counters and the program-data window of stacks 4-5, what a unit holds
there in bytes of a layout that the spec does not give, and what else the stacks hold. DESIGN CHOICE, log entry 50. -/
def State.granule (s : State) (k gran : Nat) : List Byte :=
  match s.granHome k gran with
  | some (2, o) => (List.range 8).flatMap fun w => natLE 8 (SMap.get 0 s.cls.nodes (o / 8 + w)).toNat
  | some (3, o) => s.cls.rules.readBytes o 64
  | some (4, o) => (List.range 4).flatMap fun i => natLE 16 (SMap.get 0 s.tab.counters (o / 16 + i))
  | some (_, o) => s.fpc.pdata.readBytes o 64
  | none =>
    let held := s.unitHeld k gran
    if held = [] ∨ SMap.get [] s.hbm.snaps (k * 2 ^ 24 + gran) = held then s.stackBytes k gran
    else padTo 64 (Config.unitBytes held)

/-- A granule written; of a unit's data whose layout the spec does not give, the bytes stand until the unit changes them.
DESIGN CHOICE, log entry 50. -/
def State.putGranule (s : State) (k gran : Nat) (b : List Byte) : State :=
  match s.granHome k gran with
  | some (2, o) => s.each (List.range 8) fun s w =>
      { s with cls := { s.cls with
        nodes := SMap.put 0 s.cls.nodes (o / 8 + w) (BitVec.ofNat 64 (leNat ((b.drop (8 * w)).take 8))) } }
  | some (3, o) => { s with cls := { s.cls with rules := s.cls.rules.writeBytes o b } }
  | some (4, o) => s.each (List.range 4) fun s i =>
      { s with tab := { s.tab with
        counters := SMap.put 0 s.tab.counters (o / 16 + i) (leNat ((b.drop (16 * i)).take 16)) } }
  | some (_, o) => { s with fpc := { s.fpc with pdata := s.fpc.pdata.writeBytes o b } }
  | none => { s with hbm := { s.hbm with
      mem := s.hbm.mem.writeBytes (k * 2 ^ 30 + gran * 64) b
      snaps := SMap.put [] s.hbm.snaps (k * 2 ^ 24 + gran) (s.unitHeld k gran) } }

/-- Consecutive granules, read and written. -/
def State.granBytes (s : State) (k gran n : Nat) : List Byte := (numbersFrom gran n).flatMap (s.granule k)
def State.putGrans (s : State) (k gran n : Nat) (b : List Byte) : State :=
  s.each (List.range n) fun s i => s.putGranule k (gran + i) ((b.drop (64 * i)).take 64)

/-! ### Requests (R412 to R416) -/

/-- An answer to a requester: 0 data or acknowledgement, 2 unavailable, 3 uncorrectable error (R427). -/
def State.hbmAnswer (s : State) (k tag status : Nat) (data : List Byte) : State := s.emit (.hbmResponse k tag status data)

/-- The answer to a request; the groundskeeper's scrub has no requester beside the controller. -/
def State.reqAnswer (s : State) (k : Nat) (q : HReq) (status : Nat) (data : List Byte) : State :=
  s.when (!q.scrub) (·.hbmAnswer k q.tag status data)

/-- Whether `n` entries are free for a class in the pending queue: 8 of its own, 64 shared, each counted for the class a
request came with (R413). -/
def hbmRoom (l : List HReq) (cls n : Nat) : Bool :=
  let held (c : Nat) : Nat := granules (l.filter (·.home == c))
  let shared := ((List.range 4).map fun c => held c - 8).foldl (· + ·) 0
  decide (n - (8 - held cls) + shared ≤ 64)

/-- Two requests share a granule. -/
def HReq.meets (a b : HReq) : Bool := decide (a.gran < b.gran + b.n) && decide (b.gran < a.gran + a.n)

/-- What the latest pending write to a granule writes there (R415): the scrub writes back what the granule holds, which is
`now` (R418). -/
def pendingWrite (l : List HReq) (now : Nat → List Byte) (gran : Nat) : Option (List Byte) :=
  (l.filterMap fun o =>
    if o.gran ≤ gran ∧ gran < o.gran + o.n then
      o.wdata.map fun d => if o.scrub then now gran else (d.drop (64 * (gran - o.gran))).take 64
    else none).getLast?

/-- A request enters the pending queue where it has entries free (R413, R415): older requests to its granules are raised to
its class, and a read takes the granules that have a write pending from that write; where all have, it is answered.
DESIGN CHOICE, log entry 50. -/
def State.hbmAccept (s : State) (k : Nat) (q : HReq) : State :=
  let raise (o : HReq) : HReq := if o.meets q ∧ q.cls < o.cls then { o with cls := q.cls } else o
  let l := (s.hchan k).queue.map raise
  let s := s.modH k fun x => { x with queue := l }
  let older := (numbersFrom q.gran q.n).filterMap fun g => (pendingWrite l (s.granule k) g).map (g, ·)
  if q.wdata.isSome then (s.modH k fun x => { x with queue := l ++ [q] }).hShow k
  else if older.length = q.n then s.reqAnswer k q 0 (older.flatMap (·.2))
  else (s.modH k fun x => { x with queue := l ++ [{ q with fwd := older }] }).hShow k

/-- The data of a read: of each granule what an older write gave, else what the stack holds (R415, R416). -/
def State.readData (s : State) (k : Nat) (q : HReq) : List Byte :=
  (numbersFrom q.gran q.n).flatMap fun g => (q.fwd.lookup g).getD (s.granule k g)

/-- A write takes effect (R416); the scrub's write-back changes nothing (R418). DESIGN CHOICE, log entry 50. -/
def State.writeData (s : State) (k : Nat) (q : HReq) (d : List Byte) : State :=
  if q.scrub then s else s.putGrans k q.gran q.n d

/-- Requests that waited at the input enter in order while there is room (R413). -/
def State.hbmRefill (s : State) (k : Nat) : Nat → State
  | 0 => s
  | n + 1 =>
    match (s.hchan k).input with
    | q :: rest =>
      if hbmRoom (s.hchan k).queue q.home q.n then
        ((s.modH k fun x => { x with input := rest }).hbmAccept k q).hbmRefill k n
      else s
    | [] => s

/-- A request comes to a controller that is not frozen (R413). DESIGN CHOICE, log entry 50. -/
def State.hbmArrive (s : State) (k : Nat) (q : HReq) : State :=
  let q := { q with id := (s.hchan k).arrived, at' := s.cycle }
  let s := s.modH k fun x => { x with arrived := x.arrived + 1 }
  if (s.hchan k).input.isEmpty && hbmRoom (s.hchan k).queue q.home q.n then s.hbmAccept k q
  else s.modH k fun x => { x with input := x.input ++ [q] }

/-- Granules of a channel (R407). -/
def granLimit : Nat := 12582912

/-- HBM_REQUEST (R407, R412, R413, R427): a unit's request for `more` granules beside the first, as far as the channel has
them; no unit sends classes SC0 and SC1 to stacks 4-5. DESIGN CHOICE, log entry 50. -/
def execHbmRequest (k : Fin 192) (tag : Nat) (cls : Fin 4) (gran : Fin 12582912)
    (wdata : Option (List Byte)) (s : State) (more : Fin 64 := 0) : Res :=
  if 128 ≤ k.val ∧ cls.val < 2 then go s
  else if s.hFrozen k then go (s.hbmAnswer k tag 2 [])
  else
    let n := min (more.val + 1) (granLimit - gran)
    go (s.hbmArrive k { tag, home := cls, cls, gran, n, wdata := wdata.map (padTo (64 * n)), at' := 0, id := 0 })

/-- The age limit of a class in cycles; 0 never promotes (R414, R436). -/
def State.ageLimit (s : State) (k cls : Nat) : Nat :=
  let r := hReg .tm_hmc_SC_CFG .fe_hmc_SC_CFG k []
  20 * s.fld r.1 r.2 (match cls with
    | 0 => f_tm_hmc_SC_CFG_age_sc0 | 1 => f_tm_hmc_SC_CFG_age_sc1 | 2 => f_tm_hmc_SC_CFG_age_sc2
    | _ => f_tm_hmc_SC_CFG_age_sc3)

/-- Requests that have waited their class's limit are promoted and counted (R414). -/
def State.hbmPromote (s : State) (k : Nat) : State :=
  let due (q : HReq) : Bool :=
    !q.promoted && q.turn == 0 && s.ageLimit k q.cls != 0 && s.passed q.at' (s.ageLimit k q.cls)
  let n := ((s.hchan k).queue.filter due).length
  let s := s.modH k fun x => { x with queue := x.queue.map fun q => if due q then { q with promoted := true } else q }
  (s.hAdd (hStatus k) f_tm_hmc_CH_STATUS_promotions n).countEvents (hbmGroup k) 8 n

/-- HBM_PROMOTION (R414). -/
def execHbmPromotion (k : Fin 192) (s : State) : Res := if s.hFrozen k then go s else go (s.hbmPromote k)

/-- The oldest request that must go before `q` does: requests that share a granule keep their order (R415). -/
def hbmFirst (l : List HReq) : Nat → HReq → HReq
  | 0, q => q
  | n + 1, q =>
    match l.find? (·.meets q) with
    | some o => if o.id = q.id then q else hbmFirst l n o
    | none => q

/-- The request the controller chooses (R414), an older request to the same granule going first (R415). -/
def hbmChoice (l : List HReq) : Option HReq :=
  let l := l.filter (·.turn == 0)
  let pick := match l.find? (·.promoted) with
    | some q => some q
    | none => (List.range 4).findSome? fun c => l.find? (·.cls == c)
  pick.map (hbmFirst l l.length)

/-- The granules of the training area of a channel (R424). -/
def trainGranules : Nat := 64

/-- The request chosen next; those to the training area wait while it is saved (R424). -/
def State.hbmPick (s : State) (k : Nat) : Option HReq :=
  let x := s.hchan k
  hbmChoice (if x.save.isSome then x.queue.filter fun q => decide (trainGranules ≤ q.gran) else x.queue)

/-- A chosen request's commands are issued, its granules as one (R407, R414, R419). DESIGN CHOICE, log entry 50. -/
def State.hbmIssue (s : State) (k : Nat) (q : HReq) : State :=
  let s := s.each (numbersFrom q.gran q.n) fun s g => s.when (q.fwd.lookup g).isNone (·.granIssue k q g)
  s.modH k fun x => { x with
    turns := x.turns + 1
    queue := x.queue.map fun o => if o.id = q.id then { o with turn := x.turns + 1 } else o }

/-- The training area holds the data of the save buffer again (R424): the model keeps the data in their place and the
patterns beside them. DESIGN CHOICE, log entry 50. -/
def State.trainRestore (s : State) (k : Nat) : State :=
  if (s.hchan k).save.isSome then s.modH k fun x => { x with save := none } else s

/-- A channel that is ON and no longer paused has its training area restored, once its last command is over (R424). -/
def State.hbmSettle (s : State) (k : Nat) : State :=
  if s.hState k = 2 ∧ !s.hPaused k ∧ !s.hFrozen k ∧ (s.hchan k).cmdRunning.isNone then s.trainRestore k else s

/-- HBM_SCHEDULE (R414). -/
def execHbmSchedule (k : Fin 192) (s : State) : Res :=
  if s.hState k ≠ 2 ∨ s.hFrozen k ∨ s.hPaused k then go s
  else
    let s := (s.hbmSettle k).hbmPromote k
    match s.hbmPick k with
    | some q => go (s.hbmIssue k q)
    | none => go s

/-- The request whose data are transferred next: the earliest chosen (R414). -/
def nextIssued (l : List HReq) : Option HReq :=
  l.foldl (fun (acc : Option HReq) q =>
    if q.turn = 0 then acc
    else match acc with
      | some a => if q.turn < a.turn then some q else acc
      | none => some q) none

/-- A served request leaves the pending queue. -/
def State.hbmLeave (s : State) (k : Nat) (q : HReq) : State :=
  let s := (s.modH k fun x => { x with queue := x.queue.filter fun o => o.id != q.id }).hShow k
  s.hbmRefill k (s.hchan k).input.length

/-! ### Block transfers of the queue manager (R292, R293, R412) -/

/-- A block transfer's request comes to a channel of stacks 0-3 that serves (R412, R413). -/
def State.qmRequest (s : State) (k q cls gran n : Nat) (wdata : Option (List Byte)) : State :=
  if s.hState k = 2 ∧ !s.hFrozen k then
    s.hbmArrive k { tag := q, home := cls, cls, gran, n, wdata, at' := 0, id := 0, queue := some q }
  else s

/-- Whether a request is the transfer of a queue's block that begins at a granule. -/
def HReq.isBlock (r : HReq) (q gran : Nat) (write : Bool) : Bool :=
  r.queue == some q && r.gran == gran && r.wdata.isSome == write

/-- A transfer that waits at the controller's input, or is not chosen yet on a paused channel, has not completed
(R413, R426). -/
def State.qmWaits (s : State) (k q gran : Nat) (write : Bool) : Bool :=
  (s.hchan k).input.any (·.isBlock q gran write) ||
    !s.hFrozen k && s.hPaused k && (s.hchan k).queue.any fun r => r.isBlock q gran write && r.turn == 0

/-- A transfer completes with a status: where its request is still pending its commands are issued, its write takes effect,
and it is answered (R414, R416, R417). DESIGN CHOICE, log entry 50. -/
def State.qmFinish (s : State) (k q gran : Nat) (write : Bool) (status : Nat) : State :=
  match if s.hFrozen k then none else (s.hchan k).queue.find? (·.isBlock q gran write) with
  | none => s
  | some r =>
    let s := if r.turn = 0 then s.hbmIssue k r else s
    let data := if r.wdata.isNone ∧ status = 0 then s.readData k r else []
    let s := match r.wdata with
      | some d => s.writeData k r d
      | none => s
    (s.hbmLeave k r).reqAnswer k r status data

end Sys2Proof.Machine
end

