-- ==== Sys2Proof/Machine/Queues.lean ====
section
/-! DEFINITION. Admission, spilling, refilling and the lifecycle of queues (chapter 8). -/

namespace Sys2Proof.Machine

/-! ### Sending the cells of a selected packet (R29, R287, R331, R386) -/

/-- A last cell whose frame failed its checks carries void (R29), and a fast-break packet counts stomped (R177). -/
def State.cellVoid (s : State) (c : FCell) : State :=
  let s := s.when c.fbk (·.fbkCount 5)
  { s with tm := { s.tm with dataQ := s.tm.dataQ ++ [{ c with void := true }] } }

/-- A data cell goes to the framer; the last cell of a packet whose frame's checks are not known waits for
them, and carries void where they failed (R29). -/
def State.cellOut (s : State) (fid : Nat) (c : FCell) : State :=
  if c.last && s.frameState fid == 1 then { s with tm := { s.tm with tails := s.tm.tails ++ [(fid, c)] } }
  else if c.last && s.frameState fid == 2 then s.cellVoid c
  else { s with tm := { s.tm with dataQ := s.tm.dataQ ++ [c] } }

/-- Cells of the packet at the front of the head that may leave now. -/
def Queue.leaving (x : Queue) (id : Nat) : List QCell := x.head.takeWhile (·.pkt == id)

/-- A partly sent packet is ended (R295): a VOQ sends a void last cell, an egress queue ends the frame with an
inverted FCS. DEDUCED, log entry 43. -/
def State.endPartly (s : State) (q : Nat) (p : QPkt) : State :=
  if p.sent = 0 then s
  else match p.hdr with
    | some h =>
      let c := { h with idx := cellsOf p.len - 1, last := true, void := true, payload := [] }
      { s with tm := { s.tm with dataQ := s.tm.dataQ ++ [c] } }
    | none =>
      let endIt (f : Option TxFrame) : Option TxFrame := match f with
        | some t => some (if t.queue = q ∧ t.id = p.id then { t with whole := true, badEnd := true } else t)
        | none => none
      { s with tm := { s.tm with tx := s.tm.tx.map fun (e : Nat × Option TxFrame) => (e.1, endIt e.2) } }

/-- A packet of a queue is discarded, under a cause of R313 where one is given. -/
def State.qDiscard (s : State) (q : Nat) (p : QPkt) (cause : Option Nat) : State :=
  let s := s.endPartly q p
  let s := match cause with
    | some k => s.dropCount k
    | none => s
  s.qRemove q p.id

/-- The first `k` of the front packet's cells in the head leave the queue: to the framer for a VOQ packet of header
`hdr`, to the transmit path otherwise. DEDUCED, log entry 43. -/
def State.sendCells (s : State) (q : Nat) (p : QPkt) (k : Nat) : State :=
  let run := ((s.q q).leaving p.id).take k
  let bytes := withFcs p.a.bytes
  let s := match p.hdr with
    | some h => s.each run fun s c =>
      s.cellOut p.a.fid { h with
        idx := c.idx, last := c.idx + 1 == cellsOf p.len, payload := (bytes.drop (256 * c.idx)).take 256 }
    | none => s
  let s := s.modQ q fun x => { x with
    head := x.head.drop run.length
    pkts := x.pkts.map fun y => if y.id = p.id then { p with sent := p.sent + run.length } else y }
  s.cellsFree (run.map (·.cell))

/-- The transmit path of an egress packet has all of it. -/
def State.txWhole (s : State) (q : Nat) (p : QPkt) : State :=
  let done (f : Option TxFrame) : Option TxFrame := match f with
    | some t => some (if t.queue = q ∧ t.id = p.id then { t with whole := true } else t)
    | none => none
  { s with tm := { s.tm with tx := s.tm.tx.map fun (e : Nat × Option TxFrame) => (e.1, if p.hdr.isSome then e.2 else done e.2) } }

/-- The front packet's cells that lie in the head leave the queue, up to the first with an uncorrectable error: that ends
the packet, or discards it under MEM_ERROR where none of its cells has left (R284). Once the last has left the packet is
gone. DEDUCED, log entry 43. -/
def State.sendFront (s : State) (q : Nat) (p : QPkt) (found : List CellFind) : State :=
  let run := (s.q q).leaving p.id
  let s := s.cellErrors run found
  match firstBad run found with
  | some k =>
    let s := s.sendCells q p k
    let p := { p with sent := p.sent + k }
    (s.qDiscard q p (if p.sent = 0 then some 8 else none)).qLeft q
  | none =>
    let s := s.sendCells q p run.length
    if p.sent + run.length < cellsOf p.len then s.qLevels q else ((s.txWhole q p).qRemove q p.id).qLeft q

/-- A packet whose first cell has left continues as its next cells reach the head. -/
def State.sendMore (s : State) (q : Nat) (found : List CellFind) : Nat → State
  | 0 => s
  | n + 1 => match (s.q q).front with
    | some p => if 0 < p.sent then ((s.sendFront q p found).qSettle q).sendMore q found n else s
    | none => s

/-- Cells that have come to the head of a queue go to the packet that is being sent. -/
def State.qSend (s : State) (q : Nat) (found : List CellFind) : State :=
  s.sendMore q found ((s.q q).tail.length + 1)

/-- A packet that failed its checks after admission and before any of its cells left (R287). -/
def State.qFailed (s : State) (fid : Nat) : State :=
  s.each (s.tm.queues.map (·.1)) fun s q =>
    let bad := (s.q q).pkts.filter fun p => p.a.fid == fid && p.sent == 0 && !p.a.egress && !p.cut
    if bad.isEmpty then s else (s.each bad fun s p => s.qDiscard q p (some 2)).qLeft q

/-! ### Admission (R297, R298) -/

/-- Whether packet `a` is decided before packet `b` (R297): each cycle's packets from the Pyrlys die come first, in the
order received, then those from reassembly by section. -/
def admBefore (a b : AdmPkt) : Bool :=
  decide (a.at' < b.at') || (a.at' == b.at' && ((!a.egress && b.egress) ||
    (a.egress && b.egress && decide (a.sec < b.sec))))

/-- Whether packets from the Pyrlys die may be decided: nothing crosses a FAILED die-to-die link (R18), and held commits
go ahead of every packet once it is UP (R227). -/
def State.admOpen (s : State) : Bool := s.d2dHealth != 2 && s.tab.held.isEmpty

/-- The packet decided next. -/
def State.admNext (s : State) : Option AdmPkt :=
  (s.adm.filter fun a => a.egress || s.admOpen).foldl (fun acc a => match acc with
    | some b => if admBefore a b then some a else acc
    | none => some a) none

/-- The list without its first element equal to `a`. -/
def dropFirst (a : AdmPkt) : List AdmPkt → List AdmPkt
  | [] => []
  | x :: l => if x = a then l else x :: dropFirst a l

/-- WRED's decision with profile `r`, drop precedence and average (R298). -/
def State.wredDrop (s : State) (seq r dp avg n : Nat) : Bool :=
  let w := s.rdAt seq .qmg_WRED [r, min dp 2]
  let lo := f_qmg_WRED_min.get w * 64
  let hi := f_qmg_WRED_max.get w * 64
  let x := (splitMixOut (s.rd .qmg_WRED_SEED [] ^^^ BitVec.ofNat 64 n)).toNat % 65536
  if hi ≤ lo then true
  else if avg < lo then false
  else if hi ≤ avg then true
  else decide (x < f_qmg_WRED_max_p.get w * 256 * (avg - lo) / (hi - lo))

/-- The average after an admission's update (R298). -/
def wredAvg (avg depth w : Nat) : Nat := ((avg : Int) + (((depth / 64 : Nat) : Int) - (avg : Int)) / 2 ^ w).toNat

/-- The first cause that refuses a packet of length `len` for queue `q`, before WRED (R297). `at'` is the packet's
number for a VOQ packet and the latest one for an egress packet, and `c` the configuration. -/
def State.admitRefuse (s : State) (q : Nat) (a : AdmPkt) (c at' : Nat) : Option Nat :=
  let x := s.q q
  let len := a.bytes.length + 4
  let n := cellsOf len
  let lim := qcMaxDepth c * 4096
  let lim := match a.dp with
    | 0 => lim
    | 1 => lim * (qcYellow c + 1) / 16
    | _ => lim * (qcRed c + 1) / 16
  let grp := s.fldAt at' .qmg_GRP_CFG [qcGroup c] f_qmg_GRP_CFG_limit
  if x.state ≠ 2 ∨ x.stop then some 1
  else if !a.egress ∧ s.frameState a.fid = 2 then some 2
  else if s.freeCells < n + s.fld .qmg_CFG [] f_qmg_CFG_refill_reserve then some 3
  else if qcMaxDepth c ≠ 0xFFFFF ∧ lim < x.depth + len then some 4
  else if x.ondie + n ≤ qcMinCells c then none
  else if grp ≠ 0x1FFFFFFF ∧ grp < s.groupLevel (qcGroup c) + n then some 5
  else if s.fldAt at' .qmg_POOL_CFG [qcPool c] f_qmg_POOL_CFG_limit < s.poolUsed (qcPool c) + n then some 6
  else none

/-- The ADMIT waypoint (R581). -/
def State.admitWay (s : State) (a : AdmPkt) (q outcome : Nat) : State :=
  s.traceWay a.trace 0x09 0 (natLE 3 q ++ natLE 1 outcome ++ natLE 1 a.dp)

/-- T of R292: tail cells of complete packets. -/
def State.tailReady (s : State) (x : Queue) : Nat :=
  (x.tail.filter fun c => match x.pkts.find? fun p => p.id == c.pkt with
    | some p => s.pktChecked p.a
    | none => true).length

/-- The tail wants to spill (R292). -/
def State.wantsSpill (s : State) (x : Queue) : Bool :=
  match s.headTarget x with
  | some t => decide (16 ≤ s.tailReady x) && (decide (0 < x.middle + x.pendingWrites) || decide (t ≤ x.head.length))
  | none => false

/-- Whether a queue needs a spill context and none is free (R290). -/
def State.ctxRefused (s : State) (q : Nat) : Bool :=
  (s.q q).ctx.isNone && s.wantsSpill (s.q q) && s.fld .qmg_STATUS [] f_qmg_STATUS_contexts_used == 65536

/-- A packet enters its queue (R282, R297): its cells are taken and appended to the tail, the first with bit 15 and the
length in its tag; a release that is due in the cycle comes first (R332). DEDUCED, log entry 49. -/
def State.enqueue (s : State) (q : Nat) (a : AdmPkt) : State :=
  let s := s.when (s.creditDue q) (·.creditRelease q)
  let x := s.q q
  let len := a.bytes.length + 4
  let first := x.pkts.isEmpty
  let cut := isVoq q && first && decide (0 < x.balance) && s.frameState a.fid == 1 && !a.egress
  let (s, cells) := s.cellsTake (cellsOf len)
  let s := s.count1 (175 + cellSection (cells.headD 0)) 4
  let s := s.modQ q fun x => { x with
    pkts := x.pkts ++ [{ id := x.nextId, a, len, ct := cut }]
    tail := x.tail ++ cells.mapIdx fun i c => ⟨x.nextId, i, c, if i = 0 then 0x8000 + len else 0⟩
    nextId := x.nextId + 1, depth := x.depth + len, count := x.count + 1, emptySince := none }
  let s := s.qHead q
  let s := s.when (s.ctxRefused q) (·.addSat .qmg_SPILL_CNT [] f_qmg_SPILL_CNT_refused 1)
  let s := s.admitWay a q (if cut then 10 else 0)
  s.when (first && isVoq q) (·.requestSend q)

/-- The decision on one packet (R297, R301, R342). A queue that rests in ON before it stops admits nothing (R302).
DEDUCED, log entry 28. -/
def State.decideAdm (s : State) (a : AdmPkt) : State :=
  let q := if a.egress then 524288 + a.queue else a.queue
  let x := s.q q
  let c := x.cfgAt (!a.egress) a.seq
  let at' := if a.egress then s.fpc.seqNext else a.seq
  let n := if a.egress then x.offered else a.seq
  let s := s.modQ q fun x => { x with offered := x.offered + 1 }
  if a.red then (s.addSat .pol_STATUS [] f_pol_STATUS_red_drops 1).admitWay a q 9
  else if (x.state = 3 ∨ x.state = 2 ∧ x.stop) ∧ !a.egress ∧ a.seq < x.stopAt then
    s.addSat .qmg_SPILL_CNT [] f_qmg_SPILL_CNT_flushed 1
  else match s.admitRefuse q a c at' with
    | some cause => (s.dropCount cause).admitWay a q cause
    | none =>
      let avg := wredAvg x.avg x.depth (qcWredW c)
      let s := s.modQ q fun x => { x with avg }
      if qcWredEn c && s.wredDrop at' (qcProfile c) a.dp avg n then (s.dropCount 7).admitWay a q 7
      else s.enqueue q a

/-- ADMISSION (R297): the next packet that reached the queue manager is decided. -/
def execAdmission (s : State) : Res :=
  match s.admNext with
  | some a => go ({ s with adm := dropFirst a s.adm }.decideAdm a)
  | none => go s

/-! ### Spill blocks (R288 to R293) -/

def State.excluded (s : State) (ch : Nat) : Bool := s.flag .qmg_CH_STATUS [ch] f_qmg_CH_STATUS_excluded

/-- Blocks allocated on a channel, and its free ones (R319): those of the carving that are not allocated. -/
def State.chanBlocks (s : State) (ch : Nat) : List (Nat × Nat × Bool) := SMap.get [] s.tm.spill ch
def State.spillBlocks (s : State) : Nat := s.fld .tm_hmc_CARVE [] f_tm_hmc_CARVE_spill_blocks
def State.chanFree (s : State) (ch : Nat) : Nat := s.spillBlocks - (s.chanBlocks ch).length

/-- The allocated blocks of a channel changed; a block given back, and one held for its frozen channel (R296). -/
def State.modChan (s : State) (ch : Nat) (f : List (Nat × Nat × Bool) → List (Nat × Nat × Bool)) : State :=
  { s with tm := { s.tm with spill := SMap.put [] s.tm.spill ch (f (s.chanBlocks ch)) } }
def State.blockFree (s : State) (b : BlockAt) : State := s.modChan b.chan fun l => l.filter fun u => u.1 != b.num
def State.blockHold (s : State) (b : BlockAt) : State :=
  s.modChan b.chan fun l => l.map fun u => if u.1 = b.num then (u.1, u.2.1, true) else u

/-- The mirror channel of a block on data channel `ch` (R288). -/
def State.mirrorOf (s : State) (ch : Nat) : Nat :=
  (((List.range 128).map fun i => (ch + 64 + i) % 128).find? fun c => !s.excluded c).getD ch

/-- The block that a channel's free list gives out: the lowest of those free of which slot 1 on mirror channel `m` holds
no live mirror record (R411). DESIGN CHOICE, log entry 79. -/
def State.freeBlock (s : State) (ch m : Nat) : Option Nat :=
  let mirrored := s.tm.spill.flatMap fun e => (e.2.filter fun u => u.2.1 == m).map (·.1)
  lowestFree s.spillBlocks ((s.chanBlocks ch).map (·.1) ++ mirrored)

/-- A block is allocated for a queue's list (R288, R291). -/
def State.blockTake (s : State) (q : Nat) : Option State :=
  let x := s.q q
  let find (ch : Nat) : Option BlockAt :=
    if s.excluded ch then none else (s.freeBlock ch (s.mirrorOf ch)).map fun n => ⟨ch, n, s.mirrorOf ch⟩
  (((List.range 128).map fun i => (x.nextChan + i) % 128).findSome? find).map fun b =>
    let s := s.modChan b.chan (· ++ [(b.num, b.mirror, false)])
    s.modQ q fun x => { x with ctx := some (x.ctx.getD [] ++ [b]), nextChan := (b.chan + 1) % 128 }

/-- The list is filled to eight blocks, as far as channels allow. -/
def State.fillList (s : State) (q : Nat) : Nat → State
  | 0 => s
  | n + 1 =>
    if 8 ≤ ((s.q q).ctx.getD []).length then s
    else match s.blockTake q with
      | some s => s.fillList q n
      | none => s

/-- Spill contexts in use (R309). -/
def State.ctxCount (s : State) (n : Nat) : State := s.setFld .qmg_STATUS [] f_qmg_STATUS_contexts_used n
def State.ctxUsed (s : State) : Nat := s.fld .qmg_STATUS [] f_qmg_STATUS_contexts_used

/-- A queue's context is freed with the blocks of its list. DEDUCED, log entry 43. -/
def State.ctxFree (s : State) (q : Nat) : State :=
  match (s.q q).ctx with
  | some l =>
    let s := s.each l fun s b => if s.excluded b.chan then s.blockHold b else s.blockFree b
    (s.modQ q fun x => { x with ctx := none, ahead := [] }).ctxCount (s.ctxUsed - 1)
  | none => s

/-- The 32-bit form of a block address (R288), and the bytes of a block record (R289). -/
def BlockAt.word (b : BlockAt) : Nat := b.chan * 2 ^ 25 + b.num * 2 ^ 7 + b.mirror
def SBlock.record (b : SBlock) : List Byte :=
  (List.range 16).flatMap (fun i => natLE 2 (b.tags.getD i 0)) ++ (List.range 8).flatMap fun j => natLE 4 (b.next.getD j 0)

/-- The granule of a block's primary record on its data channel; the mirror record's on its mirror channel is the next
(R411). -/
def State.recordGran (s : State) (b : BlockAt) : Nat := 64 * s.spillBlocks + 2 * b.num

/-- Blocks of the middle for which no read was issued, in queue order. -/
def Queue.unread (x : Queue) : List SBlock := x.blocks.filter fun b => decide (b.stage < 2)

/-- A block is added behind the middle: its address is known where those of all unread blocks before it are (R290). -/
def Queue.addBlock (x : Queue) (b : SBlock) : Queue :=
  let known := x.ahead.length == x.unread.length && decide (x.ahead.length < 8)
  { x with blocks := x.blocks ++ [b], ahead := if known then x.ahead ++ [b.toBlockAt] else x.ahead }

/-- The addresses that a record read gives become known, up to eight of the blocks that follow (R290). -/
def Queue.learn (x : Queue) (b : SBlock) : Queue :=
  let l := x.unread.map (·.toBlockAt)
  { x with ahead := (l.takeWhile fun a => x.ahead.contains a || b.next.contains a.word).take 8 }

/-- The addresses that the record of the newest block gives: those of the eight blocks on the list; one that no channel
could give yet is a free value (R289, R291). DEDUCED, log entry 43. -/
def State.recordNext (s : State) (q : Nat) : State :=
  let l := ((s.q q).ctx.getD []).map BlockAt.word
  let (v, s) := if l.length < 8 then s.free else (0, s)
  let next := l ++ List.replicate (8 - l.length) (v.toNat % 2 ^ 32)
  s.modQ q fun x => { x with blocks := x.blocks.dropLast ++ (x.blocks.getLast?.map fun b => { b with next }).toList }

/-- The block at the front of the list is written with the 16 oldest tail cells, or as a void block where its
data channel is frozen and its mirror channel is not (R292, R294). A packet of which a cell is met with an uncorrectable
error is discarded or ended (R284). DEDUCED, log entry 43. -/
def State.spillWrite (s : State) (q : Nat) (found : List CellFind) : State :=
  match (s.q q).ctx with
  | some (at' :: rest) =>
    let dead := s.excluded at'.chan
    if dead && !s.excluded at'.mirror then
      let b : SBlock := { at' with cells := [], tags := [0x4000], void := true, bad := true }
      (s.blockHold at').modQ q fun x => { x with ctx := some rest }.addBlock b
    else
      let cells : List QCell := (s.q q).tail.take 16
      let s := s.cellErrors cells found
      let bad (p : QPkt) : Bool := cells.any fun c => c.pkt == p.id && c.unread found
      let s := s.each ((s.q q).pkts.filter bad) fun s p => s.qDiscard q p (if p.sent = 0 then some 8 else none)
      let touched (p : QPkt) : Bool := cells.any fun c => c.pkt == p.id
      let s := s.each ((s.q q).pkts.filter fun p => touched p && !p.spilled) fun s p =>
        s.traceWay p.a.trace 0x0A 0 [BitVec.ofNat 8 at'.chan]
      let b : SBlock := { at' with cells, tags := cells.map (·.tag), bad := dead, mirrorBad := dead }
      let s := s.when dead (·.blockHold at')
      let s := s.modQ q fun x => { x with
        ctx := some rest, tail := x.tail.drop 16
        pkts := x.pkts.map fun p => if touched p then { p with spilled := true } else p }.addBlock b
      s.count1 (175 + cellSection ((cells.map (·.cell)).headD 0)) 6
  | _ => s

/-- The first block that satisfies a condition is changed. -/
def modBlock (f : SBlock → Bool) (g : SBlock → SBlock) : List SBlock → List SBlock
  | [] => []
  | b :: l => if f b then g b :: l else b :: modBlock f g l

/-- The oldest middle block is read (R292, R293, R295), where its address is known (R290): 16 on-die cells are taken for
it, or its mirror record is read where its data channel is frozen. -/
def State.refillRead (s : State) (q : Nat) : State :=
  match (s.q q).unread with
  | b :: _ =>
    if b.stage ≠ 1 ∨ (s.q q).ahead.head? ≠ some b.toBlockAt then s
    else if b.bad || s.excluded b.chan then
      s.modQ q fun x => { x with
        ahead := x.ahead.drop 1, blocks := modBlock (·.stage == 1) (fun b => { b with stage := 4 }) x.blocks }
    else
      let (s, cells) := s.cellsTake b.cells.length
      let s := s.count1 (175 + cellSection (cells.headD 0)) 7
      let s := (s.qmRequest b.chan q 0 (64 * b.num) 64 none).qmRequest b.chan q 0 (s.recordGran b.toBlockAt) 1 none
      s.modQ q fun x => { x with
        ahead := x.ahead.drop 1
        blocks := modBlock (·.stage == 1)
          (fun b => { b with stage := 2, cells := b.cells.zipWith (fun c k => { c with cell := k }) cells }) x.blocks }
  | [] => s

/-- A block's mirror record is stored on its mirror channel (R289, R293, R411). -/
def State.mirrorStore (s : State) (b : SBlock) : State :=
  { s with hbm := { s.hbm with
    mem := s.hbm.mem.writeBytes (b.mirror * 2 ^ 30 + 64 * (s.recordGran b.toBlockAt + 1)) b.record } }

/-- What a completed write leaves in the stacks (R15, R289, R293, R411): the cells and the primary record on the data
channel, the mirror record on the mirror channel. A cell's bytes past the end of its packet are not written. -/
def State.blockStore (s : State) (q : Nat) (b : SBlock) : State :=
  let put (s : State) (a : Nat) (bs : List Byte) : State :=
    { s with hbm := { s.hbm with mem := s.hbm.mem.writeBytes (b.chan * 2 ^ 30 + a) bs } }
  let s := if b.bad then s
    else
      let s := s.each b.cells.zipIdx fun s (c, i) =>
        match (s.q q).pkts.find? fun p => p.id == c.pkt with
        | some p => put s (4096 * b.num + 256 * i) (((withFcs p.a.bytes).drop (256 * c.idx)).take 256)
        | none => s
      put s (64 * s.recordGran b.toBlockAt) b.record
  if b.mirrorBad then s else s.mirrorStore b

/-- The writes of a queue's newest block are requested (R293, R412): the cells and the primary record, and the mirror
record. -/
def State.spillSend (s : State) (q : Nat) : State :=
  match (s.q q).blocks.getLast? with
  | some b =>
    let t := s.blockStore q b
    let r := s.recordGran b.toBlockAt
    let s := if b.bad then s
      else (s.qmRequest b.chan q 1 (64 * b.num) 64 (some (t.granBytes b.chan (64 * b.num) 64))).qmRequest b.chan q 1 r 1
        (some b.record)
    if b.mirrorBad then s else s.qmRequest b.mirror q 1 (r + 1) 1 (some b.record)
  | none => s

/-- SPILL_STEP (R292): a queue takes a context when it first spills (R290), writes a tail block, reads a middle
block, and frees its context when it needs none. A stopping queue starts no transfer but the reads that a
partly sent packet needs (R301). -/
def State.spillStep (s : State) (q : Nat) (found : List CellFind) : State :=
  let x := s.q q
  let open' := x.state == 2
  let wants := open' && s.wantsSpill x
  let s := if wants && x.ctx.isNone && decide (s.ctxUsed < 65536) then
      (s.modQ q fun x => { x with ctx := some [], ahead := [], nextChan := q % 128 }).ctxCount (s.ctxUsed + 1)
    else s
  if (s.q q).ctx.isNone then s
  else
    let s := s.fillList q 8
    let full := decide (8 ≤ ((s.q q).ctx.getD []).length)
    let s := s.when (wants && !full) (·.addSat .qmg_SPILL_CNT [] f_qmg_SPILL_CNT_stalled 1)
    let s := if wants && full then (((s.spillWrite q found).fillList q 1).recordNext q).spillSend q else s
    let x := s.q q
    let low := match s.headTarget x with
      | some t => decide (x.head.length + 16 * x.pendingReads + 16 ≤ t)
      | none => true
    let s := s.when ((open' || x.partly) && decide (0 < x.middle) && decide (x.pendingReads < 8) && low &&
      decide (16 ≤ s.freeCells)) (·.refillRead q)
    let s := (s.qSettle q).qSend q found
    let x := s.q q
    let idle := x.blocks.isEmpty && s.tailReady x == 0 && (match s.headTarget x with
      | some t => decide (x.head.length ≤ t)
      | none => true)
    s.when idle (·.ctxFree q)

/-- SPILL_STEP (R292). -/
def execSpillStep (q : Fin 589824) (found : List CellFind) (s : State) : Res := go (s.spillStep q found)

/-- The `i`-th element that satisfies a condition is changed. -/
def modNth {α : Type} (f : α → Bool) (g : α → α) : List α → Nat → List α
  | [], _ => []
  | b :: l, i => if f b then (match i with | 0 => g b :: l | i + 1 => b :: modNth f g l i) else b :: modNth f g l i

/-- Whether one of a block's transfers cannot have completed yet (R413, R426): its cells and record, and for a write its
mirror record. -/
def State.blockWaits (s : State) (q : Nat) (b : SBlock) (write : Bool) : Bool :=
  let r := s.recordGran b.toBlockAt
  s.qmWaits b.chan q (64 * b.num) write || s.qmWaits b.chan q r write || (write && s.qmWaits b.mirror q (r + 1) true)

/-- A block's transfers complete with a status (R293). -/
def State.blockFinish (s : State) (q : Nat) (b : SBlock) (write : Bool) (status : Nat) : State :=
  let r := s.recordGran b.toBlockAt
  let s := (s.qmFinish b.chan q (64 * b.num) write status).qmFinish b.chan q r write status
  s.when write (·.qmFinish b.mirror q (r + 1) true status)

/-- SPILL_WRITE_DONE (R293): the `i`-th pending write of the queue completes; its cells are freed. -/
def execSpillWriteDone (q : Fin 589824) (i : Nat) (s : State) : Res :=
  match ((s.q q).blocks.filter (·.stage == 0))[i]? with
  | some b =>
    if s.blockWaits q b true then go s
    else
    let s := (s.blockFinish q b true 0).blockStore q b
    let s := s.modQ q fun x => { x with blocks := modNth (·.stage == 0) (fun b => { b with stage := 1 }) x.blocks i }
    go ((s.cellsFree (b.cells.map (·.cell))).qSettle q)
  | none => go s

/-- Blocks read in order enter the head (R293); a block that is not held goes back to its free list. -/
def State.drainBlocks (s : State) (q : Nat) (found : List CellFind) : State :=
  let ready := (s.q q).blocks.takeWhile (·.stage == 3)
  let s := s.each ready fun s b => if b.bad then s else s.blockFree b.toBlockAt
  let s := s.modQ q fun x => { x with
    blocks := x.blocks.drop ready.length, head := x.head ++ ready.flatMap (·.cells) }
  (s.qLeft q).qSend q found

/-- A lost block (R295): every packet with a cell in it is dropped whole. -/
def State.blockLost (s : State) (q : Nat) (b : SBlock) : State :=
  let s := s.addSat .qmg_LOSS [] f_qmg_LOSS_lost_cells b.cells.length
  s.each ((s.q q).pkts.filter fun p => b.cells.any fun c => c.pkt == p.id) fun s p =>
    ((s.addSat .qmg_LOSS [] f_qmg_LOSS_lost_packets 1).traceWay p.a.trace 0x10 0 [5]).qDiscard q p none

/-- A block whose records are both unreadable (R295): the packets known to touch it, which began before it, are
dropped; of those that began in it the counters keep showing what they counted. DEDUCED, log entry 43. -/
def State.blockUnreadable (s : State) (q : Nat) (b : SBlock) : State :=
  let s := s.addSat .qmg_LOSS [] f_qmg_LOSS_lost_cells b.cells.length
  let touched := (s.q q).pkts.filter fun p => b.cells.any fun c => c.pkt == p.id
  let began (p : QPkt) : Bool := b.cells.any fun c => c.pkt == p.id && c.idx == 0
  let s := s.each (touched.filter fun p => !began p) fun s p =>
    ((s.addSat .qmg_LOSS [] f_qmg_LOSS_lost_packets 1).traceWay p.a.trace 0x10 0 [5]).qDiscard q p none
  s.modQ q fun x => { x with pkts := x.pkts.filter fun p => !(touched.any fun t => t.id == p.id) }

/-! ### Frozen and released channels (R294, R296) -/

/-- A channel freezes: it is excluded, and every transfer pending on it is unreadable (R294); the mirror record of a block
whose write was pending still reaches its mirror channel (R293). DEDUCED, log entry 43. -/
def State.chanFrozen (s : State) (ch : Nat) : State :=
  if s.excluded ch then s
  else
    let s := s.setFlag .qmg_CH_STATUS [ch] f_qmg_CH_STATUS_excluded true
    let one (b : SBlock) : SBlock :=
      let b := if b.mirror = ch ∧ b.stage = 0 then { b with mirrorBad := true } else b
      if b.chan = ch then
        { b with bad := true, stage := if b.stage = 0 then 1 else if b.stage = 2 then 4 else b.stage }
      else b
    let s := s.each s.tm.queues fun s (q, x) =>
      let hit := x.blocks.filter (·.chan == ch)
      let s := s.each hit fun s b => if b.bad then s else s.blockHold b.toBlockAt
      let s := s.each hit fun s b =>
        s.when (b.stage == 0 && !b.mirrorBad && b.mirror != ch) fun s =>
          (s.mirrorStore b).qmFinish b.mirror q (s.recordGran b.toBlockAt + 1) true 0
      let s := s.cellsFree ((hit.filter fun b => b.stage == 0 || b.stage == 2).flatMap fun b => b.cells.map (·.cell))
      s.modQ q fun x => { x with blocks := x.blocks.map one }
    s.each (s.tm.queues.map (·.1)) fun s q => s.qLevels q

/-- Software released the channel: its held blocks return to the free list and it rejoins allocation (R296). -/
def State.chanReleased (s : State) (ch : Nat) : State :=
  let freed (b : SBlock) : SBlock := if b.chan = ch ∧ b.bad then { b with released := true } else b
  let s := s.each (s.tm.queues.map (·.1)) fun s q => s.modQ q fun x => { x with blocks := x.blocks.map freed }
  (s.modChan ch fun l => l.filter fun u => !u.2.2).setFlag .qmg_CH_STATUS [ch] f_qmg_CH_STATUS_excluded false

/-! ### Starting and flushing (R301, R302) -/

/-- QUEUE_START_DONE (R301, R302). -/
def execQueueStartDone (q : Fin 589824) (s : State) : Res :=
  if (s.q q).state = 1 then
    go (s.modQ q fun x => { x with avg := 0, offered := 0, state := 2 })
  else go s

/-- The walk of a flush over the middle (R301): the record of each block, the mirror one of a frozen channel, gives the
addresses of those that follow. A block that is reached is freed, or held on a frozen channel until its release gives its
number back (R296); one whose address no record gave stays allocated. -/
def State.flushWalk (s : State) (known : List Nat) : List SBlock → State
  | [] => s
  | b :: l =>
    if !known.contains b.word then s.flushWalk known l
    else
      let dead := b.bad || s.excluded b.chan
      let lost := dead && (b.mirrorBad || s.excluded b.mirror)
      let r := s.recordGran b.toBlockAt
      let s := if dead then s.hbmUnit b.mirror 3 (r + 1) false else s.hbmUnit b.chan 3 r false
      (if b.released then s else if dead then s.blockHold b.toBlockAt else s.blockFree b.toBlockAt).flushWalk (if lost then known else known ++ b.next) l

/-- QUEUE_FLUSH_DONE (R301, R302): every packet left is counted in flushed, and those that only the counters still show in
lost_packets (R295); cells, blocks and context are freed, and the queue is OFF. -/
def execQueueFlushDone (q : Fin 589824) (s : State) : Res :=
  let x := s.q q
  if x.state ≠ 3 ∨ x.partly ∨ (x.blocks.any fun b => b.stage != 1 && b.stage != 3) then go s
  else
    let s := s.addSat .qmg_SPILL_CNT [] f_qmg_SPILL_CNT_flushed x.pkts.length
    let s := s.addSat .qmg_LOSS [] f_qmg_LOSS_lost_packets (x.count - x.pkts.length)
    let read := x.blocks.filter (·.stage == 3)
    let s := s.flushWalk ((x.ahead ++ read.map (·.toBlockAt)).map BlockAt.word) x.blocks
    let s := s.cellsFree ((x.head ++ x.tail ++ read.flatMap (·.cells)).map (·.cell))
    let s := s.ctxFree q
    let s := s.modQ q fun x => { x with
      pkts := [], depth := 0, count := 0, head := [], tail := [], blocks := [], ahead := []
      state := 0 }
    let s := s.qLevels q
    if isVoq q && !x.pkts.isEmpty then go ((s.requestSend q).holdStart q) else go s

end Sys2Proof.Machine
end

