-- ==== Sys2Proof/Machine/Gates.lean ====
section
/-! DEFINITION. Time gates and shapers (chapter 9, R335 to R337, R352 to R358). -/

namespace Sys2Proof.Machine

/-! ### Gate control lists (R352, R353) -/

/-- The entry of a list in force at tick `pos` of its cycle, its gates and its number; the last stays in force. -/
def gateEntryAt : List (Nat × Nat) → Nat → Nat → Nat × Nat
  | [], _, _ => (255, 0)
  | [e], _, i => (e.1, i)
  | e :: l, pos, i => if pos < e.2 then (e.1, i) else gateEntryAt l (pos - e.2) (i + 1)

/-- Whether a list governs tick `t`: it exists and its first cycle has started. -/
def GateList.governs (g : GateList) (t : Nat) : Bool := g.cycleTicks != 0 && decide (g.base ≤ t)

/-- The gates open at tick `t`, and the entry in force; before the first cycle every gate is open. -/
def GateList.at' (g : GateList) (t : Nat) : Nat × Nat :=
  if g.governs t then gateEntryAt g.entries ((t - g.base) % g.cycleTicks) 0 else (255, 0)

/-- Ticks from `pos` to the end of the entry in force there. -/
def entryLeft (cycle : Nat) : List (Nat × Nat) → Nat → Nat
  | [], pos => cycle - pos
  | [_], pos => cycle - pos
  | e :: l, pos => if pos < e.2 then e.2 - pos else entryLeft (cycle - e.2) l (pos - e.2)

/-- The first tick after `t` at which the list's state may change. -/
def GateList.nextEdge (g : GateList) (t : Nat) : Nat :=
  if g.governs t then t + max 1 (entryLeft g.cycleTicks g.entries ((t - g.base) % g.cycleTicks)) else g.base

/-- The first tick after `t` at which the list closes gate `k`, sought over one cycle; none where it has no
close. -/
def GateList.closeAfter (g : GateList) (k t : Nat) : Option Nat :=
  if g.cycleTicks = 0 then none
  else
    let rec seek : Nat → Nat → Option Nat
      | 0, _ => none
      | n + 1, t =>
        let t' := g.nextEdge t
        if bitOf (g.at' t').1 k then seek n t' else some t'
    seek (g.entries.length + 2) t

def State.gatePort (s : State) (p : Nat) : GatePort := SMap.get {} s.tm.gates p
def State.modGate (s : State) (p : Nat) (f : GatePort → GatePort) : State :=
  { s with tm := { s.tm with gates := SMap.modify {} s.tm.gates p f } }
/-- Whether gate `k` of a port is open at a tick: the pending list governs from its switch tick on (R357). -/
def State.gateOpen (s : State) (p k t : Nat) : Bool :=
  let x := s.gatePort p
  match x.pend with
  | some (l, sw) => if sw ≤ t then bitOf (l.at' t).1 k else bitOf (x.oper.at' t).1 k
  | none => bitOf (x.oper.at' t).1 k

/-- The close of the window of gate `k` that holds tick `t` (R353, R357). -/
def State.gateClose (s : State) (p k t : Nat) : Option Nat :=
  let x := s.gatePort p
  match x.pend with
  | some (l, sw) =>
    if sw ≤ t then l.closeAfter k t
    else
      let later := if bitOf (l.at' sw).1 k then l.closeAfter k sw else some sw
      match x.oper.closeAfter k t with
      | some c => if c < sw then some c else later
      | none => later
  | none => x.oper.closeAfter k t

/-- The guard band of a port in ticks (R354). -/
def State.guardBand (s : State) (p : Nat) : Nat :=
  ((s.gateMaxFrame p + 20) * 8 + s.portBpt p - 1) / s.portBpt p

/-- The close, with its guard band, of the window of gate `k` that holds tick `t`: none where the window has no close, or
where the close falls at a tick that a pending forward step passes over (R600), at which the window closes without a guard
band (R358). -/
def State.guardedClose (s : State) (p k t : Nat) : Option Nat :=
  match s.gateClose p k t, s.pwr.step with
  | some c, some (a, d) =>
    if 0 < d ∧ t < a ∧ a ≤ c ∧ (c : Int) < (a : Int) + d then none else some c
  | c, _ => c

/-- Whether a frame of gate `k` may start at tick `t` on port `p`, by the operational list (R354). -/
def State.gateFits (s : State) (p k t : Nat) : Bool :=
  s.gateOpen p k t && (match s.guardedClose p k t with
    | some c => decide (t + s.guardBand p < c)
    | none => true)

/-- Whether a frame of gate `k` may start at tick `t` on port `p` (R354); a start at or after the tick of a pending step
is tested at the device time that the step leads to (R358). DEDUCED, log entry 46. -/
def State.gateAdmits (s : State) (p k t : Nat) : Bool :=
  if !s.gateEn p then true
  else match s.pwr.step with
    | some (a, d) =>
      if a ≤ t then { s with pwr := { s.pwr with step := none } }.gateFits p k ((t : Int) + d).toNat
      else s.gateFits p k t
    | none => s.gateFits p k t

/-! ### Windows no frame fits (R354) -/

/-- The windows that open on port `p` as device time goes from `u` to `v`, and admit no frame. DEDUCED, log entry
46. -/
def State.shortOpened (s : State) (p u v : Nat) : Nat :=
  ((List.range 8).filter fun k =>
    !s.gateOpen p k u && s.gateOpen p k v && (match s.guardedClose p k v with
      | some c => decide (c ≤ v + s.guardBand p)
      | none => false)).length

/-- Device time has gone from tick `u` to tick `v`: each window that opened on a gated port and admits no frame is counted
(R354). DEDUCED, log entry 46. -/
def State.shortTick (s : State) (u v : Nat) : State :=
  s.each ((s.tm.gates.map (·.1)).filter s.gateEn) fun s p =>
    s.addSat .tgt_PORT_STATUS [p] f_tgt_PORT_STATUS_short_windows (s.shortOpened p u v)

/-- A list becomes operational at tick `sw`. DEDUCED, log entry 46. -/
def State.gateLoad (s : State) (p : Nat) (l : GateList) (sw : Nat) : State :=
  s.modGate p fun x => { x with oper := l, operT := sw, pend := none }

/-- A pending list whose switch tick has come becomes operational (R357). -/
def State.gateSwitch (s : State) (p : Nat) : State :=
  match (s.gatePort p).pend with
  | some (l, sw) => if sw ≤ s.pwr.time.toNat then (s.gateLoad p l sw).count1 209 4 else s
  | none => s

/-- GATE_LIST_SWITCH (R357): at the switch tick the pending list becomes operational. -/
def execGateListSwitch (p : Fin 256) (s : State) : Res := go (s.gateSwitch p)

/-! ### Shapers (R335 to R337) -/

def spCir (c : Nat) : Nat := bitsOf c 0 32
def spPir (c : Nat) : Nat := bitsOf c 32 32
def spCbs (c : Nat) : Nat := bitsOf c 64 24
def spPbs (c : Nat) : Nat := bitsOf c 88 24
def spOverhead (c : Nat) : Int := (BitVec.ofNat 8 (bitsOf c 112 8)).toInt
def spEnable (c : Nat) : Bool := bitOf c 120

def State.shaper (s : State) (n : Nat) : Shaper := SMap.get {} s.tm.shapers n

/-- One shaper at a refill boundary that falls in cycle `b` (R335, R337): a change that arrived at least one CLK_TM cycle
before takes effect first. The levels of a disabled shaper are held. DESIGN CHOICE, log entry 45. -/
def Shaper.refill (x : Shaper) (b : Nat) : Shaper × Bool :=
  let (x, changed) := match x.pend with
    | some (c, at') => if at' + 2 ≤ b then ({ x with cfg := c, pend := none }, true) else (x, false)
    | none => (x, false)
  let x := if spEnable x.cfg then
      { x with
        com := min (x.com + spCir x.cfg) (spCbs x.cfg * 256)
        peak := if spPir x.cfg = 0xFFFFFFFF then x.peak else min (x.peak + spPir x.cfg) (spPbs x.cfg * 256) }
    else x
  (x, changed)

/-- The pending count shown in STATUS (R338). -/
def State.shaperShow (s : State) : State :=
  s.setFld .shp_STATUS [] f_shp_STATUS_pending
    (min 65535 (s.tm.shapers.filter fun e => e.2.pend.isSome).length)

/-- The cycle in which the boundary at tick `b`, which is not to come, fell. DESIGN CHOICE, log entry 45. -/
def State.boundaryCycle (s : State) (b : Nat) : Nat := s.cycle - (s.pwr.time.toNat - b)

/-- Every shaper at a boundary that falls in cycle `b`. DESIGN CHOICE, log entry 45. -/
def State.refillAll (s : State) (b : Nat) : State :=
  let changes := (s.tm.shapers.filter fun e => (e.2.refill b).2).length
  let s := { s with tm := { s.tm with
    shapers := s.tm.shapers.foldl (fun m (e : Nat × Shaper) => SMap.put {} m e.1 (e.2.refill b).1) s.tm.shapers } }
  let s := (s.addSat .shp_STATUS [] f_shp_STATUS_refills 1).addSat .shp_STATUS [] f_shp_STATUS_changes changes
  ((s.count1 207 4).countEvents 207 5 changes).shaperShow

/-- SHAPER_REFILL (R335): the next refill boundary, a multiple of 5,120 ticks, has come. -/
def execShaperRefill (s : State) : Res :=
  let b := s.tm.refillNext * 5120
  if b ≤ s.pwr.time.toNat then
    go (({ s with tm := { s.tm with refillNext := s.tm.refillNext + 1 } }).refillAll (s.boundaryCycle b))
  else go s

/-- Every refill whose boundary has come, before the charges of this cycle (R335). DESIGN CHOICE, log entry 45. -/
def State.refillDue (s : State) : State :=
  let due := s.pwr.time.toNat / 5120 + 1 - s.tm.refillNext
  s.each (numbersFrom s.tm.refillNext due) fun s n =>
    ({ s with tm := { s.tm with refillNext := n + 1 } }).refillAll (s.boundaryCycle (n * 5120))

/-- A selection charges a shaper a packet of length `len` (R327). DESIGN CHOICE, log entry 45. -/
def State.shaperCharge (s : State) (n len : Nat) : State :=
  let x := s.shaper n
  if x.cfg = 0 ∨ !spEnable x.cfg then s
  else
    let d := (max 0 ((len : Int) + spOverhead x.cfg)) * 256
    { s with tm := { s.tm with shapers := SMap.put {} s.tm.shapers n { x with com := x.com - d, peak := x.peak - d } } }

end Sys2Proof.Machine
end

