-- ==== Sys2Proof/Machine/Sched.lean ====
section
/-! DEFINITION. The egress hierarchy and the ingress scheduler (chapter 9, R322 to R334). -/

namespace Sys2Proof.Machine

/-! ### Nodes (R322, R323) -/

def State.modNode (s : State) (lvl n : Nat) (f : SchedNode → SchedNode) : State :=
  { s with tm := { s.tm with nodes := SMap.modify {} s.tm.nodes (nodeKey lvl n) f } }

def ndPrio (c : Nat) : Nat := bitsOf c 16 3
def ndWeight (c : Nat) : Nat := bitsOf c 19 12
def ndShaper (c : Nat) : Nat := bitsOf c 31 18
def ndEnable (c : Nat) : Bool := bitOf c 49
def ndGate (c : Nat) : Nat := bitsOf c 50 3
def ndPfcClass (c : Nat) : Nat := bitsOf c 53 3
def ndPfcEn (c : Nat) : Bool := bitOf c 56

/-- Nodes of each level (R322). -/
def levelNodes (lvl : Nat) : Nat :=
  match lvl with | 0 => 256 | 1 => 4096 | 2 => 16384 | 3 => 65536 | 4 => 65536 | _ => 0

/-- The configured children of a node, in node order. -/
def State.children (s : State) (lvl n : Nat) : List Nat :=
  (s.tm.nodes.filter fun e => e.1 / 65536 == lvl + 1 && e.2.cfg != 0 && ndParent e.2.cfg == n).map fun e => e.1 % 65536

/-- Eligibility (R325): 0 none, 1 excess, 2 committed; the port node of a MAC that is not a port's first is never
eligible (R322, R361). -/
def State.elig (s : State) (lvl n : Nat) : Nat :=
  let c := (s.node lvl n).cfg
  if !ndEnable c || (lvl == 0 && !s.isPort n) then 0
  else if ndShaper c = 0x3FFFF then 1
  else
    let x := s.shaper (ndShaper c)
    if !spEnable x.cfg then 1
    else if 0 < x.com then 2
    else if 0 < x.peak ∨ spPir x.cfg = 0xFFFFFFFF then 1
    else 0

/-- The start tick of a frame that port `p` selects now (R328). -/
def State.startTick (s : State) (p : Nat) : Nat :=
  s.pwr.time.toNat + s.fld .tgt_PORT_CFG [p] f_tgt_PORT_CFG_tx_offset

/-- Whether a class of a port is paused by PFC (R329, R366). -/
def State.pfcPaused (s : State) (p c : Nat) : Bool := s.paused p c

/-- has_work of queue node `n` but for its gate and PFC (R325). -/
def State.queueReady (s : State) (p n : Nat) : Bool :=
  match s.egressFront n with
  | some k => !(s.gateEn p && decide (s.gateMaxFrame p < k.len))
  | none => false
def State.queueGate (s : State) (p n : Nat) : Bool := s.gateAdmits p (ndGate (s.node 4 n).cfg) (s.startTick p)
def State.queuePfc (s : State) (p n : Nat) : Bool :=
  let c := (s.node 4 n).cfg
  ndPfcEn c && s.pfcPaused p (ndPfcClass c)

/-- has_work of a node under port `p` (R325); `k` is 4 less the node's level. DESIGN CHOICE, log entry 44. -/
def State.hasWork (s : State) (p : Nat) : Nat → Nat → Bool
  | 0, n => s.queueReady p n && s.queueGate p n && !s.queuePfc p n
  | k + 1, n => (s.children (3 - k) n).any fun c => s.elig (4 - k) c != 0 && s.hasWork p k c

/-- The deficits of nodes without work are zero (R326). -/
def State.schedSettle (s : State) : State :=
  s.each (s.tm.nodes.filter fun e => e.2.deficit != 0) fun s e =>
    let lvl := e.1 / 65536
    let n := e.1 % 65536
    if s.hasWork (s.portOf lvl n) (4 - lvl) n then s else s.modNode lvl n fun x => { x with deficit := 0 }

/-! ### Selection (R326) -/

/-- wrr of R326: the child of a set served next. -/
def State.wrr (s : State) (lvl n group p : Nat) (set : List Nat) : State × Nat :=
  let key := group * 8 + p
  let last := SMap.get 0 (s.node lvl n).ptr key
  let keep := last != 0 && set.contains (last - 1) && decide (0 < (s.node (lvl + 1) (last - 1)).deficit)
  if keep then (s, last - 1)
  else
    let c := ((set.find? fun c => last ≤ c).getD (set.headD 0))
    let s := s.modNode (lvl + 1) c fun x => { x with deficit := x.deficit + ndWeight x.cfg * 64 }
    (s.modNode lvl n fun x => { x with ptr := SMap.put 0 x.ptr key (c + 1) }, c)

/-- The sets of R326 in order: committed before excess, then priorities. -/
def selectSets : List (Nat × Nat) := [2, 1].flatMap fun g => (List.range 8).map fun p => (g, p)

/-- The path chosen below a node of port `p`, as node numbers by descending level; `k` is 4 less its level. -/
def State.select (s : State) (p : Nat) : Nat → Nat → State × Option (List Nat)
  | 0, _ => (s, some [])
  | k + 1, n =>
    let lvl := 3 - k
    let kids := (s.children lvl n).filter fun c => s.hasWork p k c
    let set (g pr : Nat) : List Nat :=
      kids.filter fun c => s.elig (lvl + 1) c == g && ndPrio (s.node (lvl + 1) c).cfg == pr
    match selectSets.find? fun e => !(set e.1 e.2).isEmpty with
    | none => (s, none)
    | some (g, pr) =>
      let (s, c) := s.wrr lvl n g pr (set g pr)
      match s.select p k c with
      | (s, some l) => (s, some (c :: l))
      | (s, none) => (s, none)

/-- Queue nodes below a port. -/
def State.queuesOf (s : State) (p : Nat) : List Nat :=
  ((s.tm.nodes.filter fun e => e.1 / 65536 == 4 && e.2.cfg != 0).map fun e => e.1 % 65536).filter
    fun n => s.portOf 4 n == p

/-- Frames that a gate holds now are marked and counted once (R354, R360), and those that PFC holds are counted
(R570). -/
def State.markHeld (s : State) (p n : Nat) : State :=
  match s.egressFront n with
  | some x =>
    if s.queueReady p n then
      let s := s.when (s.queuePfc p n) (·.count1 (191 + p / 16) 6)
      if !s.queueGate p n && !x.held then
        let s := (s.addSat .tgt_PORT_STATUS [p] f_tgt_PORT_STATUS_held 1).count1 (191 + p / 16) 5
        s.modQ (524288 + n) fun y => { y with
          pkts := y.pkts.map fun k => if k.id = x.id then { k with held := true } else k }
      else s
    else s
  | none => s

/-- The charges of a selection (R327): deficits below the port, and every shaper named on the path. -/
def State.chargePath (s : State) (p : Nat) (path : List Nat) (len : Nat) : State :=
  let nodes := (0, p) :: path.mapIdx fun i n => (i + 1, n)
  s.each nodes fun s (lvl, n) =>
    let s := s.when (lvl != 0) fun s => s.modNode lvl n fun x => { x with deficit := x.deficit - len }
    let sh := ndShaper (s.node lvl n).cfg
    if sh = 0x3FFFF then s else s.shaperCharge sh len

/-- The port may select (R328, R365, R366, R370): it is ON, its transmit path is free, it is not paused, and it
is not held with its link down. -/
def State.portMaySelect (s : State) (p : Nat) : Bool :=
  s.portOn p && (SMap.get none s.tm.tx p).isNone && !s.paused p 8 &&
    (s.flag .lmac_PORT_STATUS [p] f_lmac_PORT_STATUS_link_up ||
      !s.flag .lmac_PORT_CTRL [p] f_lmac_PORT_CTRL_down_mode) && s.elig 0 p != 0

/-- A frame selected from egress queue `n` starts on port `p`; an uncorrectable cell ends or discards it
(R284). -/
def State.startFrame (s : State) (p n : Nat) (x : QPkt) (found : List CellFind) : State :=
  let q := 524288 + n
  if firstBad ((s.q q).leaving x.id) found = some 0 then s.sendFront q x found
  else
    let t : TxFrame := { a := x.a, start := s.startTick p, whole := false, id := x.id, queue := q }
    let s := { s with tm := { s.tm with tx := SMap.put none s.tm.tx p (some t) } }
    (s.traceWay x.a.trace 0x0D 0 [BitVec.ofNat 8 p, if x.held then 1 else 0]).sendFront q x found

/-- PORT_SELECTION (R328): the port node selects the next frame, after the refills that are due (R335). DESIGN CHOICE, log entry 44. -/
def execPortSelection (p : Fin 256) (found : List CellFind) (s : State) : Res :=
  let s := s.refillDue
  if !s.portMaySelect p then go s
  else
    let qs := s.queuesOf p
    let s := s.each qs fun s n => s.dropOversize (524288 + n) (s.q (524288 + n)).pkts.length
    let s := (s.each qs fun s n => s.markHeld p n).schedSettle
    match s.select p 4 p with
    | (s, some path) =>
      match path.getLast? with
      | some n =>
        match s.egressFront n with
        | some x =>
          let s := (s.chargePath p path x.len).count1 (191 + p.val / 16) 4
          go (s.startFrame p n x found).schedSettle
        | none => go s
      | none => go s
    | (s, none) => go s

/-! ### Ingress scheduling by credit (R330 to R332) -/

/-- Whether the front packet of a VOQ may be selected (R287, R331): it is complete, or may cut through. -/
def State.voqReady (s : State) (x : Queue) : Bool :=
  match x.front with
  | some p =>
    p.sent == 0 && (s.pktChecked p.a || (p.ct && s.frameState p.a.fid == 1 && decide (2 ≤ cellsOf p.len)))
  | none => false

/-- VOQs that may be served, in ascending order, with their priority: they hold credit, and SYS_MAP sends for
them (R331, R402). -/
def State.voqSet (s : State) : List (Nat × Nat) :=
  let prios := s.fld .sch_ING_CFG [] f_sch_ING_CFG_class_prio
  (s.tm.queues.filter fun e =>
    isVoq e.1 && e.2.state == 2 && decide (0 < e.2.balance) && s.voqReady e.2 &&
      s.flag .fab_SYS_MAP [e.1 / 8] f_fab_SYS_MAP_valid).map fun e => (e.1, bitsOf prios (3 * (e.1 % 8)) 3)

/-- The VOQ served next (R331). -/
def State.voqNext (s : State) : Option (Nat × Nat) :=
  let set := s.voqSet
  match (List.range 8).find? fun p => set.any fun e => e.2 == p with
  | none => none
  | some p =>
    let l := set.filter fun e => e.2 == p
    let last := SMap.get 0 s.tm.lastVoq p
    match l.find? fun e => last ≤ e.1 with
    | some e => some e
    | none => l.head?

/-- The header of a VOQ packet's cells (R386, R389), with the destination's next packet number. -/
def State.voqHeader (s : State) (q : Nat) (p : QPkt) : State × FCell :=
  let e := s.rdAt p.a.seq .fab_SYS_MAP [q / 8]
  let dst := f_fab_SYS_MAP_dev.get e
  let key := dst * 2 + f_fab_SYS_MAP_pair.get e
  let no := SMap.get 0 s.tm.pktNo key
  let h : FCell :=
    { kind := 1, dst, pair := f_fab_SYS_MAP_pair.get e == 1, src := s.devId, tag := p.a.trace != 0, pkt := no
      len := p.len, port := f_fab_SYS_MAP_port.get e, cls := q % 8, dp := p.a.dp, srcPair := s.fabTwin
      trace := p.a.trace, fbk := p.a.fastBreak }
  ({ s with tm := { s.tm with pktNo := SMap.put 0 s.tm.pktNo key ((no + 1) % 2 ^ 23) } }, h)

/-- A selected VOQ packet is sent as cells (R331); an uncorrectable cell ends or discards it (R284). -/
def State.sendVoq (s : State) (q : Nat) (p : QPkt) (found : List CellFind) : State :=
  let cells := (s.q q).leaving p.id
  if firstBad cells found = some 0 then s.sendFront q p found
  else
    let cut := !s.pktChecked p.a
    let (s, h) := s.voqHeader q p
    let p := { p with hdr := some h, cut }
    let s := s.modQ q fun x => { x with pkts := x.pkts.map fun y => if y.id = p.id then p else y }
    (s.when cut (·.count1 (175 + cellSection ((cells.map (·.cell)).headD 0)) 8)).sendFront q p found

/-- INGRESS_SELECTION (R331, R477): the ingress scheduler selects a VOQ; without the serve it discards what it
selects while it follows a partner, and selects nothing in the gap. DESIGN CHOICE, log entry 44. -/
def execIngressSelection (found : List CellFind) (s : State) : Res :=
  if !(s.serves || s.shadow) || s.tm.queues.any (fun e => isVoq e.1 && e.2.partly) then go s
  else match s.voqNext with
    | some (q, prio) =>
      match (s.q q).front with
      | some p =>
        let s := s.addBalance q (-(p.len : Int))
        let s := { s with tm := { s.tm with lastVoq := SMap.put 0 s.tm.lastVoq prio (q + 1) } }
        let s := s.count1 (191 + q / 32768) 4
        if s.serves then go (s.sendVoq q p found)
        else go (((s.addWrap .twn_CNT [7] f_twn_CNT_count 1).qDiscard q p none).qLeft q)
      | none => go s
    | none => go s

/-- CREDIT_HOLD_EXPIRY (R332): a VOQ empty for credit_hold µs with a balance above zero gives it up. -/
def execCreditHoldExpiry (q : Fin 524288) (s : State) : Res :=
  if s.creditDue q then go (s.creditRelease q) else go s

end Sys2Proof.Machine
end

