-- ==== Sys2Proof/Machine/Ports.lean ====
section
/-! DEFINITION. Line ports: the end of a received frame, transmission, timestamps and the port lifecycle (chapter
10, R363 to R376). -/

namespace Sys2Proof.Machine

/-! ### The end of a received frame (R363, R366, R376, R379) -/

/-- What a MAC Control frame asks (R366): opcode 0x0001 PAUSE and 0x0101 PFC, by the frame formats of IEEE
802.3 (PRESUMED, log entry 7), where fc_mode uses it. -/
def State.pauseOf (s : State) (m : Nat) (frame : List Byte) : Option PauseReq :=
  let at' (o n : Nat) : Nat := beNat ((frame.drop o).take n)
  match at' 14 2, s.fld .lmac_PORT_FC [m] f_lmac_PORT_FC_fc_mode with
  | 0x0001, 1 => some (.pause (at' 16 2))
  | 0x0101, 2 => some (.pfc (at' 16 2 % 256) ((List.range 8).map fun c => at' (18 + 2 * c) 2))
  | _, _ => none

/-- The checks of a frame are known (R29, R177, R287): a packet not yet sent is discarded where they failed, and a
last cell that waited for them is handed on. -/
def State.frameKnown (s : State) (fid : Nat) (good : Bool) : State :=
  let s := s.setFrame fid (if good then 0 else 2)
  let mine := s.tm.tails.filter fun t => t.1 == fid
  let s := { s with tm := { s.tm with tails := s.tm.tails.filter fun t => t.1 != fid } }
  let s := s.each mine fun s t =>
    if good then { s with tm := { s.tm with dataQ := s.tm.dataQ ++ [t.2] } } else s.cellVoid t.2
  if good then s else s.qFailed fid

/-- The frame in progress on port `m` ends: its counters, its checks, and what becomes of it. DEDUCED, log entry 47. -/
def State.rxEnd (s : State) (m : Nat) (f : RxFrame) (fcsOk : Bool) : State :=
  let size := f.raw.length + 4
  let s := ((s.lineCount m 0 1).lineCount m 1 size).count1 (111 + m / 4) (4 + m % 4)
  let control := beNat ((f.raw.drop 12).take 2) == 0x8808
  let runt := decide (size < 64)
  let s := if runt then s.lineCount m 3 1
    else if f.oversize then s.lineCount m 4 1
    else if !fcsOk then s.lineCount m 2 1
    else if control then
      let s := s.lineCount m 6 1
      match s.pauseOf m f.raw with
      | some r => s.modPort m fun x => { x with reports := x.reports ++ [r] }
      | none => s
    else s
  let checked := fcsOk && !f.oversize
  let taken := !f.dropped && !f.barred
  let icvBad := taken && checked && f.icvBad
  let s := s.when icvBad fun s => (s.lineCount m 14 1).count1 54 5
  let s := if taken && checked && !f.icvBad then
      match f.sa with
      | some (x, pn) => s.saRaise x pn
      | none => s
    else s
  let gone := !taken || (icvBad && !f.entered)
  let s := s.modRx m f.fid fun f => { f with ended := true }
  let s := if gone then
      ((s.modPort m fun x => { x with rx := x.rx.filter fun r => r.fid != f.fid }).setFrame f.fid 0).logWaiting m
    else s.frameKnown f.fid (checked && !icvBad)
  s.drainRx m

/-- RX_FRAME_END (R363): the last byte of the frame in progress on port `m` has arrived; `corrected` and
`uncorrectable` RS(544,514) codewords overlapped it, and one that the FEC cannot correct fails its FCS. -/
def execRxFrameEnd (m : Fin 256) (fcsOk : Bool) (corrected uncorrectable : Nat) (s : State) : Res :=
  match ((s.port m).rx).find? fun f => !f.ended with
  | some f =>
    let s := (s.lineCount m 12 corrected).lineCount m 13 uncorrectable
    go (s.rxEnd m f (fcsOk && uncorrectable == 0))
  | none => go s

/-! ### PTP event messages (R369) -/

/-- Where the PTP message of a recognised frame begins, and over what it is carried: 0 Ethernet, 4 IPv4 UDP, 6
IPv6 UDP (R369). PRESUMED, log entry 7. -/
def ptpFind (b : List Byte) : Option (Nat × Nat) :=
  let ty (o : Nat) : Nat := beNat ((b.drop o).take 2)
  let vlan (o : Nat) : Bool := ty o == 0x8100 || ty o == 0x88A8
  let o := if vlan 12 then (if vlan 16 then 20 else 16) else 12
  let byte (i : Nat) : Nat := (b.getD i 0).toNat
  if ty o = 0x88F7 then some (o + 2, 0)
  else if ty o = 0x0800 then
    let u := o + 2 + byte (o + 2) % 16 * 4
    if byte (o + 11) = 17 ∧ ty (o + 8) % 8192 = 0 ∧ ty (u + 2) = 319 then some (u + 8, 4) else none
  else if ty o = 0x86DD then
    if byte (o + 8) = 17 ∧ ty (o + 44) = 319 then some (o + 50, 6) else none
  else none

/-- Bytes written over a frame from an offset. -/
def overwrite (b : List Byte) (o : Nat) (v : List Byte) : List Byte :=
  b.take o ++ v ++ b.drop (o + v.length)

/-- A UDP checksum corrected incrementally for words replaced (R369). -/
def sumFix (old new : List Nat) (sum : Nat) : Nat :=
  0xFFFF - onesSum ((0xFFFF - sum) :: (old.map fun w => 0xFFFF - w) ++ new)

/-- A Sync message with its originTimestamp written (R369). PRESUMED, log entry 7. -/
def State.oneStep (s : State) (b : List Byte) (o kind : Nat) (ts : Nat) : List Byte :=
  let offset := if s.flag .cpr_TIME_CFG [] f_cpr_TIME_CFG_tai_valid then (s.rd .cpr_TAI_OFFSET []).toNat else 0
  let tai := (ts + offset) % 2 ^ 64
  let stamp := natBE 6 (tai / 2000000000) ++ natBE 4 (tai % 2000000000 / 2)
  let words (l : List Byte) : List Nat := (List.range 5).map fun i => beNat ((l.drop (2 * i)).take 2)
  let sumAt := o - 2
  let out := overwrite b (o + 34) stamp
  match kind with
  | 4 => overwrite out sumAt [0, 0]
  | 6 => overwrite out sumAt (natBE 2 (sumFix (words ((b.drop (o + 34)).take 10)) (words stamp)
      (beNat ((b.drop sumAt).take 2))))
  | _ => out

/-- The transmit timestamp of a frame with start tick `start` (R368). -/
def State.txStamp (s : State) (m start : Nat) : Nat :=
  start + (64 + s.portBpt m - 1) / s.portBpt m + s.fld .lmac_PORT_CFG [m] f_lmac_PORT_CFG_tx_delay

/-- A transmit timestamp enters TS_FIFO, or is lost (R369). -/
def State.tsPush (s : State) (m type seq ts : Nat) : State :=
  if ((s.port m).tsFifo).length < 16 then s.modPort m fun x => { x with tsFifo := x.tsFifo ++ [(type, seq, ts)] }
  else s.addSat .lmac_PORT_STATUS [m] f_lmac_PORT_STATUS_ts_lost 1

/-- PTP handling of a frame that is sent (R369): its bytes, and the state after it. -/
def State.ptpSend (s : State) (m start : Nat) (b : List Byte) : List Byte × State :=
  let mode := s.fld .lmac_PORT_CTRL [m] f_lmac_PORT_CTRL_ptp_mode
  if mode ≠ 1 ∧ mode ≠ 2 then (b, s)
  else match ptpFind b with
    | none => (b, s)
    | some (o, kind) =>
      let type := (b.getD o 0).toNat % 16
      if 3 < type then (b, s)
      else
        let ts := s.txStamp m start
        let one := mode == 2 && !s.flag .lmac_MSEC_CFG [m] f_lmac_MSEC_CFG_enable && type == 0 &&
          !bitOf (b.getD (o + 6) 0).toNat 1
        if one then (s.oneStep b o kind ts, s)
        else (b, s.tsPush m type (beNat ((b.drop (o + 30)).take 2)) ts)

/-! ### Transmission (R365, R380) -/

/-- A frame leaves on the line: protected where the port's transmit channel is valid, counted, and traced. -/
def State.lineSend (s : State) (m : Nat) (t : TxFrame) : State :=
  let (b, s) := s.ptpSend m t.start t.a.bytes
  let chan := if s.flag .lmac_MSEC_CFG [m] f_lmac_MSEC_CFG_enable then s.txChannel m else none
  let (out, s) := match chan with
    | some c => let (o, s) := s.msecTx c b; (o, s.count1 54 4)
    | none => (some b, s)
  match out with
  | none => (s.lineCount m 15 1).count1 54 5
  | some o =>
    let s := s.emit (.lineFrame m o t.badEnd)
    let s := ((s.lineCount m 7 1).lineCount m 8 (o.length + 4)).count1 (111 + m / 4) (8 + m % 4)
    s.traceWay t.a.trace 0x0E 0 [BitVec.ofNat 8 m, if t.badEnd then 1 else 0]

/-- TX_FRAME (R365): the frame selected on port `m`, once every byte of it has left its queue, leaves the final
edit; the pause frames that waited for its end follow it (R367). -/
def execTxFrame (m : Fin 256) (s : State) : Res :=
  match SMap.get none s.tm.tx m with
  | some t =>
    if !t.whole then go s
    else
      let s := { s with tm := { s.tm with tx := SMap.put none s.tm.tx m none } }
      let s := if s.txMax m < t.a.bytes.length + 4 then (s.lineCount m 9 1).traceWay t.a.trace 0x10 0 [6]
        else if !s.flag .lmac_PORT_STATUS [m.val] f_lmac_PORT_STATUS_link_up then
          (s.lineCount m 11 1).traceWay t.a.trace 0x10 0 [7]
        else s.lineSend m t
      go (s.pauseFlush m)
  | none => go s

/-- A read of TS_FIFO (R375): its first entry, which is popped. -/
def State.tsPop (s : State) (m : Nat) : Word × State :=
  match (s.port m).tsFifo with
  | (type, seq, ts) :: rest =>
    (BitVec.ofNat 64 (2 ^ 63 + type % 16 * 2 ^ 59 + seq % 65536 * 2 ^ 43 + ts % 2 ^ 43),
      s.modPort m fun x => { x with tsFifo := rest })
  | [] => (0, s)

/-- TS_FIFO_POP (R375). -/
def execTsFifoPop (m : Fin 256) (s : State) : Res :=
  let (v, s) := s.tsPop m
  go (s.emit (.readData v))

/-! ### The port lifecycle (R370) -/

def portLc (m : Nat) : LcReg :=
  ⟨.lmac_PORT_STATUS, [m], f_lmac_PORT_STATUS_state, f_lmac_PORT_STATUS_restart_pending,
    f_lmac_PORT_STATUS_stop_pending⟩

/-- The power domain of a port's lanes (R361). -/
def portDomain (m : Nat) : Nat := if m < 128 then 12 else 13

/-- A port can start: its lane power domain is ON and its SerDes quad is available (R25, R370). DEDUCED, log entry 75. -/
def State.portPowered (s : State) (m : Nat) : Bool := s.pdOn (portDomain m) && !s.tileOut 6 (m / 4)

/-- A request for ON or OFF of a port; a start first needs its lane power domain (R370, R622). -/
def State.portRequest (s : State) (m : Nat) (on : Bool) : State :=
  if s.isPort m then
    let s := s.when on (·.pdWanted (portDomain m))
    (s.lcRequest (portLc m) on (s.portPowered m)).1.healthCheck
  else s

/-- The cycle of rest of a port ends (R370, R620). -/
def State.portRest (s : State) (m : Nat) : State :=
  ((s.lcRest (portLc m) (s.portPowered m)).1).healthCheck

/-- A write of PORT_CTRL (R372): the fields are stored, and enable requests the change. -/
def State.portCtrlWrite (s : State) (m : Nat) (v : Word) : State :=
  let v := v &&& (f_lmac_PORT_CTRL_ptp_mode.mask ||| f_lmac_PORT_CTRL_down_mode.mask ||| f_lmac_PORT_CTRL_enable.mask)
  (s.wr .lmac_PORT_CTRL [m] v).portRequest m (f_lmac_PORT_CTRL_enable.get v == 1)

/-- PORT_ENABLE (R370): a direct write of PORT_CTRL, which ends in-step operation. -/
def execPortEnable (m : Fin 256) (v : Word) (s : State) : Res := go ((s.portCtrlWrite m v).stepEnd 3)

/-- PORT_START_DONE (R370). -/
def execPortStartDone (m : Fin 256) (s : State) : Res :=
  if s.portState m = 1 then go (s.lcStartDone (portLc m)) else go s

/-- LINK_UP (R370): FEC and PCS have locked on a port that is ON. -/
def execLinkUp (m : Fin 256) (s : State) : Res :=
  if s.portOn m then go (s.setFlag .lmac_PORT_STATUS [m.val] f_lmac_PORT_STATUS_link_up true).healthCheck else go s

/-- The link of a port goes down (R374). -/
def State.linkDown (s : State) (m : Nat) : State :=
  if s.flag .lmac_PORT_STATUS [m] f_lmac_PORT_STATUS_link_up then
    let s := s.setFlag .lmac_PORT_STATUS [m] f_lmac_PORT_STATUS_link_up false
    (s.setFlag .lmac_PORT_STATUS [m] f_lmac_PORT_STATUS_link_down_seen true).healthCheck
  else s

/-- LINK_DOWN (R365). -/
def execLinkDown (m : Fin 256) (s : State) : Res := go (s.linkDown m)

/-- PORT_STOP_DONE (R370): no frame is in progress in either direction, the lanes power down and the port is OFF. DEDUCED, log entry 47. -/
def execPortStopDone (m : Fin 256) (s : State) : Res :=
  if s.portState m = 3 ∧ ((s.port m).rx).all (·.ended) ∧ (SMap.get none s.tm.tx m).isNone then
    let s := (s.linkDown m).modPort m fun x => { x with reports := [], pausedUntil := [], pauseAt := [], pauseSent := [] }
    let s := s.setFld .lmac_PORT_STATUS [m.val] f_lmac_PORT_STATUS_tx_xoff 0
    go (s.lcStopDone (portLc m))
  else go s

end Sys2Proof.Machine
end

