-- ==== Sys2Proof/Machine/Fabric.lean ====
section
/-! DEFINITION. The cell fabric: cells received, reassembly, requests and grants, spraying, and the lanes (chapter
10, R385 to R405). -/

namespace Sys2Proof.Machine

/-! ### Lane states (R396) -/

/-- A lane enters a state: 0 OFF, 1 SIGNAL, 2 ALIGN, 3 HELLO, 4 UP, 5 STOPPING. Outside UP it holds no credit, and
cells handed to it go back to the framer but for those that a stop still sends; at UP the counts of what it sends begin,
and the counts of what it receives begin before, since its partner may be UP first. DESIGN CHOICE, log entry 48. -/
def State.laneEnter (s : State) (l st : Nat) : State :=
  let s := s.setFld .fab_LANE_STATUS [l] f_fab_LANE_STATUS_state st
  let s := s.when (st != 4 && st != 5) (·.laneGive l)
  let old := (s.tm.rxData.filter fun e => e.1 == l).length
  let s := s.modLane l fun x =>
    let x := { x with
      since := s.cycle, posted := false, good := 0, bad := 0, sent0 := 0, sent1 := 0, credit0 := 0, credit1 := 0
      reachAt := none, statusAt := s.cycle }
    if st = 4 then x
    else { x with
      offer0 := 0, offer1 := 0, acks := 0, heard := false, ackSent := false, helloAt := 0, link := []
      recv0 := 0, recv1 := 0, freed0 := 0, freed1 := 0, lost0 := 0, lost1 := 0, old }
  (s.laneShow l).healthCheck

/-- A lane returns to SIGNAL from HELLO or UP, counted in retrains. DESIGN CHOICE, log entry 48. -/
def State.laneRetrain (s : State) (l : Nat) : State :=
  (s.addSat .fab_LANE_STATUS [l] f_fab_LANE_STATUS_retrains 1).laneEnter l 1

/-- The power domain of a lane (R385). -/
def laneDomain (l : Nat) : Nat := if l < 160 then 16 else 17

/-- A lane can start: its power domain is ON and its SerDes quad is available (R25, R370). DEDUCED, log entry 75. -/
def State.lanePowered (s : State) (l : Nat) : Bool := s.pdOn (laneDomain l) && !s.tileOut 7 (l / 4)

/-- A request for ON or OFF of a lane (R370, R396, R622). -/
def State.laneRequest (s : State) (l : Nat) (on : Bool) : State :=
  let s := s.when on (·.pdWanted (laneDomain l))
  match s.laneState l, on with
  | 0, true => if s.lanePowered l && !(s.lane l).restart then s.laneEnter l 1 else s
  | 0, false => s.modLane l fun x => { x with restart := false }
  | 5, b => s.modLane l fun x => { x with restart := b }
  | _, true => s
  | _, false => s.laneEnter l 5

/-- A write of LANE_EN (R401): each bit requests ON or OFF of its lane. -/
def State.laneEnWrite (s : State) (i : Nat) (v : Word) : State :=
  ((s.wr .fab_LANE_EN [i] v).each (List.range 64) fun s j => s.laneRequest (64 * i + j) (bitOf v.toNat j)).healthCheck

/-- LANE_ENABLE (R401). -/
def execLaneEnable (i : Fin 5) (v : Word) (s : State) : Res :=
  go (s.tmWrite .fab_LANE_EN [i.val] (·.laneEnWrite i v))

/-- LANE_SIGNAL_DONE (R396): signal detected, equalisers adapted and FEC codewords locked. -/
def execLaneSignalDone (l : Fin 320) (s : State) : Res :=
  if s.laneState l = 1 then go (s.laneEnter l 2) else go s

/-- LANE_SIGNAL_TIMEOUT (R23, R396): a lane still in SIGNAL after 100 ms posts FAB_LANE once, with its SerDes quad. -/
def execLaneSignalTimeout (l : Fin 320) (s : State) : Res :=
  let x := s.lane l
  if s.laneState l = 1 ∧ !x.posted ∧ s.passed x.since 200000000 then
    go ((s.modLane l fun x => { x with posted := true }).postEventAt 0x016 (locTile 4 4 1 0x3F 7 (l / 4)) 0 (natLE 2 l))
  else go s

/-- LANE_HELLO_TIMEOUT (R396): 10 ms in HELLO without a completed exchange. -/
def execLaneHelloTimeout (l : Fin 320) (s : State) : Res :=
  if s.laneState l = 3 ∧ s.passed (s.lane l).since 20000000 then go (s.laneRetrain l) else go s

/-- LANE_ERROR_RETRAIN (R396, R404): what 10 ms of codewords showed is counted, and an UP lane with more than one
uncorrectable codeword in 10⁶ returns to SIGNAL. -/
def execLaneErrorRetrain (l : Fin 320) (corrected uncorrectable codewords : Nat) (s : State) : Res :=
  let s := s.addSat .fab_LANE_ERR [l.val] f_fab_LANE_ERR_fec_corrected corrected
  let s := s.addSat .fab_LANE_ERR [l.val] f_fab_LANE_ERR_fec_uncorrectable uncorrectable
  if s.laneState l = 4 ∧ codewords < uncorrectable * 1000000 then go (s.laneRetrain l) else go s

/-- Every cell handed to a lane is sent, but for a FAILED die-to-die link (R18). -/
def State.laneDrain (s : State) (l : Nat) : State :=
  if s.d2dHealth = 2 then s else s.each (s.lane l).tx fun s _ => s.laneSend l

/-- LANE_STOP_DONE (R396): the last cells are sent and the lane powers down. -/
def execLaneStopDone (l : Fin 320) (s : State) : Res :=
  if s.laneState l = 5 then go ((s.laneDrain l).laneEnter l 0) else go s

/-- In a cycle each lane that is UP or stopping sends a cell that was handed to it; lanes send idle cells while the
die-to-die link is FAILED or another device holds the serve (R18, R388, R393). DESIGN CHOICE, log entries 1, 48. -/
def State.laneTick (s : State) : State :=
  if s.d2dHealth = 2 then s
  else
    let live := s.tm.lanes.filter fun e => s.laneState e.1 == 4 || (s.laneState e.1 == 5 && !e.2.tx.isEmpty)
    s.each live fun s (l, x) =>
      let s := s.when (x.credit false == 0) (·.count1 (210 + l / 4) 7)
      if x.tx.isEmpty || !s.serves then s.count1 (210 + l / 4) 6 else s.laneSend l

/-- The cycle of rest of a lane ends (R370, R396, R620). -/
def State.laneRest (s : State) (l : Nat) : State :=
  if s.laneState l = 0 ∧ (s.lane l).restart then
    let s := s.modLane l fun x => { x with restart := false }
    s.when (s.lanePowered l) (·.laneEnter l 1)
  else s

/-! ### Link cells (R386, R394 to R396) -/

/-- A link cell with these messages leaves on a lane. -/
def State.linkSend (s : State) (l : Nat) (msgs : List Nat) : State :=
  let c : FCell :=
    { kind := 3, src := s.devId, srcPair := s.fabTwin, idx := msgs.length
      payload := msgs.flatMap fun m => natBE 8 m }
  s.emit (.cell l 3 [c.header] (padTo 256 c.payload))

/-- The exchange is complete: three HELLOs with ack in succession were received, and one with ack was sent. -/
def State.helloCheck (s : State) (l : Nat) : State :=
  let x := s.lane l
  if s.laneState l = 3 ∧ 3 ≤ x.acks ∧ x.ackSent then s.laneEnter l 4 else s

/-- LANE_HELLO_SEND (R394, R396): in HELLO state, every 1 µs; 256 data and 32 control credits are offered. No link
cell leaves while the die-to-die link is FAILED (R18). -/
def execLaneHelloSend (l : Fin 320) (s : State) : Res :=
  let x := s.lane l
  if s.d2dHealth ≠ 2 ∧ s.laneState l = 3 ∧ (x.helloAt = 0 ∨ s.passed (x.helloAt - 1) 2000) then
    let ack := if x.heard then 1 else 0
    let m := 2 ^ 60 + ack * 2 ^ 59 + s.devId * 2 ^ 48 + 1 * 2 ^ 44 + l.val * 2 ^ 35 + 256 * 2 ^ 23 + 32 * 2 ^ 15
    let s := s.linkSend l [m]
    go ((s.modLane l fun x => { x with helloAt := s.cycle + 1, ackSent := x.ackSent || x.heard }).helloCheck l)
  else go s

/-- The link message received first on a lane, where it is of a type, with the cells received before it; and the state
without it. -/
def State.linkTake (s : State) (l type : Nat) : Option (Nat × Nat × State) :=
  match (s.lane l).link with
  | (m, r) :: rest => if m / 2 ^ 60 = type then some (m, r, s.modLane l fun x => { x with link := rest }) else none
  | [] => none

/-- LINK_HELLO (R394, R396): a HELLO is valid unless it carries another version or, from an endpoint, the
receiver's own identifier. -/
def execLinkHello (l : Fin 320) (s : State) : Res :=
  match s.linkTake l 1 with
  | some (m, _, s) =>
    let valid := bitsOf m 44 4 == 1 && !(!bitOf m 58 && bitsOf m 48 10 == s.devId)
    if !valid then go (s.modLane l fun x => { x with acks := 0 })
    else
      let s := s.setFld .fab_LANE_STATUS [l.val] f_fab_LANE_STATUS_partner_dev (bitsOf m 48 10)
      let s := s.setFld .fab_LANE_STATUS [l.val] f_fab_LANE_STATUS_partner_lane (bitsOf m 35 9)
      let s := s.setFld .fab_LANE_STATUS [l.val] f_fab_LANE_STATUS_partner_role (bitsOf m 58 1)
      let s := s.modLane l fun x => { x with
        heard := true, acks := if bitOf m 59 then x.acks + 1 else 0
        offer0 := bitsOf m 23 12, offer1 := bitsOf m 15 8 }
      go (s.helloCheck l |>.laneShow l)
  | none => go s

/-- LINK_REACH (R394): chunk c of the lane's reach mask. -/
def execLinkReach (l : Fin 320) (s : State) : Res :=
  match s.linkTake l 2 with
  | some (m, _, s) =>
    let c := bitsOf m 55 5
    go (s.modLane l fun x => { x with
      reach := x.reach - bitsOf x.reach (32 * c) 32 * 2 ^ (32 * c) + m % 2 ^ 32 * 2 ^ (32 * c) })
  | none => go s

/-- LINK_SYNC (R395): the cells that the sender shows as sent and that had not come when the message came never will, and
are freed. -/
def execLinkSync (l : Fin 320) (s : State) : Res :=
  match s.linkTake l 3 with
  | some (m, r, s) =>
    let lost := (m % 2 ^ 24 + 2 ^ 24 - r) % 2 ^ 24
    go (s.modLane l fun x =>
      if bitOf m 59 then
        { x with freed1 := (x.freed1 + (lost + 2 ^ 24 - x.lost1)) % 2 ^ 24, lost1 := lost }
      else { x with freed0 := (x.freed0 + (lost + 2 ^ 24 - x.lost0)) % 2 ^ 24, lost0 := lost })
  | none => go s

/-- LINK_CREDIT (R395): the cells the receiver has freed. -/
def execLinkCredit (l : Fin 320) (s : State) : Res :=
  match s.linkTake l 4 with
  | some (m, _, s) =>
    go ((s.modLane l fun x =>
      if bitOf m 59 then { x with credit1 := m % 2 ^ 24 } else { x with credit0 := m % 2 ^ 24 }).laneShow l)
  | none => go s

/-- LINK_STATUS_SEND (R395): an UP lane sends SYNC and CREDIT for both priorities, at least every 1 µs.
DESIGN CHOICE, log entry 48. -/
def execLinkStatusSend (l : Fin 320) (s : State) : Res :=
  if s.laneState l = 4 ∧ s.d2dHealth ≠ 2 then
    let x := s.lane l
    let p := 2 ^ 59
    let s := s.linkSend l [3 * 2 ^ 60 + x.sent0, 3 * 2 ^ 60 + p + x.sent1, 4 * 2 ^ 60 + x.freed0,
      4 * 2 ^ 60 + p + x.freed1]
    go (s.modLane l fun x => { x with statusAt := s.cycle })
  else go s

/-- Chunk `c` of the reach mask this device sends: its own bit and, for one of a twin pair, its pair's even
identifier (R395). -/
def State.reachChunk (s : State) (c : Nat) : Nat :=
  let bit (d : Nat) : Nat := if d / 32 = c then 2 ^ (d % 32) else 0
  let d := s.devId
  if s.fabTwin ∧ d % 2 = 1 then bit d + bit (d - 1) else bit d

/-- REACH_REFRESH (R395): every 1 ms, and once it is UP, a lane sends all 32 REACH chunks. -/
def execReachRefresh (l : Fin 320) (s : State) : Res :=
  let due : Bool := match (s.lane l).reachAt with
    | some c => s.passed c 2000000
    | none => true
  if s.laneState l == 4 && due && s.d2dHealth != 2 then
    let s := s.linkSend l ((List.range 32).map fun c => 2 * 2 ^ 60 + c * 2 ^ 55 + s.reachChunk c)
    go (s.modLane l fun x => { x with reachAt := some s.cycle })
  else go s

/-! ### Received cells (R387, R388, R390, R394) -/

/-- A cell left the receive FIFO of a lane (R395); one that came before its counts began is not counted. -/
def State.cellFreed (s : State) (l : Nat) (ctrl : Bool) : State :=
  s.modLane l fun x => if ctrl then { x with freed1 := (x.freed1 + 1) % 2 ^ 24 }
    else if 0 < x.old then { x with old := x.old - 1 }
    else { x with freed0 := (x.freed0 + 1) % 2 ^ 24 }

/-- The messages of a control or link cell; those of types above `last` are discarded and counted. -/
def State.cellMsgs (s : State) (c : FCell) (last : Nat) : List Nat × State :=
  let l := (List.range (min 32 c.idx)).map fun i => beNat ((c.payload.drop (8 * i)).take 8)
  let bad := (l.filter fun m => last < m / 2 ^ 60).length
  (l.filter fun m => m / 2 ^ 60 ≠ 0 ∧ m / 2 ^ 60 ≤ last, s.addSat .fab_MISC_STATUS [] f_fab_MISC_STATUS_bad_msg bad)

/-- Whether a cell is for this device (R388). -/
def State.cellMine (s : State) (c : FCell) : Bool :=
  c.dst == s.devId || (c.pair && c.dst == s.devId / 2 * 2)

/-- A cell with a good header on a lane in HELLO or UP is passed on by its type. -/
def State.cellTake' (s : State) (l : Nat) (c : FCell) : State :=
  match c.kind with
  | 0 => s
  | 3 =>
    let (msgs, s) := s.cellMsgs c 4
    s.modLane l fun x => { x with
      link := x.link ++ msgs.map fun m => (m, if bitOf m 59 then x.recv1 else x.recv0) }
  | k =>
    let s := s.modLane l fun x => if k = 2 then { x with recv1 := (x.recv1 + 1) % 2 ^ 24 }
      else { x with recv0 := (x.recv0 + 1) % 2 ^ 24 }
    if !s.cellMine c then (s.addSat .fab_MISC_STATUS [] f_fab_MISC_STATUS_misrouted 1).cellFreed l (k == 2)
    else if k = 1 then { s with tm := { s.tm with rxData := s.tm.rxData ++ [(l, c)] } }
    else
      let (msgs, s) := s.cellMsgs c 2
      let s := { s with tm := { s.tm with rxMsgs := s.tm.rxMsgs ++ msgs.map fun m => (c.src, c.srcPair, m) } }
      s.cellFreed l true

/-- FABRIC_CELL_RECEIVE (R387, R388): a cell arrives on a lane. Eight good headers in succession declare alignment
and four bad ones lose it. DESIGN CHOICE, log entry 48. -/
def execFabricCellReceive (l : Fin 320) (header : BitVec 128) (payload : List Byte) (s : State) : Res :=
  let st := s.laneState l
  if st < 2 ∨ 4 < st then go s
  else
    let h := header.toNat
    if crc16 ((natBE 16 h).take 14) = h % 65536 then
      let s := s.modLane l fun x => { x with good := x.good + 1, bad := 0 }
      let s := s.count1 (210 + l.val / 4) 5
      if st = 2 then (if 8 ≤ (s.lane l).good then go (s.laneEnter l 3) else go s)
      else go (s.cellTake' l (FCell.ofHeader h payload))
    else
      let s := s.addSat .fab_LANE_ERR [l.val] f_fab_LANE_ERR_hcrc_errors 1
      let s := s.modLane l fun x => { x with bad := x.bad + 1, good := 0 }
      if st = 4 ∧ 4 ≤ (s.lane l).bad then go (s.laneEnter l 2) else go s

/-! ### Reassembly (R397) -/

/-- A context changed, by its key. -/
def State.modReasm (s : State) (src pkt : Nat) (f : Reasm → Reasm) : State :=
  { s with tm := { s.tm with
    reasm := s.tm.reasm.map fun r => if r.hdr.src = src ∧ r.hdr.pkt = pkt then f r else r } }

/-- A context is gone, and its cells are freed. DEDUCED, log entry 49. -/
def State.dropReasm (s : State) (r : Reasm) : State :=
  let s := s.cellsFree (r.cells.map fun e => e.2.2)
  { s with tm := { s.tm with reasm := s.tm.reasm.filter fun x => !(x.hdr.src = r.hdr.src ∧ x.hdr.pkt = r.hdr.pkt) } }

/-- A packet whose cells are all present (R397, R389, R580); its section is that of its first cell.
DEDUCED, log entry 49. -/
def State.reassembled (s : State) (r : Reasm) : State :=
  let s := s.dropReasm r
  let h := r.hdr
  let bytes := ((List.range (cellsOf h.len)).flatMap fun i => (SMap.get ([], 0) r.cells i).1).take h.len
  let traced := h.tag && s.flag .skp_TRACE_CFG [] f_skp_TRACE_CFG_accept_fabric && !s.traceFull
  let (s, trace) := if traced then
      s.traceOpen
        { seq := 0, ts := s.pwr.time, inMac := 255, fromFabric := true, frameLen := h.len, srcDev := h.src, pkt := h.pkt }
    else (s, 0)
  let s := s.traceWay trace 0x0C 0 (natLE 2 h.src ++ natLE 3 h.pkt)
  let body := bytes.take (h.len - 4)
  if r.void then (s.addSat .fab_REASM_STATUS [] f_fab_REASM_STATUS_stomped 1).traceWay trace 0x10 0 [0]
  else if r.bad then s.traceWay trace 0x10 0 [1]
  else if h.len < 4 ∨ withFcs body ≠ bytes then
    (s.addSat .fab_REASM_STATUS [] f_fab_REASM_STATUS_fcs_errors 1).traceWay trace 0x10 0 [2]
  else
    let q := s.fld .fab_EQ_MAP [h.port] f_fab_EQ_MAP_eq_base + h.cls
    let sec := cellSection (SMap.get ([], 0) r.cells 0).2
    s.admitOut [{ seq := 0, bytes := body, egress := true, queue := q % 65536, dp := h.dp, trace, sec }]

/-- A data cell joins its context (R397). -/
def State.dataCell (s : State) (c : FCell) : State :=
  let found := s.tm.reasm.find? fun r => r.hdr.src == c.src && r.hdr.pkt == c.pkt
  let first := match found with | some r => r.hdr | none => c
  let bad := c.len != first.len || c.port != first.port || c.cls != first.cls || c.dp != first.dp ||
    c.tag != first.tag || decide (cellsOf c.len ≤ c.idx)
  let dup := match found with | some r => (SMap.find? r.cells c.idx).isSome | none => false
  let none' (s : State) : State := s.addSat .fab_MSG_STATUS [] f_fab_MSG_STATUS_no_resource 1
  let s := s.when (bad && found.isSome) (·.modReasm c.src c.pkt fun r => { r with bad := true })
  let s := s.when bad (·.addSat .fab_MSG_STATUS [] f_fab_MSG_STATUS_len_mismatch 1)
  if dup then s.addSat .fab_REASM_STATUS [] f_fab_REASM_STATUS_dup_cells 1
  else if found.isNone ∧ 16384 ≤ s.tm.reasm.length ∨ s.freeCells = 0 then none' s
  else
    let s := if found.isNone then
        { s with tm := { s.tm with reasm := s.tm.reasm ++ [{ hdr := c, since := s.cycle, bad }] } }
      else s
    let s := if cellsOf first.len ≤ c.idx then s
      else
        let (s, b) := s.cellTake
        s.modReasm c.src c.pkt fun r => { r with
          cells := SMap.insert r.cells c.idx (padTo 256 c.payload, b), void := r.void || c.void }
    match s.tm.reasm.find? fun r => r.hdr.src == c.src && r.hdr.pkt == c.pkt with
    | some r => if cellsOf r.hdr.len ≤ r.cells.length then s.reassembled r else s
    | none => s

/-- DATA_CELL_RECEIVE (R397): the accepted data cell received first leaves its receive FIFO. DEDUCED, log entry 49. -/
def execDataCellReceive (s : State) : Res :=
  match s.tm.rxData with
  | (l, c) :: rest => go (({ s with tm := { s.tm with rxData := rest } }.cellFreed l false).dataCell c)
  | [] => go s

/-- REASM_TIMEOUT (R397): the context of (src, pkt) has not completed reasm_timeout ns after its creation. -/
def execReasmTimeout (src : Fin 1024) (pkt : BitVec 23) (s : State) : Res :=
  match s.tm.reasm.find? fun r => r.hdr.src == src.val && r.hdr.pkt == pkt.toNat with
  | some r =>
    if s.passed r.since (2 * max 1 (s.fld .fab_CFG [] f_fab_CFG_reasm_timeout)) then
      go ((s.dropReasm r).addSat .fab_REASM_STATUS [] f_fab_REASM_STATUS_timeouts 1)
    else go s
  | none => go s

/-! ### Requests and grants (R390 to R392) -/

/-- The control message received first, where it is of a type, and the state without it. -/
def State.msgTake (s : State) (type : Nat) : Option (Nat × Bool × Nat × State) :=
  match s.tm.rxMsgs with
  | (src, pair, m) :: rest =>
    if m / 2 ^ 60 = type then some (src, pair, m, { s with tm := { s.tm with rxMsgs := rest } }) else none
  | [] => none

/-- FABRIC_REQUEST (R392): the flow's estimate is set, in a new entry where it has none. DESIGN CHOICE, log entry 44. -/
def execFabricRequest (s : State) : Res :=
  match s.msgTake 1 with
  | some (src, pair, m, s) =>
    let src := if pair then src / 2 * 2 else src
    let sys := bitsOf m 44 16
    let cls := bitsOf m 41 3
    let est := bitsOf m 0 28 * 256
    let mine (f : Flow) : Bool := f.src == src && f.sys == sys && f.cls == cls
    match s.tm.flows.find? mine with
    | some f =>
      let z := if est = 0 ∧ f.est ≠ 0 then s.cycle else f.zeroSince
      let set (x : Flow) : Flow := if mine x then { x with est, pair, zeroSince := z } else x
      go { s with tm := { s.tm with flows := s.tm.flows.map set } }
    | none =>
      if 262144 ≤ s.tm.flows.length then go (s.addSat .fab_MSG_STATUS [] f_fab_MSG_STATUS_req_dropped 1)
      else go { s with tm := { s.tm with flows := s.tm.flows ++ [⟨src, sys, cls, pair, est, s.cycle⟩] } }
  | none => go s

/-- FLOW_ENTRY_EXPIRY (R392): an entry whose estimate has been zero for 10 × req_interval is freed. -/
def execFlowEntryExpiry (src : Fin 1024) (sys : Fin 65536) (cls : Fin 8) (s : State) : Res :=
  let mine (f : Flow) : Bool := f.src == src.val && f.sys == sys.val && f.cls == cls.val
  match s.tm.flows.find? mine with
  | some f =>
    if f.est = 0 ∧ s.passed f.zeroSince (20 * max 1 (s.fld .fab_GRANT_CFG [] f_fab_GRANT_CFG_req_interval)) then
      go { s with tm := { s.tm with flows := s.tm.flows.filter fun x => !mine x } }
    else go s
  | none => go s

/-- FABRIC_GRANT (R391): credit for a VOQ, from the source that SYS_MAP names; in the gap between two holders of the
serve balances keep their values (R477). DESIGN CHOICE, log entry 44. -/
def execFabricGrant (s : State) : Res :=
  if s.gap then go s
  else match s.msgTake 2 with
    | some (src, _, m, s) =>
      let sys := bitsOf m 44 16
      let e := s.rd .fab_SYS_MAP [sys]
      let dev := f_fab_SYS_MAP_dev.get e
      let ok := f_fab_SYS_MAP_valid.get e == 1 &&
        (if f_fab_SYS_MAP_pair.get e = 1 then src / 2 == dev / 2 else src == dev)
      if ok then
        let q := sys * 8 + bitsOf m 41 3
        go ((s.addBalance q (m % 65536 * 64)).holdStart q)
      else go (s.addSat .fab_MSG_STATUS [] f_fab_MSG_STATUS_bad_grant 1)
    | none => go s

/-- One unit of 64 bytes in the budget's unit of 1/64 bit. -/
def unitBits : Nat := 64 * 8 * 64

/-- The budget of a port as of now (R392). -/
def State.budgetNow (s : State) (p : Nat) : Budget :=
  let b := SMap.get {} s.tm.budgets p
  let quantum := max 1 (s.fld .fab_GRANT_CFG [] f_fab_GRANT_CFG_quantum)
  let rise := (s.cycle - b.at') * s.portBpt p * s.fld .fab_GRANT_CFG [] f_fab_GRANT_CFG_grant_ratio
  { b with level := min (b.level + rise) (4 * quantum * unitBits), at' := s.cycle }

/-- Every port's budget as of now: what GRANT_CFG says from now on does not change the time before (R392). -/
def State.budgetsNow (s : State) : State :=
  s.each ((List.range 256).filter s.isPort) fun s p =>
    { s with tm := { s.tm with budgets := SMap.put {} s.tm.budgets p (s.budgetNow p) } }

/-- Flows of class `c` for port `p` with a non-zero estimate. -/
def State.flowsOf (s : State) (p c : Nat) : List Flow :=
  s.tm.flows.filter fun f => f.cls == c && f.est != 0 && s.fld .fab_SYS_MAP [f.sys] f_fab_SYS_MAP_port == p

/-- A flow's place in ascending source order, and the flow with the lowest place. -/
def Flow.place (f : Flow) : Nat := f.src * 65536 + f.sys
def lowestFlow : List Flow → Option Flow
  | [] => none
  | f :: l => match lowestFlow l with
    | some g => if g.place < f.place then some g else some f
    | none => some f

/-- Class `c` of port `p` is stopped (R392). -/
def State.grantStopped (s : State) (p c : Nat) : Bool :=
  let e := s.rd .fab_EQ_MAP [p]
  let stop := f_fab_EQ_MAP_grant_stop.get e
  stop != 0 && decide (stop * 4096 ≤ (s.q (524288 + (f_fab_EQ_MAP_eq_base.get e + c) % 65536)).depth)

/-- The class granted next: the lowest grant priority among unstopped classes with a flow to serve.
DESIGN CHOICE, log entry 44. -/
def State.grantClass (s : State) (p : Nat) : Option Nat :=
  let prio := s.fld .fab_GRANT_CFG [] f_fab_GRANT_CFG_grant_prio
  let set := (List.range 8).filter fun c => !s.grantStopped p c && !(s.flowsOf p c).isEmpty
  (List.range 8).findSome? fun k => set.find? fun c => bitsOf prio (3 * c) 3 == k

/-- GRANT_ISSUE (R392): port `p`'s budget holds a quantum, so a flow receives credit. DESIGN CHOICE, log entry 44. -/
def execGrantIssue (p : Fin 256) (s : State) : Res :=
  let b := s.budgetNow p
  let quantum := max 1 (s.fld .fab_GRANT_CFG [] f_fab_GRANT_CFG_quantum)
  if !s.isPort p || s.gap || decide (b.level < quantum * unitBits) then go s
  else match s.grantClass p with
    | none => go s
    | some c =>
      let l := s.flowsOf p c
      let last := SMap.get 0 b.last c
      match (lowestFlow (l.filter fun f => decide (last ≤ f.place))).or (lowestFlow l) with
      | none => go s
      | some f =>
        let units := min quantum ((f.est + 63) / 64)
        let est := f.est - units * 64
        let same (x : Flow) : Bool := x.src == f.src && x.sys == f.sys && x.cls == f.cls
        let set (x : Flow) : Flow :=
          if same x then { x with est, zeroSince := if est = 0 then s.cycle else x.zeroSince } else x
        let b := { b with level := b.level - units * unitBits, last := SMap.put 0 b.last c (f.place + 1) }
        let s := { s with tm := { s.tm with
          flows := s.tm.flows.map set, budgets := SMap.put {} s.tm.budgets p b } }
        go (s.msgSend f.src f.pair (2 * 2 ^ 60 + f.sys * 2 ^ 44 + c * 2 ^ 41 + units))

/-- REQUEST_INTERVAL (R391): a VOQ that is not empty and has no credit repeats its REQUEST. -/
def execRequestInterval (q : Fin 524288) (s : State) : Res :=
  let x := s.q q
  if !x.pkts.isEmpty && decide (x.balance ≤ 0) && s.serves &&
      s.passed x.requestAt (2 * max 1 (s.fld .fab_GRANT_CFG [] f_fab_GRANT_CFG_req_interval)) then
    go (s.requestSend q)
  else go s

/-- CTRL_FLUSH (R390): ctrl_flush ns after the first message of a destination was queued. -/
def execCtrlFlush (dst : Fin 1024) (pair : Bool) (s : State) : Res :=
  let key := dst.val * 2 + (if pair then 1 else 0)
  let (at', l) := SMap.get (0, []) s.tm.msgs key
  if !l.isEmpty && s.serves && s.passed at' (2 * max 1 (s.fld .fab_CFG [] f_fab_CFG_ctrl_flush)) then
    go (s.ctrlFlush key)
  else go s

/-! ### Spraying (R390, R393) -/

/-- The head of the control queue, or else of the data queue, handed to a lane. -/
def State.handOff (s : State) : Option State :=
  let ctrl := match s.tm.ctrlQ with
    | c :: rest => match s.handOver c with
      | some (s, left) =>
        some { s with tm := { s.tm with ctrlQ := match left with | some c => c :: rest | none => rest } }
      | none => none
    | [] => none
  match ctrl with
  | some s => some s
  | none => match s.tm.dataQ with
    | c :: rest => match s.handOver c with
      | some (s, left) =>
        some { s with tm := { s.tm with dataQ := match left with | some c => c :: rest | none => rest } }
      | none => none
    | [] => none

/-- CELL_HANDOFF (R393): a waiting cell goes to the first eligible lane; only the holder of the serve sends data
and control cells (R388), and lanes send idle cells while the die-to-die link is FAILED (R18).
DESIGN CHOICE, log entry 48. -/
def execCellHandoff (s : State) : Res :=
  if s.serves && s.d2dHealth != 2 then
    match s.handOff with
    | some s => go s
    | none => go s
  else go s

end Sys2Proof.Machine
end

