-- ==== Sys2Proof/Machine/Hbm.lean ====
section
/-! DEFINITION. HBM controllers: freezes, releases and training (chapter 11). -/

namespace Sys2Proof.Machine

/-! ### Freeze (R427 to R429) -/

/-- The capture registers latch the commands, the failing address and the syndrome (R427, R442 to R444). -/
def State.hbmCapture (s : State) (k : Nat) (addr : Word) (cls : Nat) (syndrome : BitVec 32) : State :=
  let x := s.hchan k
  let info := hReg .tm_hmc_CAP_INFO .fe_hmc_CAP_INFO k []
  let s := s.wr info.1 info.2 (BitVec.ofNat 64 (x.cmds.length * 2 ^ 52 + granules x.queue * 2 ^ 45 + addr.toNat % 2 ^ 38))
  let synd := hReg .tm_hmc_CAP_SYND .fe_hmc_CAP_SYND k []
  let s := s.wr synd.1 synd.2 (BitVec.ofNat 64 (cls * 2 ^ 40 + syndrome.toNat))
  s.each ((List.range 64).zip x.cmds) fun s (i, c) =>
    let r := hReg .tm_hmc_CAP_CMD .fe_hmc_CAP_CMD k [i]
    let sid := c.bank / 16 % 3
    s.wr r.1 r.2 (BitVec.ofNat 64 (min 0xFFFF ((s.cycle - c.at') / 2) * 2 ^ 48 + c.cmd * 2 ^ 44 + c.cls * 2 ^ 42 +
      c.bank / 48 * 2 ^ 41 + sid * 2 ^ 39 + c.bank % 16 / 4 * 2 ^ 37 + c.bank % 4 * 2 ^ 35 + c.row * 2 ^ 22 + c.col * 2 ^ 18))

/-- A controller freezes (R427, R428): its requests are answered unavailable, the users exclude the channel, and the
event is posted; a freeze of stacks 4-5 ends in-step operation (R464). -/
def State.hbmFreeze (s : State) (k cause found : Nat) (addr : Word) (cls : Nat) (syndrome : BitVec 32) : State :=
  if s.hFrozen k then s
  else
    let s := s.hbmCapture k addr cls syndrome
    let s := (s.hSet k f_tm_hmc_CH_STATUS_frozen 1).hSet k f_tm_hmc_CH_STATUS_freeze_cause cause
    let s := s.each ((s.hchan k).queue ++ (s.hchan k).input) fun s q => s.reqAnswer k q 2 []
    let s := s.modH k fun x => { x with input := [] }
    let s := s.when (decide (k < 128)) (·.chanFrozen k)
    let s := s.postEventAt 0x011 (locTile found 4 (if k < 128 then 1 else 0) 0x3F 5 k) addr (natLE 1 k ++ natLE 1 cause)
    let life := s.mgmt.life
    let s := { s with mgmt := { s.mgmt with life := { life with hbmFreezes := SMap.modify 0 life.hbmFreezes k (· + 1) } } }
    let s := s.healthCheck
    s.when (decide (128 ≤ k)) (·.stepEnd 8)

/-- Corrected bursts counted, and entered by month in the lifetime record (R418, R538). -/
def State.hbmCorrected (s : State) (k n : Nat) : State :=
  let r := hReg .tm_hmc_ERR_CNT .fe_hmc_ERR_CNT k []
  let s := s.hAdd r f_tm_hmc_ERR_CNT_ce_count n
  let life := s.mgmt.life
  let m := s.lifeMonth
  { s with mgmt := { s.mgmt with life := { life with hbmCorrected := SMap.modify 0 life.hbmCorrected (k * 240 + m) (· + n) } } }

/-- Uncorrectable bursts counted (R439). -/
def State.hbmUeCount (s : State) (k n : Nat) : State :=
  s.hAdd (hReg .tm_hmc_ERR_CNT .fe_hmc_ERR_CNT k []) f_tm_hmc_ERR_CNT_ue_count n

/-- An uncorrectable error of a read that a unit makes in a command of its own, with service class `cls` (R412, R427): its
read is issued, it is counted, and the controller freezes. DESIGN CHOICE, log entry 50. -/
def State.hbmDataError (s : State) (k gran cls : Nat) (syndrome : BitVec 32) : State :=
  ((s.hbmUnit k cls gran false).hbmUeCount k 1).hbmFreeze k 1 2 (hbmAddr k gran) cls syndrome

/-- A scrub read that met a corrected error writes the granule back, unless a write to it is pending already (R418). -/
def State.scrubBack (s : State) (k : Nat) (q : HReq) (corrected : Nat) : State :=
  if !q.scrub || corrected == 0 || ((s.hchan k).queue ++ (s.hchan k).input).any (fun o => o.wdata.isSome && o.meets q)
  then s
  else s.hbmArrive k
    { q with home := 3, cls := 3, wdata := some (s.granBytes k q.gran q.n), fwd := [], promoted := false, turn := 0 }

/-- HBM_READ_DONE (R418, R427, R429): the read chosen first answers, or its uncorrectable bursts freeze the controller;
`corrected` of its bursts were corrected. Errors met while frozen are counted only. -/
def execHbmReadDone (k : Fin 192) (corrected : Nat) (ue : List HbmUe) (s : State) : Res :=
  if s.hFrozen k then go ((s.hbmCorrected k corrected).hbmUeCount k ue.length)
  else
    let s := s.hbmSettle k
    match nextIssued (s.hchan k).queue with
    | some q =>
      if q.wdata.isSome then go s
      else
        let s := (s.hbmCorrected k corrected).hbmLeave k q
        match ue with
        | [] => go ((s.reqAnswer k q 0 (s.readData k q)).scrubBack k q corrected)
        | e :: _ =>
          let s := (s.hbmUeCount k ue.length).reqAnswer k q 3 []
          go (s.hbmFreeze k 1 2 (hbmAddr k (q.gran + min (e.burst / 2) (q.n - 1))) q.cls e.syndrome)
    | none => go s

/-- HBM_WRITE_DONE (R416, R417): the write chosen first takes effect and is acknowledged. DESIGN CHOICE, log entry 2. -/
def execHbmWriteDone (k : Fin 192) (s : State) : Res :=
  if s.hFrozen k then go s
  else
    let s := s.hbmSettle k
    match nextIssued (s.hchan k).queue with
    | some q =>
      match q.wdata with
      | some d => go (((s.writeData k q d).hbmLeave k q).reqAnswer k q 0 [])
      | none => go s
    | none => go s

/-- A request on a bank's open row is chosen in this cycle (R414, R420). -/
def State.rowChosen (s : State) (k b : Nat) : Bool :=
  s.hState k == 2 && !s.hPaused k &&
    (match (s.hbmPromote k).hbmPick k with
     | some q => (numbersFrom q.gran q.n).any fun g => s.bankOf k g == b && (s.hbank k b).row == some (rowOf' g)
     | none => false)

/-- ROW_IDLE_TIMEOUT (R420): in the controller cycle of the expiry a request chosen for the open row wins. -/
def execRowIdleTimeout (k : Fin 192) (bank : Fin 96) (s : State) : Res :=
  let r := hReg .tm_hmc_PAGE_CFG .fe_hmc_PAGE_CFG k []
  let t := s.fld r.1 r.2 f_tm_hmc_PAGE_CFG_idle_timer
  let x := s.hbank k bank
  let wins := decide (s.cycle ≤ x.lastAt + 2 * t + 1) && s.rowChosen k bank
  if x.row.isSome ∧ t ≠ 0 ∧ s.passed x.lastAt (2 * t) ∧ !s.hFrozen k ∧ !wins then
    go ((s.hCmd k { cmd := 3, bank := bank }).modBank k bank fun x => { x with row := none })
  else go s

/-- HBM_REFRESH (R406, R421): the refresh of a bank is due, or of all banks of its pseudo-channel and SID; a bank's may be
postponed while an SC0 or promoted request waits for it, by at most 8 intervals. DESIGN CHOICE, log entry 50. -/
def execHbmRefresh (k : Fin 192) (bank : Fin 96) (postpone : Bool) (s : State) (all : Bool := false) : Res :=
  if s.hState k = 0 then go s
  else if all then go (s.allRefresh k bank)
  else
    let waits := (s.hchan k).queue.any fun q =>
      q.turn == 0 && (q.cls == 0 || q.promoted) && (numbersFrom q.gran q.n).any fun g => s.bankOf k g == bank.val
    if postpone && waits && decide ((s.hbank k bank).postponed < 8) then
      go (s.modBank k bank fun x => { x with postponed := x.postponed + 1 })
    else go (s.bankRefresh k bank)

/-- CA_PARITY_ERROR (R427, R429, R442, R443): the stack signals a parity error on the command `cmd`-th before the latest: it
is counted, and the controller freezes with that command's address and class; on a refresh or RFM command the data become
suspect, and the address is a free value. DESIGN CHOICE, log entry 50. -/
def execCaParityError (k : Fin 192) (cmd : Fin 64) (vector : BitVec 32) (s : State) : Res :=
  match (s.hchan k).cmds[cmd.val]? with
  | none => go s
  | some c =>
    let s := s.hAdd (hReg .tm_hmc_ERR_CNT .fe_hmc_ERR_CNT k []) f_tm_hmc_ERR_CNT_ca_parity 1
    let s := s.when (5 ≤ c.cmd && c.cmd ≤ 7) (·.hSet k f_tm_hmc_CH_STATUS_data_suspect 1)
    match c.gran with
    | some g => go (s.hbmFreeze k 2 4 (hbmAddr k g) c.cls vector)
    | none =>
      let (g, s) := s.free
      go (s.hbmFreeze k 2 4 (hbmAddr k (g.toNat % granLimit)) c.cls vector)

/-- A read of CAP_INFO: while the controller is frozen it sets capture_read (R442). -/
def State.capInfoRead (s : State) (k : Nat) : State :=
  s.when (s.hFrozen k) (·.hSet k f_tm_hmc_CH_STATUS_capture_read 1)

/-- CAP_INFO_READ (R442). -/
def execCapInfoRead (k : Fin 192) (s : State) : Res :=
  let r := hReg .tm_hmc_CAP_INFO .fe_hmc_CAP_INFO k []
  if s.tmClosed (r.1.addr r.2) then
    go ((s.emit (.readData 0xFFFFFFFFFFFFFFFF)).accessError 2 (regAccess r.1 r.2))
  else go ((s.emit (.readData (s.rd r.1 r.2))).capInfoRead k)

/-! ### Lifecycle and release (R430) -/

/-- Where a channel keeps its lifecycle. -/
def hbmLc (k : Nat) : LcReg :=
  ⟨(hStatus k).1, (hStatus k).2, f_tm_hmc_CH_STATUS_state, f_tm_hmc_CH_STATUS_restart_pending,
    f_tm_hmc_CH_STATUS_stop_pending⟩

/-- The PHY domain of a channel is ON and its controller is available (R25, R430). DEDUCED, log entry 75. -/
def State.hbmPowered (s : State) (k : Nat) : Bool := s.pdOn (if k < 128 then 18 else 19) && !s.tileOut 5 k

/-- Start-up's or the power domain's request for a channel (R430). -/
def State.hbmRequestLc (s : State) (k : Nat) (on : Bool) : State :=
  let s := s.when (!on) (·.modH k fun x => { x with releasing := x.releasing && s.hState k == 1 })
  (s.lcRequest (hbmLc k) on (s.hbmPowered k)).1

/-- A write of release (R430, R435). DESIGN CHOICE, log entry 50. -/
def State.hbmRelease (s : State) (k : Nat) : State :=
  let st := s.hState k
  if st = 1 ∨ st = 3 then s
  else if !(s.hFrozen k && s.hFlag k f_tm_hmc_CH_STATUS_capture_read) then s.hSet k f_tm_hmc_CH_STATUS_release_refused 1
  else if st = 2 then (s.modH k fun x => { x with releasing := true }).hSet k f_tm_hmc_CH_STATUS_state 3
  else if s.hbmPowered k then (s.modH k fun x => { x with releasing := true }).hSet k f_tm_hmc_CH_STATUS_state 1
  else s

/-- CHANNEL_RELEASE (R430). -/
def execChannelRelease (k : Fin 192) (s : State) : Res :=
  let r := hReg .tm_hmc_CH_CTRL .fe_hmc_CH_CTRL k []
  go (s.tmWrite r.1 r.2 (·.hbmRelease k))

/-- The cycle of rest of a channel ends (R430, R620): a release goes on to STARTING. -/
def State.hbmRest (s : State) (k : Nat) : State :=
  if s.hState k = 0 ∧ (s.hchan k).releasing then
    if s.hbmPowered k then s.hSet k f_tm_hmc_CH_STATUS_state 1 else s.modH k fun x => { x with releasing := false }
  else (s.lcRest (hbmLc k) (s.hbmPowered k)).1

/-- CHANNEL_STOP_DONE (R430): the pending queue is discarded, rows are closed and the channel is OFF. -/
def execChannelStopDone (k : Fin 192) (s : State) : Res :=
  if s.hState k ≠ 3 then go s
  else
    let s := (s.modH k fun x => { x with queue := [], input := [], banks := [] }).hShow k
    go (s.lcStopDone (hbmLc k))

/-- A channel's capture is cleared (R430). -/
def State.hbmClear (s : State) (k : Nat) : State :=
  let clr (s : State) (r : Reg × List Nat) : State := s.wr r.1 r.2 0
  let s := clr s (hReg .tm_hmc_CAP_INFO .fe_hmc_CAP_INFO k [])
  let s := clr s (hReg .tm_hmc_CAP_SYND .fe_hmc_CAP_SYND k [])
  let s := s.each (List.range 64) fun s i => clr s (hReg .tm_hmc_CAP_CMD .fe_hmc_CAP_CMD k [i])
  let s := (s.hSet k f_tm_hmc_CH_STATUS_frozen 0).hSet k f_tm_hmc_CH_STATUS_capture_read 0
  (s.hSet k f_tm_hmc_CH_STATUS_freeze_cause 0).hSet k f_tm_hmc_CH_STATUS_training_failed 0

/-- A channel fails its training (R425, R430): it stays OFF, and on stacks 0-3 it is excluded. -/
def State.hbmTrainFail (s : State) (k : Nat) : State :=
  let s := s.trainRestore k
  let s := (s.lcStartFail (hbmLc k)).hSet k f_tm_hmc_CH_STATUS_training_failed 1
  let s := s.modH k fun x => { x with releasing := false }
  let life := s.mgmt.life
  let s := { s with mgmt := { s.mgmt with life := { life with hbmTrainFail := SMap.modify 0 life.hbmTrainFail k (· + 1) } } }
  (s.when (decide (k < 128)) (·.chanFrozen k)).healthCheck

/-- A channel has trained at a stack temperature in 0.125 °C (R423, R430): its training area is restored where it was saved,
its capture is cleared, its predictors are initialised and it is ON. -/
def State.hbmTrained (s : State) (k : Nat) (temp : Int) : State :=
  let atStart := !(s.hchan k).releasing
  let s := (s.trainRestore k).hbmClear k
  let s := s.when atStart (·.hSet k f_tm_hmc_CH_STATUS_data_suspect 0)
  let s := s.modH k fun x => { x with
    banks := [], queue := [], input := [], cmds := [], releasing := false, trainedTemp := temp, cmdRunning := none }
  let s := (s.hShow k).when (decide (k < 128) && s.excluded k) (·.chanReleased k)
  (s.lcStartDone (hbmLc k)).healthCheck

/-- CHANNEL_START_DONE (R423, R430). -/
def execChannelStartDone (k : Fin 192) (failed : Bool) (temp : Int) (s : State) : Res :=
  if s.hState k ≠ 1 then go s
  else if failed then go (s.hbmTrainFail k)
  else go (s.hbmTrained k temp)

/-! ### Training (R424, R440, R441) and timing checks (R426) -/

/-- A training command is taken while the channel is STARTING or paused for retraining, else it is an access error
(R424). -/
def State.trainCmd (s : State) (k : Nat) (c : TrainCmd) (f : State → State) : State :=
  let w := hReg .tm_hmc_TRAIN_CTRL .fe_hmc_TRAIN_CTRL k []
  s.tmWrite w.1 w.2 fun s => if s.hState k ≠ 1 ∧ !s.hPaused k then s.accessError 4 (regAccess w.1 w.2)
  else
    let r := hReg .tm_hmc_TRAIN_RESULT .fe_hmc_TRAIN_RESULT k []
    let s := (s.setFlag r.1 r.2 f_tm_hmc_TRAIN_RESULT_busy true).setFlag r.1 r.2 f_tm_hmc_TRAIN_RESULT_done false
    f (s.modH k fun x => { x with cmdRunning := some c })

/-- A delay or reference set on a lane; lanes above 35 are none (R440). -/
def State.trainSet (s : State) (k cmd pc : Nat) (lane value : BitVec 8) : State :=
  s.trainCmd k { cmd } fun s =>
    if 35 < lane.toNat then s
    else s.modH k fun x => { x with
      settings := SMap.put 0 x.settings (cmd * 2 ^ 16 + pc * 2 ^ 8 + lane.toNat) value.toNat }

/-- The pattern a code means, and the bursts a count means: 0 acts as 1, and codes above 3 act as 2 (R440). -/
def patternOf (p : Nat) : Nat := if 3 < p then 2 else p
def burstsOf (n : Nat) : Nat := max 1 n

/-- Burst `j` of a pseudo-channel's half of the training area: its granule and the offset in it; a count beyond the area
goes round in it. DESIGN CHOICE, log entry 50. -/
def burstAt (pc j : Nat) : Nat × Nat := (j % 64 / 2 * 2 + pc, 32 * (j % 2))

/-- The save of the training area meets `n` uncorrectable bursts (R424). -/
def State.saveFound (s : State) (k n : Nat) : State :=
  s.when (n != 0) fun s => (s.hSet k f_tm_hmc_CH_STATUS_data_suspect 1).hbmUeCount k n

/-- WRITE_PATTERN (R424, R440): a channel that holds data has its training area saved before the first pattern, where the
save meets `saveUe` uncorrectable bursts; a save whose errors are not said here meets those that its completion says. -/
def State.patternWrite (s : State) (k pc pattern bursts : Nat) (saveUe : Option Nat) : State :=
  let first := (s.hPaused k || (s.hchan k).releasing) && (s.hchan k).save.isNone
  let saved := first && saveUe.isNone
  s.trainCmd k { cmd := 1, pc, pattern := patternOf pattern, bursts := burstsOf bursts, saved } fun s => s.when first fun s =>
    (s.modH k fun x => { x with save := some (s.granBytes k 0 trainGranules) }).saveFound k (saveUe.getD 0)

/-- READ_COMPARE (R440). -/
def State.patternCompare (s : State) (k pc pattern bursts : Nat) : State :=
  s.trainCmd k { cmd := 2, pc, pattern := patternOf pattern, bursts := burstsOf bursts } id

/-- A granule of the training area as patterns see it: where its data are in the save buffer, what the patterns made of it
(R424). -/
def State.areaGranule (s : State) (k g : Nat) : List Byte :=
  match (s.hchan k).save with
  | some b => (b.drop (64 * g)).take 64
  | none => s.granule k g

/-- A granule of the training area written by a pattern; on a channel whose retraining is over there is no area to write
(R424). DESIGN CHOICE, log entry 50. -/
def State.putArea (s : State) (k g : Nat) (v : List Byte) : State :=
  match (s.hchan k).save with
  | some b => s.modH k fun x => { x with save := some (b.take (64 * g) ++ v ++ b.drop (64 * g + 64)) }
  | none => if s.hState k = 1 then s.putGranule k g v else s

/-- A pattern command's bursts are written to the training area. DESIGN CHOICE, log entry 50. -/
def State.patternPut (s : State) (k : Nat) (c : TrainCmd) : State :=
  s.each (List.range c.bursts) fun s j =>
    let (g, o) := burstAt c.pc j
    let b := s.areaGranule k g
    s.putArea k g (b.take o ++ natLE 32 (Config.trainPattern c.pattern j).toNat ++ b.drop (o + 32))

/-- The lane of a bit of a burst: beat by beat over the 32 data lanes. DESIGN CHOICE, log entry 50. -/
def burstLane (bit : Nat) : Nat := bit % 32

/-- The bits of the training area that differ from the pattern, as lanes (R440). -/
def State.patternDiff (s : State) (k : Nat) (c : TrainCmd) : List Nat :=
  (List.range c.bursts).flatMap fun j =>
    let (g, o) := burstAt c.pc j
    let v := leNat (((s.areaGranule k g).drop o).take 32) ^^^ (Config.trainPattern c.pattern j).toNat
    ((List.range 256).filter (bitOf v)).map burstLane

/-- WRITE_PATTERN (R440, R424): its save of the training area meets `saveUe` uncorrectable bursts. -/
def execWritePattern (k : Fin 192) (pc : Fin 2) (pattern : Fin 16) (bursts : BitVec 16) (saveUe : Nat) (s : State) :
    Res :=
  go (s.patternWrite k pc pattern bursts.toNat (some saveUe))

/-- READ_COMPARE (R440): its result comes with its completion. -/
def execReadCompare (k : Fin 192) (pc : Fin 2) (pattern : Fin 16) (bursts : BitVec 16) (s : State) : Res :=
  go (s.patternCompare k pc pattern bursts.toNat)

/-- CA_LOOPBACK (R440). -/
def execCaLoopback (k : Fin 192) (s : State) : Res := go (s.trainCmd k { cmd := 3 } id)

/-- SET_RD_DELAY (R440). -/
def execSetRdDelay (k : Fin 192) (pc : Fin 2) (lane value : BitVec 8) (s : State) : Res :=
  go (s.trainSet k 4 pc lane value)

/-- SET_WR_DELAY (R440). -/
def execSetWrDelay (k : Fin 192) (pc : Fin 2) (lane value : BitVec 8) (s : State) : Res :=
  go (s.trainSet k 5 pc lane value)

/-- SET_VREF (R440). -/
def execSetVref (k : Fin 192) (pc : Fin 2) (lane value : BitVec 8) (s : State) : Res :=
  go (s.trainSet k 6 pc lane value)

/-- SET_CA_DELAY (R440). -/
def execSetCaDelay (k : Fin 192) (pc : Fin 2) (lane value : BitVec 8) (s : State) : Res :=
  go (s.trainSet k 7 pc lane value)

/-- A write of TRAIN_CTRL (R440): the command it names; other codes are ignored. DESIGN CHOICE, log entry 50. -/
def State.trainWrite (s : State) (k : Nat) (w : Word) : State :=
  let pc := f_tm_hmc_TRAIN_CTRL_pc.get w
  let lane := BitVec.ofNat 8 (f_tm_hmc_TRAIN_CTRL_lane.get w)
  let value := BitVec.ofNat 8 (f_tm_hmc_TRAIN_CTRL_value.get w)
  match f_tm_hmc_TRAIN_CTRL_cmd.get w with
  | 1 => s.patternWrite k pc (f_tm_hmc_TRAIN_CTRL_pattern.get w) (f_tm_hmc_TRAIN_CTRL_bursts.get w) none
  | 2 => s.patternCompare k pc (f_tm_hmc_TRAIN_CTRL_pattern.get w) (f_tm_hmc_TRAIN_CTRL_bursts.get w)
  | 3 => s.trainCmd k { cmd := 3 } id
  | 4 => s.trainSet k 4 pc lane value
  | 5 => s.trainSet k 5 pc lane value
  | 6 => s.trainSet k 6 pc lane value
  | 7 => s.trainSet k 7 pc lane value
  | _ => if s.hState k ≠ 1 ∧ !s.hPaused k then
      let c := hReg .tm_hmc_TRAIN_CTRL .fe_hmc_TRAIN_CTRL k []
      s.accessError 4 (regAccess c.1 c.2)
    else s

/-- TRAIN_COMMAND_DONE (R424, R440, R441): the running command completes. A pattern is written; a comparison adds the bits
that differ from the pattern to those that the link miscompared, `errCount` on the lanes `errMask`; a loopback adds the
latter. `saveUe` uncorrectable bursts were met in a save that a write of TRAIN_CTRL began. DESIGN CHOICE, log entry 15. -/
def execTrainCommandDone (k : Fin 192) (errCount : Nat) (errMask : BitVec 36) (s : State) (saveUe : Nat := 0) :
    Res :=
  match (s.hchan k).cmdRunning with
  | none => go s
  | some c =>
    let r := hReg .tm_hmc_TRAIN_RESULT .fe_hmc_TRAIN_RESULT k []
    let s := s.modH k fun x => { x with cmdRunning := none }
    let s := (s.setFlag r.1 r.2 f_tm_hmc_TRAIN_RESULT_busy false).setFlag r.1 r.2 f_tm_hmc_TRAIN_RESULT_done true
    let s := s.when c.saved (·.saveFound k saveUe)
    if c.cmd = 1 then go (s.patternPut k c)
    else if c.cmd = 2 ∨ c.cmd = 3 then
      let diff := if c.cmd = 2 then s.patternDiff k c else []
      let mask := diff.foldl (fun m l => m ||| 2 ^ l) errMask.toNat
      let s := s.hAdd r f_tm_hmc_TRAIN_RESULT_err_count (errCount + diff.length)
      go (s.setFld r.1 r.2 f_tm_hmc_TRAIN_RESULT_err_mask (s.fld r.1 r.2 f_tm_hmc_TRAIN_RESULT_err_mask ||| mask))
    else go s

/-- The retraining register of a controller's die, and whether timing is kept (R432). -/
def retrainCfg (k : Nat) : Reg × List Nat := if k < 128 then (.tm_hmc_RETRAIN_CFG, []) else (.fe_hmc_RETRAIN_CFG, [])
def State.retrainOn (s : State) (k : Nat) : Bool :=
  s.hState k == 2 && !s.hFrozen k && s.flag (retrainCfg k).1 (retrainCfg k).2 f_tm_hmc_RETRAIN_CFG_enable

/-- OSC_CHECK (R426, R542): the oscillator check of task 5 pauses the channel for at most 100 ns, which changes timing
only. DESIGN CHOICE, log entries 50, 64. -/
def execOscCheck (k : Fin 192) (s : State) : Res :=
  let t := max 1 (s.fld (retrainCfg k).1 (retrainCfg k).2 f_tm_hmc_RETRAIN_CFG_osc_interval)
  if s.retrainOn k ∧ s.taskRuns 5 ∧ s.passed (s.hchan k).oscAt (t * cyclesPerUs) then
    go (s.taskStep 5 false false (·.modH k fun x => { x with oscAt := s.cycle }))
  else go s

/-- TEMP_RETRAIN (R426, R542): task 5 pauses and retrains a channel whose stack, now at `temp` in 0.125 °C, has moved by
retrain_delta since its training, one channel of a stack at a time and 200 µs apart; one that has to wait is a step
delayed by the task's budget, and one that is made a pass of it. DESIGN CHOICE, log entry 64. -/
def execTempRetrain (k : Fin 192) (temp : Int) (s : State) : Res :=
  let d := s.fld (retrainCfg k).1 (retrainCfg k).2 f_tm_hmc_RETRAIN_CFG_retrain_delta
  let moved := decide (8 * d ≤ (temp - (s.hchan k).trainedTemp).natAbs)
  let apart := (List.range 32).all fun j =>
    let x := s.hchan (k / 32 * 32 + j)
    x.pausedAt == 0 || s.passed (x.pausedAt - 1) 400000
  if s.retrainOn k ∧ s.taskRuns 5 ∧ d ≠ 0 ∧ moved then
    go (s.taskStep 5 (!apart) true (·.modH k fun x => { x with pausedAt := s.cycle + 1, trainedTemp := temp }))
  else go s

end Sys2Proof.Machine
end

