-- ==== Sys2Proof/Machine/Sha384.lean ====
section
/-! DEFINITION. SHA-384 (FIPS 180-4), the digest of images, manifests, pieces and settings (chapters 14
and 15). PRESUMED: the spec names the standard and does not restate it. Its constants are computed from the roots of
primes, as the standard defines them. -/

namespace Sys2Proof.Machine

/-! ### The constants -/

/-- The first 80 primes: the numbers from 2 to 409 that no prime below the square root of 410 divides. -/
def shaPrimes : List Nat :=
  (List.range 410).filter fun n =>
    decide (2 ≤ n) && [2, 3, 5, 7, 11, 13, 17, 19].all fun d => n == d || n % d != 0

/-- The greatest number below `2 ^ bits`, above `r`, whose `k`-th power is at most `n`: one bit a step. -/
def rootFrom (k n : Nat) : Nat → Nat → Nat
  | 0, r => r
  | bits + 1, r => rootFrom k n bits (if (r + 2 ^ bits) ^ k ≤ n then r + 2 ^ bits else r)

/-- The first 64 bits of the fractional part of the `k`-th root of `p`. -/
def rootWord (k p : Nat) : Word := BitVec.ofNat 64 (rootFrom k (p * 2 ^ (64 * k)) 69 0)

/-- The round constants: from the cube roots of the first 80 primes. PRESUMED, log entry 5. -/
def shaConsts : List Word := shaPrimes.map (rootWord 3)

/-- The initial hash value: from the square roots of the ninth to sixteenth primes. PRESUMED, log entry 5. -/
def shaStart : List Word := ((shaPrimes.drop 8).take 8).map (rootWord 2)

/-! ### The compression function -/

/-- The exclusive-or of a word's rotations by the amounts listed, begun with `x`. -/
def rotXor (w x : Word) (amounts : List Nat) : Word := amounts.foldl (fun acc n => acc ^^^ w.rotateRight n) x

/-- The schedule's next word from the sixteen before it, newest first. -/
def shaNext (recent : List Word) : Word :=
  let late := recent.getD 1 0
  let early := recent.getD 14 0
  rotXor late (late >>> 6) [19, 61] + recent.getD 6 0 + rotXor early (early >>> 7) [1, 8] + recent.getD 15 0

/-- The working variables after one round per constant, the schedule unrolled as it is used: `recent` holds its
sixteen words that follow, newest first. PRESUMED, log entry 5. -/
def shaRun : List Word → List Word → List Word → List Word
  | k :: ks, recent, [a, b, c, d, e, f, g, h] =>
    let pick := g ^^^ (e &&& (f ^^^ g))
    let vote := (a &&& b) ||| (c &&& (a ||| b))
    let t := h + k + recent.getD 15 0 + pick + rotXor e 0 [14, 18, 41]
    shaRun ks ((shaNext recent :: recent).take 16) [t + vote + rotXor a 0 [28, 34, 39], a, b, c, d + t, e, f, g]
  | _, _, vars => vars

/-- The 64-bit big-endian words of a byte list, `n` of them, the last one first. -/
def shaWords : Nat → List Byte → List Word → List Word
  | 0, _, acc => acc
  | n + 1, bs, acc => shaWords n (bs.drop 8) (BitVec.ofNat 64 (beNat (bs.take 8)) :: acc)

/-- The hash value after `n` blocks of 128 bytes. PRESUMED, log entry 5. -/
def shaFold : Nat → List Byte → List Word → List Word
  | 0, _, hash => hash
  | n + 1, bs, hash => shaFold n (bs.drop 128) (List.zipWith (· + ·) hash (shaRun shaConsts (shaWords 16 bs []) hash))

/-- A message filled up to whole blocks: a one bit, zeros, and its length in bits in the last 16 bytes.
PRESUMED, log entry 5. -/
def shaFill (bs : List Byte) : List Byte :=
  bs ++ [0x80] ++ List.replicate ((239 - bs.length % 128) % 128) 0 ++ natBE 16 (8 * bs.length)

/-- SHA-384 of a byte list, as a number whose most significant byte is the digest's first. PRESUMED, log entry 5. -/
def sha384 (bs : List Byte) : BitVec 384 :=
  let m := shaFill bs
  BitVec.ofNat 384 (((shaFold (m.length / 128) m shaStart).take 6).foldl (fun acc w => acc * 2 ^ 64 + w.toNat) 0)

end Sys2Proof.Machine
end

