-- ==== Sys2Proof/Machine/Update.lean ====
section
/-! DEFINITION. Update sessions: manifests, pieces, delta application, activation and the partner's pieces
(chapter 15). -/

namespace Sys2Proof.Machine

/-! ### Manifests (R546) -/

/-- A digest held in a byte list from offset `n`. -/
def digestAt (m : List Byte) (n : Nat) : BitVec 384 := BitVec.ofNat 384 (beNat ((m.drop n).take 48))

def manKind (m : List Byte) : Nat := leAt m 6 1
def manPlaybook (m : List Byte) : Nat := leAt m 7 1
def manBase (m : List Byte) : BitVec 384 := digestAt m 8
def manTarget (m : List Byte) : BitVec 384 := digestAt m 56
def manTargetLen (m : List Byte) : Nat := leAt m 104 4
def manDeltaLen (m : List Byte) : Nat := leAt m 108 4
def manPieces (m : List Byte) : Nat := leAt m 112 4
def manSecver (m : List Byte) : Nat := leAt m 116 1
def manKey (m : List Byte) : List Byte := (m.drop 128).take 97
def manPieceDigest (m : List Byte) (i : Nat) : BitVec 384 := digestAt m (256 + 48 * i)

/-- A manifest keeps the layout of R546. DESIGN CHOICE, log entry 8; DEDUCED, log entry 65. -/
def manFormed (m : List Byte) : Bool :=
  leAt m 0 4 == 0x564B554D && leAt m 4 2 == 1 && decide (manKind m ≤ 1) &&
    (if manKind m = 0 then manPlaybook m == 0 && decide (manSecver m ≤ 63)
      else decide (manPlaybook m < 4) && manSecver m == 0) &&
    allZero ((m.drop 117).take 11) && allZero ((m.drop 225).take 31) &&
    manPieces m == (manDeltaLen m + 65535) / 65536 && decide (1 ≤ manPieces m) &&
    m.length == 256 + 48 * manPieces m + 96

/-- The manifest's key is one whose digest the boot ROM holds (R547). DESIGN CHOICE, log entry 8. -/
def State.keyKnown (s : State) (m : List Byte) : Bool := s.flash.keys.contains (sha384 (manKey m))

/-- The length piece `i` must have (R547). -/
def Session.pieceLen (u : Session) (i : Nat) : Nat :=
  if i + 1 = u.pieceCount then u.deltaLen - 65536 * (u.pieceCount - 1) else 65536

/-- A piece is accepted: its length is exact and its digest is the manifest's (R547). -/
def Session.pieceOk (u : Session) (i : Nat) (bs : List Byte) : Bool :=
  bs.length == u.pieceLen i && sha384 bs == manPieceDigest u.manifest i

/-! ### The delta stream (R548) -/

/-- Target bytes built by the records of a delta stream, or none where it breaks R548. `fuel` bounds the
records, each of which takes at least 8 bytes. -/
def applyDelta (base : List Byte) (hasBase : Bool) (targetLen : Nat) :
    Nat → List Byte → List Byte → Option (List Byte)
  | 0, _, _ => none
  | fuel + 1, st, acc =>
    if st.length < 8 then none
    else
      let op := leAt st 0 1
      let v := leAt st 1 1
      let n := leAt st 2 6
      let rest := st.drop 8
      if op = 0 then (if acc.length = targetLen then some acc else none)
      else if targetLen < acc.length + n then none
      else if op = 1 then
        let off := leAt rest 0 8
        if rest.length < 8 ∨ !hasBase ∨ base.length < off + n then none
        else applyDelta base hasBase targetLen fuel (rest.drop 8) (acc ++ (base.drop off).take n)
      else if op = 2 then
        let padded := (n + 7) / 8 * 8
        if rest.length < padded then none
        else applyDelta base hasBase targetLen fuel (rest.drop padded) (acc ++ rest.take n)
      else if op = 3 then
        applyDelta base hasBase targetLen fuel rest (acc ++ List.replicate n (BitVec.ofNat 8 v))
      else none

/-! ### The session -/

/-- The number of pieces staged (R566). -/
def State.staged (s : State) : Nat := s.flash.pieces.length

/-- UPD_STATUS shows the session (R566). -/
def State.updShow (s : State) : State :=
  let u := s.flash.session
  let f (g : Session → Nat) : Nat := (u.map g).getD 0
  let s := s.setFld .mgs_UPD_STATUS [] f_mgs_UPD_STATUS_state (f (·.state))
  let s := s.setFld .mgs_UPD_STATUS [] f_mgs_UPD_STATUS_holder (f (·.holder))
  let s := s.setFld .mgs_UPD_STATUS [] f_mgs_UPD_STATUS_piece_count (f (·.pieceCount))
  let s := s.setFld .mgs_UPD_STATUS [] f_mgs_UPD_STATUS_staged (if u.isSome then s.staged else 0)
  s.setFlag .mgs_UPD_STATUS [] f_mgs_UPD_STATUS_retained s.flash.retained.isSome

/-- The session record with the highest sequence, which is the current one (R554). -/
def Flash.current (f : Flash) : Nat × Option Session :=
  f.recs.foldl (fun best e => if best.1 < e.2.1 then e.2 else best) (0, none)

/-- The session changed: its record is written with the next sequence to the next erased 4 KiB, the other sector erased
where that lies in it (R554). DESIGN CHOICE, log entry 80. -/
def State.setSession (s : State) (u : Option Session) : State :=
  let same := u.map (fun (u : Session) => { u with seq := 0 }) = s.flash.session.map fun (u : Session) => { u with seq := 0 }
  let s := if same then s
    else
      let n := s.flash.current.1 + 1
      let slot := (n - 1) % 32
      let u := u.map fun (u : Session) => { u with seq := n }
      let turns := n != 1 && slot % 16 == 0
      let recs := if turns then s.flash.recs.filter fun e => e.1 / 16 != slot / 16 else s.flash.recs
      let s := s.when turns (·.countErases (0x1531 + slot / 16) 1)
      { s with flash := { s.flash with session := u, recs := SMap.insert recs slot (n, u) } }
  s.updShow

/-- The detail of the latest apply (R566). -/
def State.setDetail (s : State) (d : Nat) : State := s.setFld .mgs_UPD_STATUS [] f_mgs_UPD_STATUS_last_detail d

/-- A source is the holder or has joined; the partner is source 5 of every session (R550, R555). -/
def State.isMember (s : State) (u : Session) (src : Nat) : Bool :=
  u.holder == src || src == 5 || s.mgmt.members.contains src

/-- Activity of a member is recorded in the session record, at most once per 86,400 powered seconds; until it may be, it
is only noted (R551). DESIGN CHOICE, log entry 80. -/
def State.active (s : State) (u : Session) : State :=
  if u.lastActivity + 86400 ≤ s.poweredS then
    { s with mgmt := { s.mgmt with seen := false } }.setSession (some { u with lastActivity := s.poweredS })
  else { s with mgmt := { s.mgmt with seen := true } }.setSession (some u)

/-- The activity that was noted is recorded once it may be; the time from which the session's idle days count (R551).
DESIGN CHOICE, log entry 80. -/
def State.idleFrom (s : State) (u : Session) : Nat := if s.mgmt.seen then u.lastActivity + 86400 else u.lastActivity

/-- Holder and target of the session, as the inline bytes of a HOLDER refusal (R550). -/
def holderInline (u : Session) : List Byte := natLE 1 u.holder ++ List.replicate 7 0 ++ digest16 u.target

/-- The staging bitmap's 128 bytes: a bit is 1 where the piece is missing (R554). -/
def State.stagingBitmap (s : State) : List Byte :=
  natLE 128 ((List.range 1024).foldl
    (fun n i => if (SMap.find? s.flash.pieces i).isSome then n else n + 2 ^ i) 0)

/-- The bits of the pieces the session lacks (R555). -/
def State.missingBits (s : State) (u : Session) : Nat :=
  (List.range u.pieceCount).foldl
    (fun n i => if (SMap.find? s.flash.pieces i).isSome then n else n + 2 ^ i) 0

/-- A PIECE record placed in the rally stream (R555). -/
def State.pieceSend (s : State) (subkind idx : Nat) (body : List Byte) : State :=
  s.rallyPut 0xB 0 ((subkind * 2 ^ 24 + idx % 2 ^ 24) :: toWords body)

/-- WANT sent to the partner (R555). -/
def State.sendWant (s : State) : State :=
  match s.flash.session with
  | some u => s.pieceSend 1 0 (natBE 48 u.target.toNat ++ natBE 128 (s.missingBits u))
  | none => s

/-- The digest of the base R557 names for a kind and playbook area. -/
def State.baseDigest (s : State) (kind n : Nat) : BitVec 384 :=
  let h := s.header
  if kind = 0 then (if h.active then h.digestB else h.digestA)
  else sha384 (SMap.get [] s.flash.playbooks n)

/-- Why an UPD_OPEN with no session is refused, if it is (R550 step 2, R557): status and detail.
DEDUCED, log entry 65. -/
def State.openRefused (s : State) (m : List Byte) : Option (Nat × Nat) :=
  let kind := manKind m
  let n := manPlaybook m
  let inUse := kind == 1 && n == s.fld .glb_BOOT_STATUS [] f_glb_BOOT_STATUS_playbook
  let limit := if kind = 0 then 64 * 1048576 else 48 * 1048576
  if inUse || (manBase m != 0 && manBase m != s.baseDigest kind n) then some (4, 5)
  else if kind = 0 ∧ manSecver m < s.fused then some (4, 6)
  else if 1020 < manPieces m ∨ limit < manTargetLen m then some (4, 7)
  else none

/-- UPD_OPEN (R550, R552). `sigOk` says whether the manifest's signature verifies with its key (R547).
DESIGN CHOICE, log entry 8; DEDUCED, log entry 65. -/
def execUpdOpen (src : Fin 6) (d : MboxDesc) (buf : DmaRead) (sigOk : Bool) (s : State) : Res :=
  go <| s.command src 0x40 d fun s =>
    match buf with
    | .failed st => { state := s.dmaErr 42 st, status := 5 }
    | .data m =>
      if !(manFormed m && s.keyKnown m && sigOk) then { state := s, status := 2, detail := 3 }
      else
        match s.flash.session with
        | some u =>
          if u.target = manTarget m then
            let s := { s with mgmt := { s.mgmt with
              members := if s.isMember u src then s.mgmt.members else s.mgmt.members ++ [src.val] } }
            let s := (s.active u).postEvent 0x181 (natLE 1 src.val)
            let s := s.when s.mgmt.wantDue fun s => { s.sendWant with mgmt := { s.sendWant.mgmt with wantDue := false } }
            { state := s, detail := 1 }
          else
            { state := s.postEvent 0x182 (natLE 1 src.val ++ natLE 1 u.holder)
              status := 3, detail := 17, inline := holderInline u }
        | none =>
          match s.openRefused m with
          | some (st, det) => { state := s, status := st, detail := det }
          | none =>
            let dest := if manKind m = 0 then (if s.header.active then 0 else 1) else manPlaybook m
            let u : Session :=
              { state := 1, seq := 0, target := manTarget m, base := manBase m, holder := src.val
                kind := manKind m, dest, pieceCount := manPieces m, targetLen := manTargetLen m
                deltaLen := manDeltaLen m, secver := manSecver m, lastActivity := s.poweredS, manifest := m }
            let s := s.when (s.mgmt.stagingDirty || s.flash.retained.isSome) (·.countErases 0x1531 1024)
            let s := { s with
              flash := { s.flash with pieces := [], retained := none }
              mgmt := { s.mgmt with
                members := [], stagingDirty := false, sinceWant := 0, wantDue := false, seen := false } }
            let s := s.setSession (some u)
            let s := s.postEvent 0x180 (natLE 1 src.val ++ natLE 1 u.kind ++ natLE 2 u.pieceCount ++
              digest16 u.target)
            { state := s.sendWant }

/-- A piece from a source (R552, R554, R555): the state after it, its status and its detail. -/
def State.stagePiece (s : State) (src i : Nat) (bs : List Byte) : State × Nat × Nat :=
  match s.flash.session with
  | none => (s, 3, 8)
  | some u =>
    if !s.isMember u src then (s, 3, 17)
    else if u.state = 3 then (s, 3, 10)
    else if u.pieceCount ≤ i then (s, 2, 18)
    else if (SMap.find? s.flash.pieces i).isSome then (s.active u, 0, 2)
    else if !u.pieceOk i bs then (s.postEvent 0x183 (natLE 1 src ++ natLE 4 i), 2, 4)
    else
      let s := { s with flash := { s.flash with pieces := SMap.insert s.flash.pieces i bs } }
      let full := s.staged == u.pieceCount
      let s := s.active (if full then { u with state := 2 } else u)
      let s := if full then s.postEvent 0x184 [] else s
      let n := s.mgmt.sinceWant + 1
      let s := { s with mgmt := { s.mgmt with sinceWant := n % 1024 } }
      (if n = 1024 then s.sendWant else s, 0, 0)

/-- UPD_PIECE (R552). -/
def execUpdPiece (src : Fin 6) (d : MboxDesc) (buf : DmaRead) (s : State) : Res :=
  go <| s.command src 0x41 d fun s =>
    match buf with
    | .failed st => { state := s.dmaErr 42 st, status := 5 }
    | .data bs =>
      let inline := (s.flash.session.map holderInline).getD []
      let (s, st, det) := s.stagePiece src (d.args.toNat % 2 ^ 32) bs
      { state := s, status := st, detail := det, inline := if det = 17 then inline else [] }

/-- A command of a member is activity (R551). -/
def State.memberActs (s : State) (src : Nat) : State :=
  match s.flash.session with
  | some u => s.when (s.isMember u src) (·.active u)
  | none => s

/-- UPD_STATUS (R551, R552). -/
def execUpdStatus (src : Fin 6) (d : MboxDesc) (s : State) : Res :=
  go <| s.command src 0x42 d fun s =>
    let s := s.memberActs src
    let f (g : Session → Nat) : Nat := (s.flash.session.map g).getD 0
    { state := s
      inline := natLE 1 (f (·.state)) ++ natLE 1 (f (·.holder)) ++ natLE 2 (f (·.pieceCount)) ++
        natLE 2 (if s.flash.session.isSome then s.staged else 0) ++
        natLE 1 (s.fld .mgs_UPD_STATUS [] f_mgs_UPD_STATUS_last_detail) ++ [0] ++
        digest16 ((s.flash.session.map (·.target)).getD 0) }

/-- UPD_BITMAP (R551, R552, R554). -/
def execUpdBitmap (src : Fin 6) (d : MboxDesc) (s : State) : Res :=
  go <| s.command src 0x43 d fun s => { state := s.memberActs src, buffer := some s.stagingBitmap }

/-- A session ends: cancelled (1), expired (2) or activated (0); only an activated one's pieces are kept,
as a retained set (R551, R552, R559, R565). -/
def State.endSession (s : State) (cause : Nat) : State :=
  let old := s.flash.session
  let s := { s with
    flash := { s.flash with
      retained := if cause = 0 then old else none
      pieces := if cause = 0 then s.flash.pieces else [] }
    mgmt := { s.mgmt with members := [], stagingDirty := true } }
  (s.setSession none).postEvent 0x185 (natLE 1 cause)

/-- UPD_CANCEL (R552). -/
def execUpdCancel (src : Fin 6) (d : MboxDesc) (s : State) : Res :=
  go <| s.command src 0x44 d fun s =>
    match s.flash.session with
    | none => { state := s, status := 3, detail := 8 }
    | some u =>
      if u.state = 3 then { state := s, status := 3, detail := 10 }
      else if src = 0 ∨ u.holder = src.val then { state := s.endSession 1 }
      else if s.isMember u src then { state := s, status := 3, detail := 16 }
      else { state := s, status := 3, detail := 17, inline := holderInline u }

/-- The staged pieces that do not match their digests (R556 step 1). DEDUCED, log entry 65. -/
def State.badPieces (s : State) (u : Session) : List Nat :=
  (s.flash.pieces.filter fun p => !u.pieceOk p.1 p.2).map (·.1)

/-- The state and held reason of the session's destination slot written to the header (R545). -/
def State.markSlot (s : State) (u : Session) (st : Nat) (digest : BitVec 384) (secver : Nat) : State :=
  if u.kind = 0 then
    let b := u.dest == 1
    (s.writeHeader ((s.header.setSlot b st 0).setImage b digest secver)).showSlots
  else s

/-- UPD_APPLY (R552, R556): a complete session moves to APPLYING; its destination slot is WRITING once every
piece has been checked. DEDUCED, log entry 65. -/
def execUpdApply (src : Fin 6) (d : MboxDesc) (s : State) : Res :=
  go <| s.command src 0x45 d fun s =>
    match s.flash.session with
    | none => { state := s, status := 3, detail := 8 }
    | some u =>
      if !s.isMember u src then { state := s, status := 3, detail := 17, inline := holderInline u }
      else if u.state = 3 then { state := s, status := 3, detail := 10 }
      else if s.staged < u.pieceCount then { state := s, status := 3, detail := 9 }
      else
        let s := { s with mgmt := { s.mgmt with applying := true } }.active { u with state := 3 }
        { state := if s.badPieces u = [] then s.markSlot u 1 0 0 else s }

/-- The base the delta's COPY records read (R557): the active slot's image or the playbook area. -/
def State.baseBytes (s : State) (u : Session) : List Byte :=
  if u.kind = 0 then (if s.header.active then s.flash.slotB else s.flash.slotA)
  else SMap.get [] s.flash.playbooks u.dest

/-- Why an apply fails before its destination is erased, if it does: a playbook's base does not fit into the sectors that
no piece occupies, or its copy does not have the base's digest (R557). DEDUCED, log entry 65. -/
def State.applyBars (s : State) (u : Session) : Option Nat :=
  let base := s.baseBytes u
  if u.kind ≠ 1 ∨ u.base = 0 then none
  else if 1020 < u.pieceCount + (base.length + 65535) / 65536 then some 7
  else if sha384 base ≠ u.base then some 11
  else none

/-- The result of an apply that has erased its destination (R556, R557): the target, or the detail of the failure. -/
def State.applyResult (s : State) (u : Session) (ownCheckOk flashError : Bool) : Except Nat (List Byte) :=
  let base := s.baseBytes u
  let hasBase := u.base != 0
  if flashError then .error 14
  else
    let stream := s.flash.pieces.flatMap (·.2)
    match applyDelta base hasBase u.targetLen (stream.length + 1) stream [] with
    | none => .error 15
    | some t =>
      if sha384 t ≠ u.target then .error 11
      else if u.kind = 0 ∧ (!ownCheckOk ∨ u.secver < s.fused) then .error 11
      else .ok t

/-- The destination's first sector and its sectors (R519). -/
def Session.destArea (u : Session) : Nat × Nat :=
  if u.kind = 0 then (if u.dest = 1 then (0x0401, 1024) else (0x0001, 1024)) else (0x0801 + 0x300 * u.dest, 768)

/-- The destination is erased and the target stored in it (R556). -/
def State.storeTarget (s : State) (u : Session) (t : List Byte) : State :=
  let s := s.countErases u.destArea.1 u.destArea.2
  if u.kind = 0 then
    if u.dest = 1 then { s with flash := { s.flash with slotB := t } }
    else { s with flash := { s.flash with slotA := t } }
  else { s with flash := { s.flash with playbooks := SMap.put [] s.flash.playbooks u.dest t } }

/-- UPD_APPLY_DONE (R556 to R558): the apply ends; the destination is READY or EMPTY. `ownCheckOk` is the
verdict on an image's own signature, `flashError` a failure of the flash. A restart has stopped the apply, and nothing
comes of it. DESIGN CHOICE, log entry 8; DEDUCED, log entry 65. -/
def execUpdApplyDone (ownCheckOk : Bool) (flashError : Bool) (s : State) : Res :=
  match s.flash.session with
  | none => go s
  | some u =>
    if u.state ≠ 3 ∨ !s.mgmt.applying then go s
    else
      let s := { s with mgmt := { s.mgmt with applying := false } }
      let bad := s.badPieces u
      if bad ≠ [] then
        let s := s.countErases 0x1533 1
        let s := { s with flash := { s.flash with pieces := s.flash.pieces.filter fun p => !bad.contains p.1 } }
        let s := (s.setSession (some { u with state := 1 })).setDetail 4
        go (s.postEvent 0x187 (natLE 1 4))
      else match s.applyBars u with
      | some det =>
        let s := (s.setSession (some { u with state := 2 })).setDetail det
        go (s.postEvent 0x187 (natLE 1 det))
      | none =>
        match s.applyResult u ownCheckOk flashError with
        | .ok t =>
          let s := (s.storeTarget u t).markSlot u 2 u.target u.secver
          let s := (s.setSession (some { u with state := 4 })).setDetail 0
          go (s.postEvent 0x186 (natLE 1 u.dest))
        | .error det =>
          let s := (s.storeTarget u []).markSlot u 0 0 0
          let s := (s.setSession (some { u with state := 2 })).setDetail det
          go (s.postEvent 0x187 (natLE 1 det))

/-- UPD_ACTIVATE (R552, R559): the header names the slot active with boot_fail_count 0; a session whose
destination it is ends as a retained set. -/
def execUpdActivate (src : Fin 6) (d : MboxDesc) (s : State) : Res :=
  go <| s.command src 0x46 d fun s =>
    let b := mboxArg d 0 == 1
    let h := s.header
    let st := h.slotState b
    if 1 < mboxArg d 0 ∨ (st ≠ 2 ∧ st ≠ 3) ∨ h.active = b then { state := s, status := 2, detail := 13 }
    else if h.secver b < s.fused then { state := s, status := 4, detail := 6 }
    else
      let s := (s.writeHeader { h with active := b, failCount := 0 }).showSlots
      let ends := match s.flash.session with
        | some u => u.kind == 0 && (u.dest == 1) == b && u.state != 3
        | none => false
      { state := if ends then s.endSession 0 else s }

/-- The slot of the running image (R494). -/
def State.runningSlot (s : State) : Bool := s.flag .glb_BOOT_STATUS [] f_glb_BOOT_STATUS_slot

/-- The running image's security version, to which UPD_COMMIT_VERSION raises the fused one (R560). -/
def State.runningSecver (s : State) : Nat := (s.boot.image.map fun (i : ImageInfo) => i.secver.val).getD 0

/-- UPD_COMMIT_VERSION (R552, R560): fuses are blown until the version is the running image's, which is never lower; where
power is lost after `cut` of them, the version stays between, and PWRGOOD is low. -/
def execUpdCommitVersion (src : Fin 6) (d : MboxDesc) (s : State) (cut : Option (Fin 64) := none) : Res :=
  match cut with
  | some k =>
    if s.commandReady src && mboxWell d && s.header.slotState s.runningSlot == 3 && decide (s.fused + k < s.runningSecver)
    then go { s with fused := s.fused + k }.powerOnReset else go s
  | none =>
  go <| s.command src 0x47 d fun s =>
    if s.header.slotState s.runningSlot ≠ 3 then { state := s, status := 3, detail := 12 }
    else
      let v := s.runningSecver
      if v ≤ s.fused then { state := s }
      else { state := ({ s with fused := v }.showSlots).postEvent 0x189 (natLE 1 v) }

/-- SETTINGS_RESET (R552, R564): in safe mode with fail_code SETTINGS both copies take the running image's
default settings, and the device resets after the response. DESIGN CHOICE, log entry 58. -/
def execSettingsReset (src : Fin 6) (d : MboxDesc) (s : State) : Res :=
  let own := (s.boot.image.map fun (i : ImageInfo) => i.schema).getD 0
  let ok := s.settingsHeld && s.commandReady src && mboxWell d
  let s := s.command src 0x48 d fun s =>
    if !s.settingsHeld then { state := s, status := 2, detail := 19 }
    else
      let s := { s with flash := { s.flash with set0 := .erased, set1 := .erased } }
      { state := s.writeSettings own (Config.defaultSettings own.toNat) }
  go (if ok then s.deviceReset 3 else s)

/-- SESSION_EXPIRY (R551): a session not applying, idle for 604,800 powered seconds, ends as cancelled; activity that was
only noted is recorded once a day has passed since the record.
DESIGN CHOICE, log entry 2. -/
def execSessionExpiry (s : State) : Res :=
  match s.flash.session with
  | some u =>
    if u.state ≠ 3 ∧ s.idleFrom u + 604800 ≤ s.poweredS then go (s.endSession 2)
    else if s.mgmt.seen ∧ s.idleFrom u ≤ s.poweredS then
      go ({ s with mgmt := { s.mgmt with seen := false } }.setSession (some { u with lastActivity := s.idleFrom u }))
    else go s
  | none => go s

/-- The PIECE record at the head of the received stream, where it is of a subkind: its index, its words and the state
without it. -/
def State.pieceTake (s : State) (subkind : Nat) : Option (Nat × List Nat × State) :=
  match s.rallyTake 0xB with
  | some (_, w, s) =>
    if w.headD 0 / 2 ^ 24 = subkind then some (w.headD 0 % 2 ^ 24, w.drop 1, s) else none
  | none => none

/-- The wanted pieces that this device has leave in ascending order. -/
def State.sendPieces (s : State) (bitmap : Nat) : State :=
  s.each s.flash.pieces fun s p =>
    if bitOf bitmap p.1 then s.pieceSend 2 p.1 (natBE 4 p.2.length ++ p.2) else s

/-- PIECE_WANT (R555): a device that holds the target, in a session or as a retained set, sends the wanted
pieces it has. -/
def execPieceWant (s : State) : Res :=
  match s.pieceTake 1 with
  | some (_, w, s) =>
    let target := beNat (ofWords (w.take 12))
    let holds (u : Option Session) : Bool := (u.map fun u => u.target.toNat == target).getD false
    if holds s.flash.session || holds s.flash.retained then go (s.sendPieces (beNat (ofWords ((w.drop 12).take 32))))
    else go s
  | none => go s

/-- PIECE_DATA (R555): a piece from the partner is staged as from source 5 and answered with RESULT. -/
def execPieceData (s : State) : Res :=
  match s.pieceTake 2 with
  | some (idx, w, s) =>
    let (s, st, det) := s.stagePiece 5 idx ((ofWords (w.drop 1)).take (w.headD 0))
    go (s.pieceSend 3 idx (natBE 4 (st * 256 + det)))
  | none => go s

/-- PIECE_RESULT (R555): the partner's answer is kept. -/
def execPieceResult (s : State) : Res :=
  match s.pieceTake 3 with
  | some (idx, w, s) =>
    let r := w.headD 0
    go { s with mgmt := { s.mgmt with partnerResult := some (idx, r / 256 % 256, r % 256) } }
  | none => go s

end Sys2Proof.Machine
end

