-- ==== Sys2Proof/Machine/TwinLink.lean ====
section
/-! DEFINITION. The rally link, entering and leaving step, the serve and the umpire link (chapter 12, R445 to R478). -/

namespace Sys2Proof.Machine

/-! ### Rally lanes (R450, R452) -/

/-- Rally lanes UP. -/
def State.rallyUp (s : State) : Nat := ((List.range 8).filter fun i => s.rallyState i == 4).length

/-- min_lanes as it acts: 1 to 8 (R479). -/
def State.minLanes (s : State) : Nat := max 1 (min 8 (s.fld .twn_CFG [] f_twn_CFG_min_lanes))

/-- The link comes up with its first UP lane: frame numbers begin anew on both sides, and no HELLO has been received
since (R488). DESIGN CHOICE, log entry 52. -/
def State.rallyComesUp (s : State) : State :=
  { s.setFlag .twn_PARTNER [] f_twn_PARTNER_valid false with twin := { s.twin with
    linkUp := true, goodAt := s.cycle, txSeq := 1, replay := [], acked := 0, ackAt := s.cycle, rxNext := 1
    rxAhead := [], rx := if s.twinState = 3 then s.twin.rx else [], pkt := none } }

/-- The rally link is lost or given up: the records not yet consumed of a link that is gone are void (R453). -/
def State.rallyGone (s : State) : State :=
  let s := { s with twin := { s.twin with linkUp := false, partner := none } }
  if s.inStep then s.stepEnd 15
  else if s.twinState = 1 ∧ 2 ≤ s.twin.phase then s.stepRefuse 15
  else s

/-- A rally lane enters a state: 0 OFF, 1 SIGNAL, 2 ALIGN, 3 HELLO, 4 UP, 5 STOPPING (R450, R487). Fewer than
min_lanes lanes UP end step (R464). -/
def State.rallyEnter (s : State) (i st : Nat) : State :=
  let s := s.setFld .twn_RALLY_LANE [i] f_twn_RALLY_LANE_state st
  let s := s.modRally i fun x =>
    let x := { x with since := s.cycle, good := 0, bad := 0 }
    if st = 4 then x else { x with acks := 0, heard := false, ackSent := false, helloAt := 0, hello := [] }
  let s := s.setFld .twn_STATUS [] f_twn_STATUS_lanes_up s.rallyUp
  let s := s.when (st == 4 && !s.twin.linkUp) State.rallyComesUp
  s.when (decide (s.rallyUp < s.minLanes)) (·.stepEnd 14)

/-- A lane returns to SIGNAL, counted in retrains (R396, R487). -/
def State.rallyRetrain (s : State) (i : Nat) : State :=
  (s.addSat .twn_RALLY_LANE [i] f_twn_RALLY_LANE_retrains 1).rallyEnter i 1

/-- The rally lanes start with PD21, and are STOPPING while it stops (R445, R487, R611). DEDUCED, log entry 75. -/
def State.rallyPower (s : State) (on : Bool) : State :=
  if s.flag .twn_CFG [] f_twn_CFG_enable then
    let s := s.each (List.range 8) fun s i =>
      if on then (if s.rallyState i = 0 ∧ !s.tileOut 8 (i / 4) then s.rallyEnter i 1 else s)
      else if s.rallyState i = 0 then s else s.rallyEnter i 5
    if on then s else s.rallyGone
  else s

/-- PD21 has stopped: a lane that was STOPPING is OFF (R487). -/
def State.rallyOff (s : State) : State :=
  s.each (List.range 8) fun s i => s.when (s.rallyState i == 5) (·.rallyEnter i 0)

/-- The exchange is complete: three HELLOs with ack in succession were received, and one with ack was sent. -/
def State.rallyHelloCheck (s : State) (i : Nat) : State :=
  let x := s.rallyLane i
  if s.rallyState i = 3 ∧ 3 ≤ x.acks ∧ x.ackSent then s.rallyEnter i 4 else s

/-- Whether this device would be the source: it holds the serve or held it last (R452, R464). -/
def State.claimsLog (s : State) : Bool := s.serves || s.twin.heldLast

/-- The four step_ids of the playbook: its own and three compatible ones (R452). -/
def State.stepIds (s : State) : List Nat :=
  match s.boot.playbook with
  | some p => (p.stepId.toNat % 2 ^ 32) :: ((p.compatible.map fun (c : Word) => c.toNat % 2 ^ 32) ++ [0, 0, 0]).take 3
  | none => [0, 0, 0, 0]

/-- HELLO leaves on a lane (R452). DESIGN CHOICE, log entry 52. -/
def State.rallyHelloSend (s : State) (i : Nat) : State :=
  let x := s.rallyLane i
  let b (c : Bool) (k : Nat) : Nat := if c then 2 ^ k else 0
  let flags := b x.heard 0 + b (s.flag .glb_STRAPS [] f_glb_STRAPS_twin_id) 1 + b s.claimsLog 2 +
    b (s.flag .twn_CTRL [] f_twn_CTRL_in_step_en) 3
  let p := natLE 1 1 ++ natLE 1 i ++ natLE 1 flags ++ natLE 1 (s.fld .glb_IDENT [] f_glb_IDENT_grade) ++
    natLE 2 s.devId ++ [0, 0] ++ s.stepIds.flatMap (natLE 4)
  (s.rallyFrame i 2 0 0 p).modRally i fun x => { x with helloAt := s.cycle + 1, ackSent := x.ackSent || x.heard }

/-- HELLO leaves on every UP lane when in_step_en has changed. -/
def State.rallyAnnounce (s : State) : State :=
  s.each ((List.range 8).filter fun i => s.rallyState i == 4) State.rallyHelloSend

/-- RALLY_LANE_STATE (R450, R396): what a lane's own logic finds. -/
def execRallyLaneState (i : Fin 8) (ev : RallyEvent) (s : State) : Res :=
  let x := s.rallyLane i
  match ev, s.rallyState i with
  | .signalDone, 1 => go (s.rallyEnter i 2)
  | .helloDue, 3 =>
    if x.helloAt = 0 ∨ s.passed (x.helloAt - 1) 2000 then go ((s.rallyHelloSend i).rallyHelloCheck i) else go s
  | .helloTimeout, 3 => if s.passed x.since 20000000 then go (s.rallyRetrain i) else go s
  | .errorRetrain, 4 => go (s.rallyRetrain i)
  | _, _ => go s

/-! ### Frames received (R451, R453) -/

/-- Words delivered in order join the stream (R453); frames received ahead of them follow.
DESIGN CHOICE, log entry 52. -/
def rallyAppend : Nat → TwinSt → List Nat → TwinSt
  | 0, t, _ => t
  | k + 1, t, ws =>
    let n := (t.rxNext + 1) % 2 ^ 32
    let t := { t with rx := t.rx ++ ws, rxNext := n }
    match SMap.find? t.rxAhead n with
    | some ws => rallyAppend k { t with rxAhead := SMap.erase t.rxAhead n } ws
    | none => t

/-- A data frame is delivered in fseq order; duplicates are discarded (R453). -/
def State.rallyData (s : State) (fseq : Nat) (ws : List Nat) : State :=
  let ahead := (fseq + 2 ^ 32 - s.twin.rxNext) % 2 ^ 32
  if ahead = 0 then
    let s := { s with twin := rallyAppend 4097 s.twin ws }
    if s.twin.pktPos = 0 then s.rallyNext s.twin.rx else s
  else if ahead < 4096 then { s with twin := { s.twin with rxAhead := SMap.insert s.twin.rxAhead fseq ws } }
  else s

/-- The partner's ack advances: frames up to it are kept no longer (R453). -/
def State.rallyAck (s : State) (ack : Nat) : State :=
  let d := (ack + 2 ^ 32 - s.twin.acked) % 2 ^ 32
  let out := (s.twin.txSeq + 2 ^ 32 - 1 - s.twin.acked) % 2 ^ 32
  if d = 0 ∨ out < d then s
  else
    let keep := s.twin.replay.filter fun f => (f.1 + 2 ^ 32 - ack - 1) % 2 ^ 32 < 2 ^ 31
    { s with twin := { s.twin with acked := ack, ackAt := s.cycle, replay := keep } }

/-- RALLY_FRAME_RECEIVE (R451, R453): eight good frames in succession declare alignment and four bad ones lose it
(R387, R450). DESIGN CHOICE, log entry 52. -/
def execRallyFrameReceive (i : Fin 8) (header : BitVec 128) (payload : List Byte) (s : State) : Res :=
  let st := s.rallyState i
  if st < 2 ∨ 4 < st then go s
  else
    let h := header.toNat
    let type := bitsOf h 126 2
    if rallyCrc h payload = h % 2 ^ 32 ∧ type ≠ 3 then
      let s := s.modRally i fun x => { x with good := x.good + 1, bad := 0 }
      let s := { s with twin := { s.twin with goodAt := s.cycle } }
      if st = 2 then (if 8 ≤ (s.rallyLane i).good then go (s.rallyEnter i 3) else go s)
      else
        let s := s.rallyAck (bitsOf h 56 32)
        match type with
        | 1 =>
          let used := min 256 (bitsOf h 39 9) / 4 * 4
          go ((s.count1 314 5).rallyData (bitsOf h 88 32) (toWords ((padTo 256 payload).take used)))
        | 2 => go (s.modRally i fun x => { x with hello := x.hello ++ [padTo 24 payload] })
        | _ => go s
    else
      let s := s.addSat .twn_RALLY_LANE [i.val] f_twn_RALLY_LANE_crc_errors 1
      let s := s.modRally i fun x => { x with bad := x.bad + 1, good := 0 }
      if st = 4 ∧ 4 ≤ (s.rallyLane i).bad then go (s.rallyEnter i 2) else go s

/-- RALLY_RESEND (R453): ack has not advanced for 2 µs while frames are outstanding, and every frame after it is sent
again. DESIGN CHOICE, log entry 55. -/
def execRallyResend (s : State) : Res :=
  if s.twin.linkUp && !s.twin.replay.isEmpty && s.passed s.twin.ackAt 4000 then
    let s := { s with twin := { s.twin with ackAt := s.cycle } }
    let s := (s.addWrap .twn_CNT [9] f_twn_CNT_count 1).count1 314 6
    go (s.each s.twin.replay fun s f => s.rallySend f.1 f.2)
  else go s

/-- RALLY_LOST (R453, R464): no good frame on any lane for 2 µs. DESIGN CHOICE, log entry 53. -/
def execRallyLost (s : State) : Res :=
  if s.twin.linkUp && s.passed s.twin.goodAt 4000 then go s.rallyGone else go s

/-! ### Entering step (R464, R466) -/

/-- The first of the checks of codes 32-36 that fails (R464). -/
def State.stepCheck (s : State) (flags : Nat) (ids : List Nat) : Option Nat :=
  let mine := s.stepIds
  let compatible := mine.contains (ids.headD 0) || ids.contains (mine.headD 0)
  let p (f : Fld) : Nat := s.fld .twn_PARTNER [] f
  if s.fld .glb_IDENT [] f_glb_IDENT_grade = 0 ∨ p f_twn_PARTNER_grade = 0 then some 32
  else if !compatible then some 33
  else if p f_twn_PARTNER_twin_id = s.fld .glb_STRAPS [] f_glb_STRAPS_twin_id then some 34
  else if p f_twn_PARTNER_dev_id / 2 ≠ s.devId / 2 then some 35
  else if !s.claimsLog ∧ !bitOf flags 2 then some 36
  else none

/-- The counts of entries that status registers show are zero in empty tables (R193, R202, R212, R262, R278).
DESIGN CHOICE, log entry 54. -/
def State.countsClear (s : State) : State :=
  s.each (s.regs.map (·.1)) fun s a => match findReg a with
    | some (.lpm_SLICE_STATUS, ix) =>
      (s.setFld .lpm_SLICE_STATUS ix f_lpm_SLICE_STATUS_ondie_used 0).setFld .lpm_SLICE_STATUS ix f_lpm_SLICE_STATUS_hbm_used 0
    | some (.exm_TBL_STATUS, ix) => s.setFld .exm_TBL_STATUS ix f_exm_TBL_STATUS_entries 0
    | some (.exm_LEARN_PORT, ix) => s.setFld .exm_LEARN_PORT ix f_exm_LEARN_PORT_learned 0
    | some (.tcm_BLK_STATUS, ix) =>
      (s.setFld .tcm_BLK_STATUS ix f_tcm_BLK_STATUS_used 0).setFlag .tcm_BLK_STATUS ix f_tcm_BLK_STATUS_pending false
    | some (.dtc_STATUS, ix) =>
      (s.setFld .dtc_STATUS ix f_dtc_STATUS_list_used 0).setFlag .dtc_STATUS ix f_dtc_STATUS_pending false
    | _ => s

/-- What the copy will hold is cleared on the device that is resynchronised (R467). DESIGN CHOICE, log entry 54. -/
def State.copyClear (s : State) : State :=
  { s.countsClear with
    tab := { s.tab with cells := [], ways := [], gens := [], regOld := [], ageWalk := [], epochs := [], batch := none
                        parseAt := none, held := [] }
    cls := { s.cls with tcam := [], nodes := [], rules := [], pend := [] }
    fpc := { s.fpc with otherBank := [] } }

/-- In STARTING, HELLO: once the partner requests in-step operation as well, the checks are made, and a device that
passes them goes on to RESYNC as source or as follower (R466). DESIGN CHOICE, log entry 53. -/
def State.startCheck (s : State) : State :=
  if s.twinState = 1 ∧ s.twin.phase = 1 ∧ s.twin.linkUp then
    match s.twin.partner with
    | some (flags, ids) =>
      if bitOf flags 3 then
        match s.stepCheck flags ids with
        | some cause => (s.stepRefuse cause).rallyAnnounce
        | none =>
          let source := s.claimsLog && (!bitOf flags 2 || s.serves ||
            (s.twin.peerEpoch == 0 && !s.flag .glb_STRAPS [] f_glb_STRAPS_twin_id))
          let s := { s with twin := { s.twin with phase := 2, copyQ := none, copySeen := [], joinWait := none } }
          let s := s.setFlag .twn_STATUS [] f_twn_STATUS_log_source source
          if source then s else s.copyClear
      else s
    | none => s
  else s

/-- STARTING begins (R466). -/
def State.stepStart (s : State) : State :=
  { s.setFld .twn_STATUS [] f_twn_STATUS_state 1 with twin := { s.twin with phase := 1, leftReady := false } }.healthCheck

/-- The cycle of rest of in-step operation ends (R620). DEDUCED, log entry 71. -/
def State.stepRest (s : State) : State :=
  if s.stepRests then
    if s.twinState = 2 then s.stepEnd 1
    else (s.setFlag .twn_STATUS [] f_twn_STATUS_restart_pending false).stepStart
  else s

/-- in_step_en is written (R466, R481): ON or OFF is requested. -/
def State.stepRequest (s : State) (on : Bool) : State :=
  let was := s.flag .twn_CTRL [] f_twn_CTRL_in_step_en
  let s := s.setFlag .twn_CTRL [] f_twn_CTRL_in_step_en on
  let s := match s.twinState, on with
    | 0, true => if s.stepRests then s else s.stepStart
    | 0, false => s.setFlag .twn_STATUS [] f_twn_STATUS_restart_pending false
    | 1, b => s.setFlag .twn_STATUS [] f_twn_STATUS_stop_pending (!b)
    | 2, true => s.setFlag .twn_STATUS [] f_twn_STATUS_stop_pending false
    | 2, false => if s.stepRests then s else s.stepEnd 1
    | _, b => s.setFlag .twn_STATUS [] f_twn_STATUS_restart_pending b
  let s := s.when (was != on) State.rallyAnnounce
  s.startCheck

/-- IN_STEP_ENABLE (R466). -/
def execInStepEnable (on : Bool) (s : State) : Res := go (s.stepRequest on)

/-- RALLY_HELLO (R452, R488): a HELLO of this version is shown in PARTNER, as valid while the link is up, and a device
in STARTING makes its checks. DESIGN CHOICE, log entry 52. -/
def execRallyHello (i : Fin 8) (s : State) : Res :=
  match (s.rallyLane i).hello with
  | [] => go s
  | p :: rest =>
    let s := s.modRally i fun x => { x with hello := rest }
    let dev := leAt p 4 2 % 1024
    if leAt p 0 1 ≠ 1 then go (s.modRally i fun x => { x with acks := 0 })
    else
      let flags := leAt p 2 1
      let set (s : State) (f : Fld) (v : Nat) : State := s.setFld .twn_PARTNER [] f v
      let s := set (set (set s f_twn_PARTNER_step_id (leAt p 8 4)) f_twn_PARTNER_dev_id dev)
        f_twn_PARTNER_grade (leAt p 3 1)
      let s := set s f_twn_PARTNER_twin_id (bitsOf flags 1 1)
      let ids := (List.range 4).map fun k => leAt p (8 + 4 * k) 4
      let s := { s with twin := { s.twin with partner := some (flags, ids) } }
      let s := s.modRally i fun x => { x with heard := true, acks := if bitOf flags 0 then x.acks + 1 else 0 }
      let s := s.rallyHelloCheck i
      go (s.when s.twin.linkUp (·.setFlag .twn_PARTNER [] f_twn_PARTNER_valid true)).startCheck

/-! ### The serve (R446, R473, R476) -/

/-- Cells of VOQ packets partly sent are sent no more, and what the framer and the lanes hold is discarded (R388, R476).
DESIGN CHOICE, log entry 55. -/
def State.stopCells (s : State) : State :=
  let s := { s with tm := { s.tm with dataQ := [], ctrlQ := [], tails := [], msgs := [] } }
  let s := s.each ((s.tm.lanes.filter fun e => !e.2.tx.isEmpty).map (·.1)) fun s l => s.modLane l fun x => { x with tx := [] }
  let partly := (s.tm.queues.filter fun e => isVoq e.1 && e.2.partly).map (·.1)
  s.each partly fun s q =>
    match (s.q q).pkts.find? fun p => decide (0 < p.sent) with
    | some p => (s.qDiscard q { p with sent := 0 } none).qLeft q
    | none => s

/-- SERVE_OUT is driven or its driver is off; the net keeps its level (R446, R632). -/
def State.serveDrive (s : State) (on : Bool) : State :=
  { s with pwr := { s.pwr with
    serveOut := on
    serveNet := if on then s.flag .glb_STRAPS [] f_glb_STRAPS_twin_id else s.pwr.serveNet } }

/-- The serve is released (R476). DESIGN CHOICE, log entry 55. -/
def State.serveRelease (s : State) : State :=
  let s := s.setFlag .twn_STATUS [] f_twn_STATUS_serve false
  let s := s.setFld .twn_EPOCH [] f_twn_EPOCH_held 0
  (s.stopCells.serveDrive false).healthCheck

/-- The serve is taken (R476): PNs advance, and a REQUEST goes out for every VOQ that is not empty.
DESIGN CHOICE, log entry 55. -/
def State.serveTake (s : State) : State :=
  let s := s.setFlag .twn_STATUS [] f_twn_STATUS_serve true
  let s := { s with twin := { s.twin with heldLast := true } }
  let s := (s.serveDrive true).msecJump
  let full := (s.tm.queues.filter fun e => isVoq e.1 && !e.2.pkts.isEmpty).map (·.1)
  (s.each full State.requestSend).healthCheck

/-- This device becomes the source, or the follower, of the log from H on (R469): the frames its FIFOs dropped since
are the source's to log or the follower's to be told of (R455, R457). -/
def State.handOver' (s : State) (source : Bool) : State :=
  let drops := s.twin.ownDrops ++ s.twin.srcDrops
  let s := s.setFlag .twn_STATUS [] f_twn_STATUS_handover false
  let s := { s with twin := { s.twin with
    joinT := 0, ownDrops := if source then [] else drops, srcDrops := if source then drops else [] } }
  let s := s.setFlag .twn_STATUS [] f_twn_STATUS_log_source source
  (s.each (if source then drops.map (·.mac) else []) State.logWaiting).healthCheck

/-- RELINQUISH (R469, R481): the in-step source that holds the serve stops intake, places HANDOVER with the next
number, releases the serve and sends RELINQUISH. DESIGN CHOICE, log entry 53. -/
def State.relinquish (s : State) : State :=
  if s.isSource && s.serves && !s.flag .twn_STATUS [] f_twn_STATUS_handover then
    let h := s.fpc.seqNext
    let epoch := s.fld .twn_EPOCH [] f_twn_EPOCH_held
    let s := (s.rallyPut 0xA 5 (w64 h)).setFlag .twn_STATUS [] f_twn_STATUS_handover true
    let s := { s with twin := { s.twin with handAt := s.cycle, handSeq := h } }
    s.serveRelease.umpireSend 3 epoch
  else s

/-- RELINQUISH (R469). -/
def execRelinquish (s : State) : Res := go s.relinquish

/-- HANDOVER (R469): the follower has processed its log up to H - 1. A follower that gained the serve before is the
source from H; otherwise it holds its intake until one of the two gains it. DESIGN CHOICE, log entry 55. -/
def execHandover (s : State) : Res :=
  match s.rallyHead with
  | some (0xA, 5, w, rest) =>
    let s := s.rallyNext rest
    if s.isFollower then
      if s.serves then go (s.handOver' true)
      else
        let s := s.setFlag .twn_STATUS [] f_twn_STATUS_handover true
        go { s with twin := { s.twin with handAt := s.cycle, handSeq := at64 w 0 } }
    else go s
  | _ => go s

/-- HANDOVER_TIMEOUT (R469, R480): neither device gained the serve within handover_limit µs. -/
def execHandoverTimeout (s : State) : Res :=
  if s.flag .twn_STATUS [] f_twn_STATUS_handover &&
      s.passed s.twin.handAt (cyclesPerUs * max 1 (s.fld .twn_TUNE [] f_twn_TUNE_handover_limit)) then go (s.stepEnd 17)
  else go s

/-! ### The umpire link (R470 to R477) -/

/-- The umpire link runs (R471). -/
def State.umpireRuns (s : State) : Bool := s.flag .twn_CFG [] f_twn_CFG_enable && s.pdOn 21

/-- A frame from the umpire with a bad CRC or an unknown type is discarded and counted; a good one of `type` is passed
on (R470). -/
def State.umpireFrame (s : State) (f : UmpireFrame) (type : Nat) (k : State → State) : State :=
  let t := f.type.toNat
  if !s.umpireRuns then s
  else if umpireCrc t f.msg.toNat ≠ f.crc.toNat ∨ (t ≠ 0x81 ∧ t ≠ 0x82) then
    s.addWrap .twn_CNT [2] f_twn_CNT_count 1
  else if t = type then k s
  else s

/-- Cycles of a full lease: 1,500 of CLK_AUX, 15 µs (R473). -/
def leaseCycles : Nat := 30000

/-- A GRANT of epoch `e` (R473). DESIGN CHOICE, log entry 55. -/
def State.grant (s : State) (e : Nat) : State :=
  let high := s.fld .twn_EPOCH [] f_twn_EPOCH_highest
  let held := s.fld .twn_EPOCH [] f_twn_EPOCH_held
  let ignored (s : State) : State := s.addWrap .twn_CNT [1] f_twn_CNT_count 1
  let load (s : State) : State :=
    { s.addWrap .twn_CNT [0] f_twn_CNT_count 1 with twin := { s.twin with leaseEnd := s.cycle + leaseCycles } }
  if e = 0 ∨ e < high then ignored s
  else if high < e then
    let ready := bitOf s.healthWord 21
    let s := s.setFld .twn_EPOCH [] f_twn_EPOCH_highest e
    if ready then
      let was := s.serves
      let s := load (s.setFld .twn_EPOCH [] f_twn_EPOCH_held e)
      let s := if was then s else s.serveTake
      s.when (s.inStep && s.flag .twn_STATUS [] f_twn_STATUS_handover) (·.handOver' true)
    else ignored s
  else if e = held ∧ s.serves ∧ s.cycle < s.twin.leaseEnd then load s
  else ignored s

/-- UMPIRE_GRANT (R473). DESIGN CHOICE, log entry 55. -/
def execUmpireGrant (f : UmpireFrame) (s : State) : Res := go (s.umpireFrame f 0x81 (·.grant f.msg.toNat))

/-- UMPIRE_PEER (R477): the partner's epoch; the partner then is the last holder, and during a handover the
source: the former follower, or the former source again once it names another epoch (R469).
DESIGN CHOICE, log entries 53, 55. -/
def execUmpirePeer (f : UmpireFrame) (s : State) : Res :=
  go <| s.umpireFrame f 0x82 fun s =>
    let e := f.msg.toNat
    let was := s.twin.peerEpoch
    let s := { s with twin := { s.twin with peerEpoch := e, peerAt := s.cycle } }
    if e = 0 ∨ s.serves then s
    else
      let s := { s with twin := { s.twin with heldLast := false } }
      s.when (s.inStep && s.flag .twn_STATUS [] f_twn_STATUS_handover && (s.isSource || e != was)) (·.handOver' false)

/-- PEER_EXPIRY (R477): 8 µs without a PEER that names an epoch, and the gap begins. -/
def execPeerExpiry (s : State) : Res :=
  if s.umpireRuns && !s.serves && s.twin.peerEpoch != 0 && s.passed s.twin.peerAt 16001 then
    go { s with twin := { s.twin with peerEpoch := 0 } }
  else go s

/-- HEARTBEAT_SEND (R471): every 4 µs HEARTBEAT, followed at once by HEALTH. -/
def execHeartbeatSend (s : State) : Res :=
  if s.umpireRuns && s.passed s.twin.beatAt 8000 then
    let w := s.healthWord
    let s := s.umpireSend 1 (s.fld .twn_EPOCH [] f_twn_EPOCH_held)
    let s := (s.setFld .twn_HEALTH [] f_twn_HEALTH_word w).umpireSend 2 w
    go { s with twin := { s.twin with beatAt := s.cycle } }
  else go s

/-- LEASE_EXPIRY (R473, R464): the serve is released, and a source without a handover under way leaves step. -/
def execLeaseExpiry (s : State) : Res :=
  if s.flag .twn_CFG [] f_twn_CFG_enable && s.serves && decide (s.twin.leaseEnd ≤ s.cycle) then
    let s := s.serveRelease.addWrap .twn_CNT [3] f_twn_CNT_count 1
    go (s.when (s.isSource && !s.flag .twn_STATUS [] f_twn_STATUS_handover) (·.stepEnd 16))
  else go s

end Sys2Proof.Machine
end

