-- ==== Sys2Proof/Machine/Inject.lean ====
section
/-! DEFINITION. Punts delivered to host memory and packets injected by it (chapter 13, R514 to R516). -/

namespace Sys2Proof.Machine

/-! ### Punts (R514, R515) -/

/-- The metadata header of a punt (R515). -/
def Punt.header (p : Punt) (bad cut : Bool) : List Byte :=
  natLE 8 p.seq.toNat ++ natLE 8 p.ts.toNat ++ natLE 1 p.inMac ++ natLE 1 p.source ++ natLE 1 p.verdict ++
    natLE 1 ((if bad then 1 else 0) + if cut then 2 else 0) ++ natLE 4 p.reasons ++ natLE 2 p.frameLen ++
    natLE 2 p.outLen ++ natLE 2 p.domain ++ [0, 0] ++
    padTo 32 (p.prog.flatMap fun (w : BitVec 32) => natLE 4 w.toNat)

/-- Whether a punt descriptor is bad (R509, R514). DESIGN CHOICE, log entry 56. -/
def badPuntDesc (d : List Byte) : Bool :=
  leAt d 0 8 % 64 != 0 || decide (leAt d 8 4 < 128) || !((d.drop 12).take 52).all (· == 0)

/-- The punt at the head of the FIFO leaves it. -/
def State.puntGone (s : State) : State := { s with host := { s.host with punts := s.host.punts.drop 1 } }

/-- A punt its ring cannot take is counted in the ring's drops (R514). DESIGN CHOICE, log entry 56. -/
def State.puntDrop (s : State) (p : Punt) : State :=
  s.puntGone.addSat .pci_RING_STATUS [64 + p.ring] f_pci_RING_STATUS_drops 1

/-- A punt is written to a good descriptor, which completes OK or TRUNCATED (R514, R515). -/
def State.puntWrite (s : State) (p : Punt) (d : List Byte) : State :=
  let r := 64 + p.ring
  let room := leAt d 8 4 - 64
  let cut := decide (room < p.bytes.length)
  let body := p.bytes.take room
  let s := s.ringWrite r (BitVec.ofNat 64 (leAt d 0 8)) (p.header (s.frameState p.frame == 2) cut ++ body)
  let s := s.puntComplete r (64 + body.length) (if cut then 1 else 0) p.seq
  s.puntGone.traceWay p.trace 0x0F 0 (natLE 2 p.ring ++ [if cut then 1 else 0])

/-- A punt's ring is ON and holds a descriptor (R514). -/
def State.puntTaken (s : State) (p : Punt) : Bool := s.ringWorks (64 + p.ring) && s.ringFill (64 + p.ring) != 0

/-- The punt at the head is served (R514): `descs` are the descriptors as they are read, the first at DONE. A descriptor
that cannot be read stops its ring (R498). DESIGN CHOICE, log entry 56. -/
def State.puntServe (s : State) (p : Punt) : List DmaRead → State
  | [] => if s.puntTaken p then s else s.puntDrop p
  | .failed st :: _ =>
    let r := 64 + p.ring
    if s.puntTaken p then ((s.dmaErr r st).ringStopErr r 2).puntDrop p else s.puntDrop p
  | .data d :: rest =>
    if !s.puntTaken p then s.puntDrop p
    else if badPuntDesc (padTo 64 d) then
      let (seq, s) := s.free
      (s.puntComplete (64 + p.ring) 0 2 seq).puntServe p rest
    else s.puntWrite p (padTo 64 d)

/-- PUNT_DELIVER (R514): the punt at the head of the FIFO, whose checks have completed. DESIGN CHOICE, log entry 67. -/
def execPuntDeliver (descs : List DmaRead) (s : State) : Res :=
  match s.host.punts with
  | p :: _ => if s.frameState p.frame = 1 then go s else go (s.puntServe p descs)
  | [] => go s

/-! ### Injects (R516) -/

/-- Safe mode (R528). -/
def State.safeMode (s : State) : Bool := s.fld .glb_BOOT_STATUS [] f_glb_BOOT_STATUS_stage == 8

/-- The inject ring whose turn it is: the next that is ON, holds a descriptor and waits for none of its own (R516). -/
def State.injectRing (s : State) : Option Nat :=
  ((List.range 1024).map fun i => (s.host.injNext + i) % 1024).find? fun i =>
    s.ringWorks (1088 + i) && s.ringFill (1088 + i) != 0 && (SMap.get {} s.host.ringx (1088 + i)).taken == 0

/-- Whether an inject descriptor is bad (R509, R516). DESIGN CHOICE, log entry 56. -/
def badInjectDesc (d : List Byte) (fixed : Bool) : Bool :=
  let zero (i n : Nat) : Bool := ((d.drop i).take n).all (· == 0)
  decide (2 < leAt d 10 1) || !zero 16 8 || !zero 56 8 || !bitsZero (leAt d 11 1) || (fixed && leAt d 12 4 != 0) ||
    (leAt d 10 1 != 0 && !zero 24 32)
where
  bitsZero (b : Nat) : Bool := b / 4 == 0

/-- The status a descriptor ends with at once, if any, in the order of its codes (R516). DESIGN CHOICE, log entry 56. -/
def State.injectRefused (s : State) (r : Nat) (d : List Byte) (target : Nat) (readOk : Bool) : Option Nat :=
  let mode := leAt d 10 1
  let len := leAt d 8 2
  let limit := match mode with | 0 => 256 | 1 => 524288 | _ => 65536
  if badInjectDesc d (s.flag .pci_RING_CFG [r] f_pci_RING_CFG_fixed) then some 1
  else if len < 60 ∨ 15996 < len then some 2
  else if !bitOf (s.fld .pci_RING_CFG [r] f_pci_RING_CFG_mode_mask) mode then some 3
  else if mode = 0 && s.safeMode then some 7
  else if limit ≤ target || (mode == 0 && !s.isPort target) then some 4
  else if !readOk then some 5
  else if s.isFollower then some 6
  else if mode == 0 && !s.flag .lmac_PORT_CTRL [target] f_lmac_PORT_CTRL_enable then some 7
  else none

/-- INJECT_DESCRIPTOR (R516): the next ring's descriptor is read and completes at once where it is refused; else its
packet waits for its sequence number. DESIGN CHOICE, log entries 56, 67. -/
def execInjectDescriptor (desc buf : DmaRead) (s : State) : Res :=
  match s.injectRing with
  | none => go s
  | some i =>
    let r := 1088 + i
    let s := { s with host := { s.host with injNext := (i + 1) % 1024 } }
    match desc with
    | .failed st => go ((s.dmaErr r st).ringStopErr r 2)
    | .data d =>
      let d := padTo 64 d
      let target := if s.flag .pci_RING_CFG [r] f_pci_RING_CFG_fixed then s.fld .pci_RING_CFG [r] f_pci_RING_CFG_target
        else leAt d 12 4
      let (readOk, bytes) := match buf with | .data bs => (true, padTo (leAt d 8 2) bs) | .failed _ => (false, [])
      match s.injectRefused r d target readOk with
      | some st =>
        let s := match buf with | .failed e => s.when (st == 5) (·.dmaErr r e) | .data _ => s
        go (s.injectComplete r 0 st)
      | none =>
        let p : InjPkt :=
          { ring := i, idx := s.ringCidx r, mode := leAt d 10 1, dp := min 2 (leAt d 11 1 % 4), target
            prog := (d.drop 24).take 32, bytes := bytes.take (leAt d 8 2) }
        let s := s.modRingx r fun x => { x with taken := 1 }
        go { s with host := { s.host with injHeld := s.host.injHeld ++ [p] } }

/-- An injected packet takes a sequence number (R516): a mode 0 packet enters the parser of its MAC, another goes to
admission to its queue. -/
def State.injectEnter (s : State) (mode dp target seq : Nat) (prog bytes : List Byte) (ts : Word) (d2dFull : Bool)
    (ue : List (Fin 1024)) : State :=
  if mode = 0 then s.enterParser target 0 bytes seq ts true d2dFull 0 ue prog
  else
    let s := ({ s with fpc := { s.fpc with seqNext := seq + 1 } }).polBoundary seq ts
    s.admitOut [{ seq, inMac := 0, ts, bytes, egress := mode == 2, queue := target, dp }]

/-- The INJECT record of a packet (R454). -/
def injectWords (seq : Nat) (p : InjPkt) : List Nat := w64 seq ++ [p.bytes.length, p.ring] ++ toWords p.bytes

/-- The one mode that an inject ring's mode_mask allows, where it allows no other (R500). -/
def onlyMode (mask : Nat) : Option Nat := (List.range 3).find? fun m => mask % 8 == 2 ^ m

/-- What a forwarded packet's record does not say, where its ring does not say it either: the mode, the drop precedence, the
target and prog are free values within their ranges (R454, R516). DESIGN CHOICE, log entry 52. -/
def State.injectRest (s : State) (r : Nat) : (Nat × Nat × Nat × List Byte) × State :=
  let (a, s) := s.free
  let (b, s) := s.free
  let mode := (onlyMode (s.fld .pci_RING_CFG [1088 + r] f_pci_RING_CFG_mode_mask)).getD (a.toNat % 3)
  let limit := match mode with | 0 => 256 | 1 => 524288 | _ => 65536
  let target := if s.flag .pci_RING_CFG [1088 + r] f_pci_RING_CFG_fixed then
      s.fld .pci_RING_CFG [1088 + r] f_pci_RING_CFG_target else b.toNat % limit
  if mode = 0 then
    let (c, s) := s.free
    let (d, s) := s.free
    let (e, s) := s.free
    let (f, s) := s.free
    ((0, 0, target % 256, [c, d, e, f].flatMap fun v => natLE 8 v.toNat), s)
  else ((mode, a.toNat / 4 % 3, target, List.replicate 32 0), s)

/-- INJECT_ENTRY (R516, R646): the packet that ring `r` holds takes its number; on an in-step source it is forwarded
and logged. `ce` corrected errors were met in the parser (R57). DESIGN CHOICE, log entry 56. -/
def execInjectEntry (r : Fin 1024) (d2dFull : Bool) (ue : List (Fin 1024)) (ce : Nat) (s : State) : Res :=
  match s.host.injHeld.find? fun p => p.ring == r.val with
  | none => go s
  | some p =>
    let leave (s : State) (seq : Nat) (st : Nat) : State :=
      let s := { s with host := { s.host with injHeld := s.host.injHeld.filter fun x => x.ring != r.val } }
      (s.modRingx (1088 + r.val) fun x => { x with taken := 0 }).injectComplete (1088 + r.val) (BitVec.ofNat 64 seq) st
    let held := s.following || s.intakeHeld ||
      (s.twinState == 1 && decide (3 ≤ s.twin.phase) && !s.flag .twn_STATUS [] f_twn_STATUS_log_source)
    if s.isFollower then go (leave s 0 6)
    else if held || (p.mode == 0 && !s.waitFree p.target) then go s
    else
      let s := State.joinPoint s
      let seq := s.fpc.seqNext
      let ts := s.pwr.time
      let s := s.when s.isSource fun s => (s.rallyPut 6 0 (injectWords seq p)).logEntry 3 0 0 ts
      let s := s.when (p.mode == 0) (·.addSat .prs_STATUS [] f_prs_STATUS_ce_count ce)
      go (leave (s.injectEnter p.mode p.dp p.target seq p.prog p.bytes ts d2dFull ue) seq 0)

end Sys2Proof.Machine
end

