-- ==== Sys2Proof/Machine/Jtag.lean ====
section
/-! DEFINITION. The JTAG TAP (chapter 18, R635). -/

namespace Sys2Proof.Machine

/-- The TAP state changed. -/
def State.jtag (s : State) (ir : BitVec 8) (pins : JtagPins) : State :=
  { s with pwr := { s.pwr with jtagIr := ir, jtagPins := pins } }

/-- BYPASS: one zero bit between TDI and TDO; the pins are functional. -/
def State.jtagBypass (s : State) (ir : BitVec 8) : State := (s.jtag ir .functional).emit (.jtagTdo 0 1)

/-- The boundary-scan register is shifted out and takes `tdi`. DESIGN CHOICE, log entry 59. -/
def State.jtagShift (s : State) (tdi : BitVec 104) : State :=
  { s.emit (.jtagTdo s.pwr.jtagBsr.toNat 104) with pwr := { s.pwr with jtagBsr := tdi } }

/-- RESET_N holds a device reset, which EXTEST, CLAMP and HIGHZ need (R635). -/
def State.jtagMayDrive (s : State) : Bool := s.pwr.inReset && s.pwr.resetPin

/-- JTAG_EXTEST (R635): drives the pins from the boundary-scan register, or acts as BYPASS.
DESIGN CHOICE, log entry 59. -/
def execJtagExtest (tdi : BitVec 104) (s : State) : Res :=
  if s.jtagMayDrive then go ((s.jtagShift tdi).jtag 0x00 .extest) else go (s.jtagBypass 0x00)

/-- JTAG_IDCODE (R635). -/
def execJtagIdcode (s : State) : Res := go ((s.jtag 0x01 .functional).emit (.jtagTdo 0x051209A7 32))

/-- JTAG_SAMPLE_PRELOAD (R635): the pins are sampled and shifted out, and `tdi` is preloaded. -/
def execJtagSamplePreload (pins tdi : BitVec 104) (s : State) : Res :=
  go (({ s with pwr := { s.pwr with jtagBsr := pins } }.jtagShift tdi).jtag 0x02 .functional)

/-- JTAG_CLAMP (R635). -/
def execJtagClamp (s : State) : Res :=
  if s.jtagMayDrive then go ((s.jtag 0x04 .clamp).emit (.jtagTdo 0 1)) else go (s.jtagBypass 0x04)

/-- JTAG_HIGHZ (R635). -/
def execJtagHighz (s : State) : Res :=
  if s.jtagMayDrive then go ((s.jtag 0x05 .highZ).emit (.jtagTdo 0 1)) else go (s.jtagBypass 0x05)

/-- JTAG_DEBUG (R635, R517, R523): the RISC-V debug transport is selected; in stage 0 recovery a debugger may load the
image `img` into SRAM and start it. DESIGN CHOICE, log entry 57. -/
def execJtagDebug (s : State) (img : Option ImageInfo := none) : Res :=
  let s := s.jtag 0x10 .functional
  match img with
  | some i => if s.pwr.xspiOff then go { s with boot := { s.boot with image := some i, mgmtUp := true } } else go s
  | none => go s

/-- JTAG_BYPASS (R635), and every unlisted code. -/
def execJtagBypass (s : State) : Res := go (s.jtagBypass 0xFF)

/-- JTAG_TRST (R635): the TAP is in Test-Logic-Reset, with IDCODE selected. DESIGN CHOICE, log entry 59. -/
def execJtagTrst (s : State) : Res := go (s.jtag 0x01 .functional)

end Sys2Proof.Machine
end

