-- ==== Sys2Proof/Machine/KArith.lean ====
section
/-! DEFINITION. Arithmetic, immediate, bit-field and branch instructions as commands (R138, R139): thread `t` of cluster
`c`, where it runs, issues the instruction with these fields, and `err` says
what its fetch and its reads meet in the cluster memories (R120), nothing unless it is said. -/

namespace Sys2Proof.Machine

/-- ADD (R138). -/
def execAdd (c : Fin 32) (t : Fin 128) (rd ra rb : BitVec 5) (s : State) (err : CoreErr := .clean) : Res :=
  s.issue c t err (.alu .add rd ra rb)

/-- SUB (R138). -/
def execSub (c : Fin 32) (t : Fin 128) (rd ra rb : BitVec 5) (s : State) (err : CoreErr := .clean) : Res :=
  s.issue c t err (.alu .sub rd ra rb)

/-- AND (R138). -/
def execAnd (c : Fin 32) (t : Fin 128) (rd ra rb : BitVec 5) (s : State) (err : CoreErr := .clean) : Res :=
  s.issue c t err (.alu .and rd ra rb)

/-- OR (R138). -/
def execOr (c : Fin 32) (t : Fin 128) (rd ra rb : BitVec 5) (s : State) (err : CoreErr := .clean) : Res :=
  s.issue c t err (.alu .or rd ra rb)

/-- XOR (R138). -/
def execXor (c : Fin 32) (t : Fin 128) (rd ra rb : BitVec 5) (s : State) (err : CoreErr := .clean) : Res :=
  s.issue c t err (.alu .xor rd ra rb)

/-- SHL (R138). -/
def execShl (c : Fin 32) (t : Fin 128) (rd ra rb : BitVec 5) (s : State) (err : CoreErr := .clean) : Res :=
  s.issue c t err (.alu .shl rd ra rb)

/-- SHR (R138). -/
def execShr (c : Fin 32) (t : Fin 128) (rd ra rb : BitVec 5) (s : State) (err : CoreErr := .clean) : Res :=
  s.issue c t err (.alu .shr rd ra rb)

/-- SAR (R138). -/
def execSar (c : Fin 32) (t : Fin 128) (rd ra rb : BitVec 5) (s : State) (err : CoreErr := .clean) : Res :=
  s.issue c t err (.alu .sar rd ra rb)

/-- ROTR (R138). -/
def execRotr (c : Fin 32) (t : Fin 128) (rd ra rb : BitVec 5) (s : State) (err : CoreErr := .clean) : Res :=
  s.issue c t err (.alu .rotr rd ra rb)

/-- SLT (R138). -/
def execSlt (c : Fin 32) (t : Fin 128) (rd ra rb : BitVec 5) (s : State) (err : CoreErr := .clean) : Res :=
  s.issue c t err (.alu .slt rd ra rb)

/-- SLTU (R138). -/
def execSltu (c : Fin 32) (t : Fin 128) (rd ra rb : BitVec 5) (s : State) (err : CoreErr := .clean) : Res :=
  s.issue c t err (.alu .sltu rd ra rb)

/-- MINU (R138). -/
def execMinu (c : Fin 32) (t : Fin 128) (rd ra rb : BitVec 5) (s : State) (err : CoreErr := .clean) : Res :=
  s.issue c t err (.alu .minu rd ra rb)

/-- MAXU (R138). -/
def execMaxu (c : Fin 32) (t : Fin 128) (rd ra rb : BitVec 5) (s : State) (err : CoreErr := .clean) : Res :=
  s.issue c t err (.alu .maxu rd ra rb)

/-- MUL (R138). -/
def execMul (c : Fin 32) (t : Fin 128) (rd ra rb : BitVec 5) (s : State) (err : CoreErr := .clean) : Res :=
  s.issue c t err (.alu .mul rd ra rb)

/-- MULHU (R138). -/
def execMulhu (c : Fin 32) (t : Fin 128) (rd ra rb : BitVec 5) (s : State) (err : CoreErr := .clean) : Res :=
  s.issue c t err (.alu .mulhu rd ra rb)

/-- CSUM (R138). -/
def execCsum (c : Fin 32) (t : Fin 128) (rd ra rb : BitVec 5) (s : State) (err : CoreErr := .clean) : Res :=
  s.issue c t err (.alu .csum rd ra rb)

/-- POPC (R138). -/
def execPopc (c : Fin 32) (t : Fin 128) (rd ra : BitVec 5) (s : State) (err : CoreErr := .clean) : Res :=
  s.issue c t err (.alu .popc rd ra 0)

/-- CLZ (R138). -/
def execClz (c : Fin 32) (t : Fin 128) (rd ra : BitVec 5) (s : State) (err : CoreErr := .clean) : Res :=
  s.issue c t err (.alu .clz rd ra 0)

/-- BSWAP (R138). -/
def execBswap (c : Fin 32) (t : Fin 128) (rd ra : BitVec 5) (s : State) (err : CoreErr := .clean) : Res :=
  s.issue c t err (.alu .bswap rd ra 0)

/-- BSWAP32 (R138). -/
def execBswap32 (c : Fin 32) (t : Fin 128) (rd ra : BitVec 5) (s : State) (err : CoreErr := .clean) : Res :=
  s.issue c t err (.alu .bswap32 rd ra 0)

/-- BSWAP16 (R138). -/
def execBswap16 (c : Fin 32) (t : Fin 128) (rd ra : BitVec 5) (s : State) (err : CoreErr := .clean) : Res :=
  s.issue c t err (.alu .bswap16 rd ra 0)

/-- ADDI (R139). -/
def execAddi (c : Fin 32) (t : Fin 128) (rd ra : BitVec 5) (imm : BitVec 16)
    (s : State) (err : CoreErr := .clean) : Res :=
  s.issue c t err (.imm .addi rd ra imm)

/-- ANDI (R139). -/
def execAndi (c : Fin 32) (t : Fin 128) (rd ra : BitVec 5) (imm : BitVec 16)
    (s : State) (err : CoreErr := .clean) : Res :=
  s.issue c t err (.imm .andi rd ra imm)

/-- ORI (R139). -/
def execOri (c : Fin 32) (t : Fin 128) (rd ra : BitVec 5) (imm : BitVec 16)
    (s : State) (err : CoreErr := .clean) : Res :=
  s.issue c t err (.imm .ori rd ra imm)

/-- XORI (R139). -/
def execXori (c : Fin 32) (t : Fin 128) (rd ra : BitVec 5) (imm : BitVec 16)
    (s : State) (err : CoreErr := .clean) : Res :=
  s.issue c t err (.imm .xori rd ra imm)

/-- SLTI (R139). -/
def execSlti (c : Fin 32) (t : Fin 128) (rd ra : BitVec 5) (imm : BitVec 16)
    (s : State) (err : CoreErr := .clean) : Res :=
  s.issue c t err (.imm .slti rd ra imm)

/-- SLTIU (R139). -/
def execSltiu (c : Fin 32) (t : Fin 128) (rd ra : BitVec 5) (imm : BitVec 16)
    (s : State) (err : CoreErr := .clean) : Res :=
  s.issue c t err (.imm .sltiu rd ra imm)

/-- SHI (R139): `kind` is imm[7:6] and `amt` imm[5:0]. -/
def execShi (c : Fin 32) (t : Fin 128) (kind : BitVec 2) (rd ra : BitVec 5) (amt : BitVec 6)
    (s : State) (err : CoreErr := .clean) : Res :=
  s.issue c t err (.shi kind rd ra amt)

/-- LUI (R139). -/
def execLui (c : Fin 32) (t : Fin 128) (rd : BitVec 5) (imm : BitVec 16)
    (s : State) (err : CoreErr := .clean) : Res :=
  s.issue c t err (.lui rd imm)

/-- EXT (R139). -/
def execExt (c : Fin 32) (t : Fin 128) (rd ra : BitVec 5) (pos wm1 : BitVec 6)
    (s : State) (err : CoreErr := .clean) : Res :=
  s.issue c t err (.field .ext rd ra pos wm1)

/-- EXTS (R139). -/
def execExts (c : Fin 32) (t : Fin 128) (rd ra : BitVec 5) (pos wm1 : BitVec 6)
    (s : State) (err : CoreErr := .clean) : Res :=
  s.issue c t err (.field .exts rd ra pos wm1)

/-- INS (R139). -/
def execIns (c : Fin 32) (t : Fin 128) (rd ra : BitVec 5) (pos wm1 : BitVec 6)
    (s : State) (err : CoreErr := .clean) : Res :=
  s.issue c t err (.field .ins rd ra pos wm1)

/-- MASK (R139). -/
def execMask (c : Fin 32) (t : Fin 128) (rd ra : BitVec 5) (pos wm1 : BitVec 6)
    (s : State) (err : CoreErr := .clean) : Res :=
  s.issue c t err (.field .mask rd ra pos wm1)

/-- BCC (R139): the hint changes timing only (R134). -/
def execBcc (c : Fin 32) (t : Fin 128) (cond : BitVec 3) (ra rb : BitVec 5) (hint : Bool) (off : BitVec 12)
    (s : State) (err : CoreErr := .clean) : Res :=
  s.issue c t err (.bcc (Cond.ofCode cond) ra rb hint off)

/-- J (R139). -/
def execJ (c : Fin 32) (t : Fin 128) (target : BitVec 17) (s : State) (err : CoreErr := .clean) : Res :=
  s.issue c t err (.j target)

/-- JAL (R139). -/
def execJal (c : Fin 32) (t : Fin 128) (target : BitVec 17) (s : State) (err : CoreErr := .clean) : Res :=
  s.issue c t err (.jal target)

/-- JR (R139). -/
def execJr (c : Fin 32) (t : Fin 128) (ra : BitVec 5) (s : State) (err : CoreErr := .clean) : Res :=
  s.issue c t err (.jr ra)

end Sys2Proof.Machine
end

