-- ==== Sys2Proof/Machine/KMem.lean ====
section
/-! DEFINITION. Header, metadata and memory instructions as commands (R140, R141, R131). -/

namespace Sys2Proof.Machine

/-- HLD (R140, R126). -/
def execHld (c : Fin 32) (t : Fin 128) (rd ra : BitVec 5) (off : BitVec 9) (size : BitVec 2) (sx : Bool)
    (s : State) (err : CoreErr := .clean) : Res :=
  s.issue c t err (.hld rd ra off size sx)

/-- HST (R140, R126). -/
def execHst (c : Fin 32) (t : Fin 128) (rd ra : BitVec 5) (off : BitVec 9) (size : BitVec 2)
    (s : State) (err : CoreErr := .clean) : Res :=
  s.issue c t err (.hst rd ra off size)

/-- MOVMG (R140). -/
def execMovmg (c : Fin 32) (t : Fin 128) (rd : BitVec 5) (idx : BitVec 6)
    (s : State) (err : CoreErr := .clean) : Res :=
  s.issue c t err (.movmg rd idx)

/-- MOVGM (R140, R125). -/
def execMovgm (c : Fin 32) (t : Fin 128) (rd : BitVec 5) (idx : BitVec 6)
    (s : State) (err : CoreErr := .clean) : Res :=
  s.issue c t err (.movgm rd idx)

/-- LREAD (R140, R145). -/
def execLread (c : Fin 32) (t : Fin 128) (rd : BitVec 5) (hi : Bool) (l : BitVec 3)
    (s : State) (err : CoreErr := .clean) : Res :=
  s.issue c t err (.lread rd hi l)

/-- LD (R140, R131). -/
def execLd (c : Fin 32) (t : Fin 128) (rd ra : BitVec 5) (off : BitVec 12) (size : BitVec 2) (sx : Bool) (err : CoreErr)
    (s : State) : Res :=
  s.issue c t err (.ld rd ra off size sx)

/-- ST (R140, R131). -/
def execSt (c : Fin 32) (t : Fin 128) (rd ra : BitVec 5) (off : BitVec 12) (size : BitVec 2)
    (s : State) (err : CoreErr := .clean) : Res :=
  s.issue c t err (.st rd ra off size)

/-- AMO.ADD (R140, R69). -/
def execAmoAdd (c : Fin 32) (t : Fin 128) (rd ra rb : BitVec 5) (err : CoreErr) (s : State) : Res :=
  s.issue c t err (.amo .add rd ra rb)

/-- AMO.AND (R140, R69). -/
def execAmoAnd (c : Fin 32) (t : Fin 128) (rd ra rb : BitVec 5) (err : CoreErr) (s : State) : Res :=
  s.issue c t err (.amo .and rd ra rb)

/-- AMO.OR (R140, R69). -/
def execAmoOr (c : Fin 32) (t : Fin 128) (rd ra rb : BitVec 5) (err : CoreErr) (s : State) : Res :=
  s.issue c t err (.amo .or rd ra rb)

/-- AMO.XOR (R140, R69). -/
def execAmoXor (c : Fin 32) (t : Fin 128) (rd ra rb : BitVec 5) (err : CoreErr) (s : State) : Res :=
  s.issue c t err (.amo .xor rd ra rb)

/-- AMO.SWAP (R140, R69). -/
def execAmoSwap (c : Fin 32) (t : Fin 128) (rd ra rb : BitVec 5) (err : CoreErr) (s : State) : Res :=
  s.issue c t err (.amo .swap rd ra rb)

/-- AMO.MAXU (R140, R69). -/
def execAmoMaxu (c : Fin 32) (t : Fin 128) (rd ra rb : BitVec 5) (err : CoreErr) (s : State) : Res :=
  s.issue c t err (.amo .maxu rd ra rb)

/-- AMO.MINU (R140, R69). -/
def execAmoMinu (c : Fin 32) (t : Fin 128) (rd ra rb : BitVec 5) (err : CoreErr) (s : State) : Res :=
  s.issue c t err (.amo .minu rd ra rb)

/-- AMO.CAS (R140, R69). -/
def execAmoCas (c : Fin 32) (t : Fin 128) (rd ra rb : BitVec 5) (err : CoreErr) (s : State) : Res :=
  s.issue c t err (.amo .cas rd ra rb)

/-- FENCE (R131): every earlier store and atomic of the thread has completed when it issues, since each is one step. -/
def execFence (c : Fin 32) (t : Fin 128) (s : State) (err : CoreErr := .clean) : Res := s.issue c t err .fence

/-- CINV (R131). -/
def execCinv (c : Fin 32) (t : Fin 128) (ra : BitVec 5) (s : State) (err : CoreErr := .clean) : Res :=
  s.issue c t err (.cinv ra)

/-- DMA (R141). -/
def execDma (c : Fin 32) (t : Fin 128) (ra rb rc : BitVec 5) (s : State) (err : CoreErr := .clean) : Res :=
  s.issue c t err (.dma ra rb rc)

end Sys2Proof.Machine
end

