-- ==== Sys2Proof/Machine/KUnits.lean ====
section
/-! DEFINITION. Lookup, channel, event, deferred-update and disposition instructions as commands (R142 to R150), and words
that are no instruction (R137). -/

namespace Sys2Proof.Machine

/-- LKP (R144, R164). -/
def execLkp (c : Fin 32) (t : Fin 128) (l : BitVec 3) (table : BitVec 8) (ks : Bool) (koff : BitVec 7)
    (s : State) (err : CoreErr := .clean) : Res :=
  s.issue c t err (.lkp l table ks koff)

/-- LKW (R145). -/
def execLkw (c : Fin 32) (t : Fin 128) (l : BitVec 3) (s : State) (err : CoreErr := .clean) : Res :=
  s.issue c t err (.lkw l)

/-- PASS.RES (R91, R142). -/
def execPassRes (c : Fin 32) (t : Fin 128) (rd : BitVec 5) (ch : BitVec 6) (rmt : Bool) (cl : BitVec 5)
    (s : State) (err : CoreErr := .clean) : Res :=
  s.issue c t err (.passRes rd ch rmt cl)

/-- PASS.COMMIT (R92, R142). -/
def execPassCommit (c : Fin 32) (t : Fin 128) (rd : BitVec 5) (s : State) (err : CoreErr := .clean) : Res :=
  s.issue c t err (.passCommit rd)

/-- PASS.RECV (R93, R142). -/
def execPassRecv (c : Fin 32) (t : Fin 128) (ch : BitVec 6) (soff : BitVec 3) (rmt : Bool) (err : CoreErr)
    (s : State) : Res :=
  s.issue c t err (.passRecv ch soff rmt)

/-- SIGNAL (R95, R142). -/
def execSignal (c : Fin 32) (t : Fin 128) (flag : BitVec 6) (rmt : Bool) (cl : BitVec 5)
    (s : State) (err : CoreErr := .clean) : Res :=
  s.issue c t err (.signal flag rmt cl)

/-- WAIT (R95, R142). -/
def execWait (c : Fin 32) (t : Fin 128) (flag : BitVec 6) (rmt : Bool) (s : State) (err : CoreErr := .clean) : Res :=
  s.issue c t err (.wait flag rmt)

/-- NOP (R142). -/
def execNop (c : Fin 32) (t : Fin 128) (s : State) (err : CoreErr := .clean) : Res := s.issue c t err .nop

/-- YIELD (R86). -/
def execYield (c : Fin 32) (t : Fin 128) (s : State) (err : CoreErr := .clean) : Res := s.issue c t err .yield'

/-- HALT (R85, R146). -/
def execHalt (c : Fin 32) (t : Fin 128) (s : State) (err : CoreErr := .clean) : Res := s.issue c t err .halt

/-- RND (R127). -/
def execRnd (c : Fin 32) (t : Fin 128) (rd : BitVec 5) (s : State) (err : CoreErr := .clean) : Res :=
  s.issue c t err (.rnd rd)

/-- SCORE (R143, R573). -/
def execScore (c : Fin 32) (t : Fin 128) (rd ra : BitVec 5) (s : State) (err : CoreErr := .clean) : Res :=
  s.issue c t err (.score rd ra)

/-- CNT.ADD (R146). -/
def execCntAdd (c : Fin 32) (t : Fin 128) (ra rb : BitVec 5) (s : State) (err : CoreErr := .clean) : Res :=
  s.issue c t err (.cntAdd ra rb)

/-- CNT.ADDN (R146). -/
def execCntAddn (c : Fin 32) (t : Fin 128) (ra rb rc : BitVec 5) (s : State) (err : CoreErr := .clean) : Res :=
  s.issue c t err (.cntAddn ra rb rc)

/-- POL.CHG (R146). -/
def execPolChg (c : Fin 32) (t : Fin 128) (ra rb : BitVec 5) (s : State) (err : CoreErr := .clean) : Res :=
  s.issue c t err (.polChg ra rb)

/-- LRN (R146). DESIGN CHOICE, log entry 32. -/
def execLrn (c : Fin 32) (t : Fin 128) (ra : BitVec 5) (s : State) (err : CoreErr := .clean) : Res :=
  s.issue c t err (.lrn ra)

/-- DCMT (R146). -/
def execDcmt (c : Fin 32) (t : Fin 128) (s : State) (err : CoreErr := .clean) : Res := s.issue c t err .dcmt

/-- EMIT (R150, R151). -/
def execEmit (c : Fin 32) (t : Fin 128) (ra : BitVec 5) (s : State) (err : CoreErr := .clean) : Res :=
  s.issue c t err (.emit ra)

/-- DROP (R150). -/
def execDrop (c : Fin 32) (t : Fin 128) (imm8 : BitVec 8) (s : State) (err : CoreErr := .clean) : Res :=
  s.issue c t err (.drop imm8)

/-- PUNT (R150, R151). -/
def execPunt (c : Fin 32) (t : Fin 128) (ra : BitVec 5) (s : State) (err : CoreErr := .clean) : Res :=
  s.issue c t err (.punt ra)

/-- MIRROR (R150). -/
def execMirror (c : Fin 32) (t : Fin 128) (ra : BitVec 5) (s : State) (err : CoreErr := .clean) : Res :=
  s.issue c t err (.mirror ra)

/-- ILLEGAL (R137): a word that is no instruction reaches IS. A word that is one raises nothing here. -/
def execIllegal (c : Fin 32) (t : Fin 128) (w : BitVec 32) (s : State) : Res :=
  if (s.th c t).state = 2 ∧ (decodeKryx w).isNone then go (s.illegal c t .clean) else go s

end Sys2Proof.Machine
end

