-- ==== Sys2Proof/Machine/Lookups.lean ====
section
/-! DEFINITION. What comes back to a cluster from the memories outside it: lookup results and finished DMAs (R120, R141,
R162, R163, R170, R274). -/

namespace Sys2Proof.Machine

/-! ### Lookup results (R162, R163) -/

/-- The answer of a lookup (R166, R124): an uncorrectable error answers 0x03; the data of the statuses 0x02, 0x03
and 0x04 are free values. DESIGN CHOICE, log entry 22. -/
def State.lookupAnswer (s : State) (x : Lookup) (ue : Bool) : LkResult × State :=
  let (r, s) := if ue then (⟨3, 0, none⟩, s) else s.engineAnswer x.seq x.table x.key x.hash x.shift
  if 2 ≤ r.status then
    let (a, s) := s.free
    let (b, s) := s.free
    (⟨r.status, (a.toNat + b.toNat * 2 ^ 64) % 2 ^ 120, none⟩, s)
  else (r, s)

/-- Whether a lookup was resolved in HBM (R570): its entry lies there, both candidate buckets of a missing exact-match key
do, or the classifier read nodes from it. DESIGN CHOICE, log entry 69. -/
def State.lookupInHbm (s : State) (x : Lookup) (r : LkResult) (misses : Nat) : Bool :=
  match s.fld .rau_TBL_DIR [x.table] f_rau_TBL_DIR_kind, r.hit with
  | 4, _ => misses != 0
  | 2, none =>
    let (b0, b1) := s.exmBuckets (s.fld .rau_TBL_DIR [x.table] f_rau_TBL_DIR_inst) x.key
    decide (2 ^ 23 ≤ b0) && decide (2 ^ 23 ≤ b1)
  | _, some (k, _) => ((s.entryNow k).bind fun e => s.entryTable (k / 2 ^ 200) e.loc).isSome
  | _, none => false

/-- The engine of a lookup counts it: a search in every group that holds a block of a TCAM table, otherwise the lookup, where
it was resolved and the node cache's misses (R247, R570). DESIGN CHOICE, log entry 69. -/
def State.lookupCount (s : State) (x : Lookup) (r : LkResult) (misses : Nat) : State :=
  let resolved (g : Nat) : State :=
    let s := s.count1 g 4
    let s := s.when (decide (r.status < 2)) (·.count1 g (if s.lookupInHbm x r misses then 6 else 5))
    s.when (misses != 0) (·.countEvents g 7 misses)
  let inst := s.fld .rau_TBL_DIR [x.table] f_rau_TBL_DIR_inst
  match s.fld .rau_TBL_DIR [x.table] f_rau_TBL_DIR_kind with
  | 1 => resolved (lpmGroup x.id)
  | 2 => resolved 51
  | 3 => s.each (List.range 16) fun s g =>
      s.when ((numbersFrom (4 * g) 4).any fun b => s.tcamTableOf b == some inst) (·.count1 (79 + g) 4)
  | 4 => resolved 52
  | _ => s

/-- What a lookup met in its table's memories is counted and reported, whether or not the lookup was squashed (R22, R23,
R170, R274, R280). DESIGN CHOICE, log entry 22. -/
def State.lookupFound (s : State) (x : Lookup) (r : LkResult) (err : LookupError) (misses parity : Nat) : State :=
  let kind := s.fld .rau_TBL_DIR [x.table] f_rau_TBL_DIR_kind
  let s := s.lookupCount x r (if kind = 4 then misses else 0)
  let s := s.when (kind == 4) fun s =>
    let s := s.addSat .dtc_CACHE_STATUS [] f_dtc_CACHE_STATUS_misses misses
    let s := s.addSat .dtc_CACHE_STATUS [] f_dtc_CACHE_STATUS_parity parity
    s.addSat .dtc_CACHE_STATUS [] f_dtc_CACHE_STATUS_ue_count (if err = .clean then 0 else 1)
  match err with
  | .clean => s
  | .pipe k => s.reportUe (locTile 2 2 0 0x3F 3 k) 0
  | .tcam b => s.reportUe (locTile 2 2 0 0x3F 4 b) 0
  | .hbm k g y => s.hbmDataError (128 + k) g 2 y

/-- The entry that a lookup hit in HBM was read with a request of class SC2 (R412). -/
def State.lookupReads (s : State) (r : LkResult) : State :=
  match r.hit with
  | some (k, _) => match (s.entryNow k).bind fun e => s.entryTable (k / 2 ^ 200) e.loc with
    | some t => s.tableAccess 2 t false
    | none => s
  | none => s

/-- What the status of a result counts, and a drop of service that in-step operation does not survive (R464, R570). -/
def State.lookupStatus (s : State) (status : Nat) : State :=
  (s.when (status == 4) (·.count1 53 5)).when (status == 2 || status == 3) (·.stepEnd 8)

/-- A returned result is written to the l register it is bound to, and a thread that waits for it is woken.
DESIGN CHOICE, log entry 22. -/
def State.deliver (s : State) (x : Lookup) (r : LkResult) (c t l : Nat) : State :=
  let s := { s with fpc := { s.fpc with lookups := s.fpc.lookups.filter (·.id != x.id) } }
  let s := match x.buf with | some b => s.bufShow b | none => s
  let s := (s.modTh c t fun th => th.setL l { th.lreg l with result := some r, way := x.way }).stir c
  let th := s.th c t
  if th.eff = 3 ∧ th.waitKind = 1 ∧ th.waitObj = l then s.wake c t else s

/-- A result that no thread has taken yet is kept, in its cluster's buffer where it holds an entry (R163). -/
def State.park (s : State) (x : Lookup) (r : LkResult) : State :=
  let put (y : Lookup) : Lookup := if y.id = x.id then { y with result := some r, way := x.way } else y
  let s := { s with fpc := { s.fpc with lookups := s.fpc.lookups.map put } }
  match x.buf with
  | some c => s.stir c
  | none => s

/-- LOOKUP_RESULT (R162): lookup `id` returns; `err` says what its engine met, `misses` and `parity` what its classifier
lookup met in the node cache. A squashed lookup's result is discarded. DESIGN CHOICE, log entry 22. -/
def execLookupResult (id : Nat) (err : LookupError) (s : State) (misses parity : Nat := 0) : Res :=
  match s.fpc.lookups.find? fun x => x.id == id && x.result.isNone with
  | none => go s
  | some x =>
    let (r, s) := s.lookupAnswer x (err != .clean)
    let s := (s.lookupReads r).lookupFound x r err misses parity
    if x.squashed then go { s with fpc := { s.fpc with lookups := s.fpc.lookups.filter (·.id != id) } }
    else
      let s := s.lookupStatus r.status
      let x := { x with way := s.wayNext x.trace }
      let s := s.traceWay x.trace 0x04 (if x.rau then 2 else 0)
        [BitVec.ofNat 8 x.table, BitVec.ofNat 8 r.status, BitVec.ofNat 8 x.slot]
      match x.dest with
      | some (c, t, l) => go (s.deliver x r c t l)
      | none => go (s.park x r)

/-! ### Finished DMAs (R141) -/

/-- Whether a shared-memory source of a DMA holds a word with bad check bits (R120). -/
def State.dmaBad (s : State) (c a n : Nat) : Bool :=
  match place c a n with
  | .shared o => (List.range (n / 8)).any fun i => s.sharedBad c (o + 8 * i)
  | _ => false

/-- An uncorrectable error that a DMA of a cluster meets in shared memory or in HBM (R120, R121, R427). -/
def State.dmaFound (s : State) (c : Nat) (err : DmaError) : State :=
  let shared (s : State) : State :=
    let s := s.addSat .fpc_ERR_STATUS [c] f_fpc_ERR_STATUS_ue_count 1
    (s.setFld .fpc_ERR_STATUS [c] f_fpc_ERR_STATUS_last_ue_mem 2).reportUe (locTile 2 2 0 c 0 0x3FF) 0
  match err with
  | .clean => shared s
  | .shared w => shared (s.setSharedBad c (8 * w) true)
  | .hbm k g y => s.hbmDataError (128 + k) g 2 y
  | .sharedFixed => s

/-- DMA_COMPLETE (R141): the `i`-th DMA under way finishes its copy, or tries its record again; after an uncorrectable
error nothing is written, and a corrected one in shared memory is counted (R120). DESIGN CHOICE, log entry 27. -/
def execDmaComplete (i : Nat) (err : DmaError) (s : State) : Res :=
  match s.fpc.dmas[i]? with
  | none => go s
  | some d =>
    let before := s.fpc.dmas.take i
    let after := s.fpc.dmas.drop (i + 1)
    match d.finished with
    | some st => go (s.dmaReport before after d st)
    | none =>
      let n := 64 * d.blocks
      if !(s.dmaReach d.cluster d.src n && s.dmaReach d.cluster d.dst n) then go (s.dmaReport before after d 2)
      else if (err ≠ .clean ∧ err ≠ .sharedFixed) ∨ s.dmaBad d.cluster d.src n then go ((s.dmaFound d.cluster err).dmaReport before after d 1)
      else
        let s := s.when (err == .sharedFixed) (·.ceCount d.cluster true)
        go ((s.dmaWrite d.cluster d.dst (s.dmaRead d.cluster d.src n)).dmaReport before after d 0)

end Sys2Proof.Machine
end

