-- ==== Sys2Proof/Machine/Power.lean ====
section
/-! DEFINITION. Power domains and their functions (chapter 17, R610 to R614, R620 to R622). -/

namespace Sys2Proof.Machine

/-! ### The functions of a domain (R611) -/

/-- What the functions of domain `n` are. -/
inductive DomainFns
  | clusters (first : Nat)
  | ports (first : Nat)
  | queues
  | lanes (first : Nat)
  | channels (first count : Nat)
  | rings | twin | d2d | tasks | none
  deriving DecidableEq, Repr

def domainFns (n : Nat) : DomainFns :=
  if 2 ≤ n ∧ n ≤ 9 then .clusters (4 * (n - 2))
  else match n with
    | 12 => .ports 0
    | 13 => .ports 128
    | 14 => .queues
    | 16 => .lanes 0
    | 17 => .lanes 160
    | 18 => .channels 0 128
    | 19 => .channels 128 64
    | 20 => .rings
    | 21 => .twin
    | 22 => .d2d
    | 23 => .tasks
    | _ => .none

/-- A queue is requested ON or OFF by its domain or by a WRITE (R301). -/
def State.queueRequest (s : State) (q : Nat) (on : Bool) : State :=
  s.modQ q fun x => x.request on (s.pdOn 14) s.fpc.seqNext

/-- A cluster is requested ON or OFF with its enable unchanged (R622). -/
def State.clusterShift (s : State) (c : Nat) (on : Bool) : State :=
  if s.flag .fpc_CL_STATUS [c] f_fpc_CL_STATUS_retired then s
  else
    let (s, e) := s.lcRequest (clusterLc c) on (s.pdOn (clusterDomain c))
    s.clusterEdge c e

/-- A module begins training, where its tile is available (R17, R25, R611). DESIGN CHOICE, log entry 60; DEDUCED,
log entry 75. -/
def State.d2dStart (s : State) : State :=
  (s.each (List.range 40) fun s m =>
    s.when (s.d2dMod m == 0 && !s.tileOut 9 m) (·.setFld .d2d_MOD_STATUS [m] f_d2d_MOD_STATUS_state 1)).d2dRefresh
def State.d2dStop (s : State) : State :=
  (s.each (List.range 40) fun s m =>
    s.when (s.d2dMod m != 4) (·.setFld .d2d_MOD_STATUS [m] f_d2d_MOD_STATUS_state 0)).d2dRefresh

/-- The functions of a domain that is ON and whose enable is 1 start (R612, R622); an HBM channel has no
enable and starts with its PHY domain (R430). DESIGN CHOICE, log entry 60. -/
def State.startFns (s : State) (n : Nat) : State :=
  match domainFns n with
  | .clusters a => s.each (numbersFrom a 4) fun s c =>
    s.when (s.flag .fpc_CL_CTRL [c] f_fpc_CL_CTRL_enable) (·.clusterShift c true)
  | .ports a => s.each (numbersFrom a 128) fun s m =>
    s.when (s.flag .lmac_PORT_CTRL [m] f_lmac_PORT_CTRL_enable) (·.portRequest m true)
  | .queues => s.each ((s.tm.queues.filter fun e => bitOf e.2.cfg 0).map (·.1)) fun s q => s.queueRequest q true
  | .lanes a => s.each (numbersFrom a 160) fun s l =>
    s.when (bitOf (s.rd .fab_LANE_EN [l / 64]).toNat (l % 64)) (·.laneRequest l true)
  | .channels a k => s.each (numbersFrom a k) fun s k => s.hbmRequestLc k true
  | .rings => s.each (List.range 2112) fun s r =>
    s.when (s.flag .pci_RING_CFG [r] f_pci_RING_CFG_enable) (·.ringRequest r true)
  | .twin => s.rallyPower true
  | .d2d => s.d2dStart
  | .tasks => s.each (List.range 9) fun s t =>
    s.when (t == 3 || s.flag .gkp_TASK_CFG [t] f_gkp_TASK_CFG_enable) (·.taskRequest t true)
  | .none => s

/-- OFF of every function of a domain, through its own lifecycle (R612). DESIGN CHOICE, log entry 60. -/
def State.stopFns (s : State) (n : Nat) : State :=
  match domainFns n with
  | .clusters a => s.each (numbersFrom a 4) fun s c => s.clusterShift c false
  | .ports a => s.each (numbersFrom a 128) fun s m => s.portRequest m false
  | .queues => s.each (s.tm.queues.map (·.1)) fun s q => s.queueRequest q false
  | .lanes a => s.each (numbersFrom a 160) fun s l => s.laneRequest l false
  | .channels a k => s.each (numbersFrom a k) fun s k => s.hbmRequestLc k false
  | .rings => s.each (List.range 2112) fun s r => s.ringRequest r false
  | .twin => s.rallyPower false
  | .d2d => s.d2dStop
  | .tasks => s.each (List.range 9) fun s t => s.taskRequest t false
  | .none => s

/-- Every function of a domain is OFF. -/
def State.fnsOff (s : State) (n : Nat) : Bool :=
  match domainFns n with
  | .clusters a => (numbersFrom a 4).all fun c => s.lc (clusterLc c) == 0
  | .ports a => (numbersFrom a 128).all fun m => s.portState m == 0
  | .queues => s.tm.queues.all fun e => e.2.state == 0
  | .lanes a => (numbersFrom a 160).all fun l => s.laneState l == 0
  | .channels a k => (numbersFrom a k).all fun k => s.hState k == 0
  | .rings => (List.range 2112).all fun r => s.ringState r == 0
  | .twin => s.twinState == 0
  | .d2d => true
  | .tasks => (List.range 9).all fun t => s.lc (taskLc t) == 0
  | .none => true

/-! ### The domain's own lifecycle (R612 to R614) -/

/-- A domain begins STOPPING: OFF is requested of its functions, all in parallel. -/
def State.pdStop (s : State) (n : Nat) : State := (s.pdEvent n).stopFns n

/-- A request for OFF of a domain. -/
def State.pdRequestOff (s : State) (n : Nat) : State :=
  match s.lcRequest (pdLc n) false true with
  | (s, .beginStop) => s.pdStop n
  | (s, _) => s

/-- The cycle of rest of a domain ends (R612, R620). -/
def State.pdRest (s : State) (n : Nat) : State :=
  match s.lcRest (pdLc n) true with
  | (s, .beginStart) => s.pdBegin n
  | (s, .beginStop) => s.pdStop n
  | (s, .stay) => s

/-- Domains that software may switch after sealing (R610). DESIGN CHOICE, log entry 60. -/
def softDomain (n : Nat) : Bool :=
  (decide (2 ≤ n) && decide (n ≤ 9)) || n == 12 || n == 13 || n == 16 || n == 17 || n == 21

/-- A write of PD_CTRL (R610, R613): ignored for PD00, and refused after sealing for a domain that is not
software's. -/
def State.pdCtrlWrite (s : State) (a : Access) (n : Nat) (on : Bool) : State :=
  if n = 0 then s
  else if s.boot.sealed && !softDomain n then s.accessError 4 a
  else if on then s.pdRequestOn n
  else (s.setFlag .cpr_PD_CTRL [n] f_cpr_PD_CTRL_enable false).pdRequestOff n

/-- PD_ENABLE (R613). -/
def execPdEnable (n : Fin 24) (on : Bool) (s : State) : Res :=
  go (s.pdCtrlWrite (regAccess .cpr_PD_CTRL [n.val]) n on)

/-- PD_RAMP_SLOT_TAKE (R612): with the slot free, the domain whose request is oldest takes it and closes its switches;
`lowRail` names a sensor that finds a rail below 95% of its target, with its value, and the start fails.
DESIGN CHOICE, log entry 15. -/
def execPdRampSlotTake (lowRail : Option (Fin 158 × BitVec 16)) (s : State) : Res :=
  match s.pwr.pdSlot, s.pwr.pdWait with
  | none, n :: rest =>
    let s := { s with pwr := { s.pwr with pdWait := rest } }
    let s := s.setFlag .cpr_PD_STATUS [n] f_cpr_PD_STATUS_waiting false
    match lowRail with
    | none => go { s with pwr := { s.pwr with pdSlot := some n } }
    | some (i, mv) =>
      let s := (s.lcStartFail (pdLc n)).setFlag .cpr_PD_STATUS [n] f_cpr_PD_STATUS_fail true
      go ((s.pdEvent n).postEvent 0x1C1 (natLE 1 n ++ natLE 1 i ++ natLE 2 mv.toNat))
  | _, _ => go s

/-- The counter groups of a domain restart from zero (R570, R612). DESIGN CHOICE, log entry 60. -/
def State.zeroDomain (s : State) (n : Nat) : State :=
  s.each ((List.range 321).filter fun g => groupDomain g == n) State.zeroGroup

/-- The domain whose logic holds the status of a register (R611); none where its status is kept elsewhere or outlives the
domain: PD00 and PD01, the management firmware's own registers, twn.STATUS and twn.EPOCH with the cause by which a device
left step (R472), and the position of the trace ring that the host follows. DEDUCED, log entry 74. -/
def statusDomain (off : Nat) : Option Nat :=
  let b := off / 0x10000
  if 0x30 ≤ b ∧ b < 0x32 then some 20
  else if 0x100 ≤ b ∧ b < 0x110 then (match findReg off with
    | some (_, m :: _) => some (12 + m / 128)
    | _ => some 12)
  else if 0x110 ≤ b ∧ b < 0x140 ∨ 0x19C ≤ b ∧ b < 0x1A0 then some 11
  else if 0x140 ≤ b ∧ b < 0x160 then some (2 + (b - 0x140) / 4)
  else if 0x160 ≤ b ∧ b < 0x19C then some 10
  else if 0x1A0 ≤ b ∧ b < 0x1B0 then some 19
  else if 0x200 ≤ b ∧ b < 0x210 ∨ 0x220 ≤ b ∧ b < 0x250 then some 14
  else if b = 0x210 then some 15
  else if 0x250 ≤ b ∧ b < 0x260 then (match findReg off with
    | some (.fab_LANE_STATUS, l :: _) | some (.fab_LANE_ERR, l :: _) => some (16 + l / 160)
    | _ => some 14)
  else if 0x260 ≤ b ∧ b < 0x270 then some 18
  else if 0x270 ≤ b ∧ b < 0x280 then some 22
  else match findReg off with
    | some (.twn_CNT, _) | some (.twn_RALLY_LANE, _) | some (.twn_PARTNER, _) => some 21
    | some (.mgs_SENSOR, _) | some (.mgs_THERM, _) | some (.gkp_TASK_STATUS, _) | some (.gkp_AUDIT_STATUS, _)
    | some (.gkp_AUDIT_LAST, _) | some (.skp_STATUS, _) | some (.skp_WHISTLE_CTRL, _)
    | some (.skp_TRACE_STATUS, _) => some 23
    | _ => none

/-- Bits of a register that hardware writes and that a domain's reset puts back (R9, R11): the retirement of a cluster and
of a module of the link lasts until the next device start (R17, R26), and the trace ring's position stays beside the
index that the host holds of it. DEDUCED, log entry 74. -/
def Reg.statusBits (r : Reg) : Word :=
  let m := r.row.fields.foldl (fun m f => match f.2 with | .ro | .rc | .w1c => m ||| f.1.mask | _ => m) 0
  match r with
  | .fpc_CL_STATUS => m &&& ~~~ f_fpc_CL_STATUS_retired.mask
  | .d2d_MOD_STATUS => m &&& ~~~ f_d2d_MOD_STATUS_state.mask
  | .d2d_STATUS => m &&& ~~~ f_d2d_STATUS_modules_retired.mask
  | .skp_TRACE_STATUS => m &&& ~~~ f_skp_TRACE_STATUS_pidx.mask
  | _ => m

/-- A domain's start resets the status that its logic holds; what software or the playbook loaded is kept (R11, R615,
R622). DEDUCED, log entry 74. -/
def State.statusReset (s : State) (n : Nat) : State :=
  s.each ((s.regs.map (·.1)).filter fun a => statusDomain a == some n) fun s a => match findReg a with
    | some (r, ix) => s.wr r ix ((s.rd r ix &&& ~~~ r.statusBits) ||| (r.resetValue ix &&& r.statusBits))
    | none => s

/-- The domain of the tile that a location word names (R23, R611). -/
def tileDomain (loc : Word) : Nat :=
  let i := locIndex loc
  match locClass loc with
  | 1 => 2 + bitsOf loc.toNat 50 6 / 4
  | 2 | 13 => 11
  | 3 | 4 => 10
  | 5 => if i < 128 then 18 else 19
  | 6 => if i < 32 then 12 else 13
  | 7 => if i < 40 then 16 else 17
  | 8 => 21
  | 9 => 22
  | 10 => 15
  | 11 => 20
  | _ => 0

/-- As a domain starts, the repairs of the lifetime record are applied (R612): a macro whose spares are exhausted is
reported at level 3 and leaves service with its tile, a core for the cluster's spare (R25, R26). The free cells are those
of the buffer banks that are left. DEDUCED, log entry 75. -/
def State.applyRepairs (s : State) (n : Nat) : State :=
  let spent := s.spentMacros.filter fun x => tileDomain x == n
  let left := s.mgmt.tilesOut.filter fun e => !(spent.any fun x => e == (locClass x, locIndex x))
  let s := { s with mgmt := { s.mgmt with tilesOut := left } }
  let s := s.each spent fun s x =>
    if locClass x = 1 then
      let c := bitsOf x.toNat 50 6
      let p := locIndex x
      if (s.badCores c).contains p then s else (s.coreRecord c p 0).coreEvent c p (if p < 16 then p else 255) 3
    else
      let at' := bitsOf x.toNat 0 58
      let s := s.reportUe (BitVec.ofNat 64 (3 * 2 ^ 61 + 4 * 2 ^ 58 + at')) 0
      { s with mgmt := { s.mgmt with tilesOut := s.mgmt.tilesOut ++ [(locClass x, locIndex x)] } }
  s.when (n == 15) fun s =>
    let out := ((List.range 256).filter fun b => s.tileOut 10 b).length
    s.setFld .qmg_STATUS [] f_qmg_STATUS_free_cells (3072 * (256 - out))

/-- PD_START_DONE (R612): the domain that holds the slot is ON, and its functions start, but not where a stop is
pending. DESIGN CHOICE, log entry 60. -/
def execPdStartDone (n : Fin 24) (s : State) : Res :=
  if s.pwr.pdSlot = some n.val ∧ s.lc (pdLc n) = 1 then
    let s := { s with pwr := { s.pwr with pdSlot := none } }
    let us := (s.cycle - SMap.get 0 s.pwr.pdSince n.val) / cyclesPerUs
    let s := s.addSat .cpr_PD_STATUS [n.val] f_cpr_PD_STATUS_starts 1
    let s := s.setFld .cpr_PD_STATUS [n.val] f_cpr_PD_STATUS_last_start (min 0xFFFF us)
    let s := ((s.zeroDomain n).statusReset n).applyRepairs n
    let s := (s.lcStartDone (pdLc n)).pdEvent n
    go (s.when (s.lcWorks (pdLc n)) (·.startFns n))
  else go s

/-- PD_STOP_DONE (R612): every function of the domain is OFF, and the domain is. -/
def execPdStopDone (n : Fin 24) (s : State) : Res :=
  if s.lc (pdLc n) = 3 ∧ s.fnsOff n then
    go (((s.lcStopDone (pdLc n)).when (domainFns n == .twin) State.rallyOff).pdEvent n)
  else go s

end Sys2Proof.Machine
end

