-- ==== Sys2Proof/Machine/QueueRead.lean ====
section
/-! DEFINITION. The completions of a queue's reads from HBM (chapter 8, R293 to R295). -/

namespace Sys2Proof.Machine

/-- A block transfer meets an uncorrectable error on a channel of stacks 0-3 that is not frozen (R427): the error is
counted, and the controller freezes. -/
def State.blockError (s : State) (k gran : Nat) : State :=
  if s.hFrozen k then s
  else
    let (y, s) := s.free
    (s.hbmUeCount k 1).hbmFreeze k 1 2 (hbmAddr k gran) 0 (BitVec.ofNat 32 y.toNat)

/-- REFILL_READ_DONE (R293, R295): the `i`-th pending read returns the block and its record, or is unreadable, and its
mirror record is read; an error of a channel that was not frozen freezes it (R427). `found` is what the cells sent from the
head meet (R284). DESIGN CHOICE, log entry 2. -/
def execRefillReadDone (q : Fin 589824) (i : Nat) (ok : Bool) (s : State) (found : List CellFind := []) : Res :=
  match ((s.q q).blocks.filter (·.stage == 2))[i]? with
  | some b =>
    if s.blockWaits q b false then go s
    else if ok then
      let s := s.blockFinish q b false 0
      go ((s.modQ q fun x => { x with
        blocks := modNth (·.stage == 2) (fun b => { b with stage := 3 }) x.blocks i }.learn b).drainBlocks q found)
    else
      let s := s.blockFinish q b false 3
      let s := s.modQ q fun x => { x with
        blocks := modNth (·.stage == 2) (fun b => { b with stage := 4, bad := true }) x.blocks i }
      let s := (s.cellsFree (b.cells.map (·.cell))).blockHold b.toBlockAt
      go ((s.qLevels q).blockError b.chan (64 * b.num))
  | none => go s

/-- MIRROR_RECORD_READ_DONE (R295): the record of the first block that awaits its mirror record shows void,
normal or unreadable; an error of a channel that was not frozen freezes it (R427). DESIGN CHOICE, log entry 50. -/
def execMirrorRecordReadDone (q : Fin 589824) (ue : Bool) (s : State) (found : List CellFind := []) : Res :=
  match (s.q q).blocks.find? (·.stage == 4) with
  | some b =>
    let live := !b.mirrorBad && !s.excluded b.mirror
    let gran := s.recordGran b.toBlockAt + 1
    let s := s.when live (·.hbmUnit b.mirror 0 gran false)
    let s := if ue || !live then s.blockUnreadable q b
      else (if b.void then s else s.blockLost q b).modQ q (·.learn b)
    let s := s.modQ q fun x => { x with
      blocks := modBlock (·.stage == 4) (fun b => { b with stage := 3, cells := [] }) x.blocks }
    go ((s.drainBlocks q found).when (ue && live) (·.blockError b.mirror gran))
  | none => go s

end Sys2Proof.Machine
end

