-- ==== Sys2Proof/Machine/TxnOps.lean ====
section
/-! DEFINITION. The transaction engine: operation records, the batch in hand, staging and undoing (chapter 6, R217 to
R231). -/

namespace Sys2Proof.Machine

/-! ### Operation records (R219 to R221) -/

def opUnit (r : List Byte) : Nat := leAt r 0 2
def opInst (r : List Byte) : Nat := leAt r 0 1
def opKind (r : List Byte) : Nat := leAt r 1 1
def opCode (r : List Byte) : Nat := leAt r 2 1
def opFlags (r : List Byte) : Nat := leAt r 3 1
def opTag (r : List Byte) : Nat := leAt r 4 4
def opIndex (r : List Byte) : Nat := leAt r 8 8
def opData (r : List Byte) : Nat := leAt r 32 16

/-- The index that names a table's default data (R188). -/
def defaultIndex : Nat := 2 ^ 64 - 1

/-- Bytes 8-63 outside the given ranges (first byte, count) are zero (R220). DESIGN CHOICE, log entry 35. -/
def restZero (r : List Byte) (used : List (Nat × Nat)) : Bool :=
  (List.range 64).all fun i =>
    decide (i < 8) || used.any (fun u => decide (u.1 ≤ i) && decide (i < u.1 + u.2)) || r.getD i 0 == 0

/-- The rows of the command table that stage an operation. -/
inductive TxRow
  | lpmInsert | lpmDelete | lpmModify | exmInsert | exmDelete | exmModify | fbkInsert | fbkDelete | fbkModify
  | fbkTmpl | parse | nhop | groupDesc | poolSlot | groupFill | default | tcamWrite | tcamDelete | tcamInsert
  | dtcInsert | dtcDelete | dtcNode | dtcRule | dtcRoot | queue | sched | shaper | policer | excPolicer
  | gateEntry | gateControl | counterClear | regWrite | ageTick | read
  deriving DecidableEq, Repr

/-- Whether a unit identifier names a unit (R219). -/
def unitExists (r : List Byte) : Bool :=
  let k := opKind r
  if 2 ≤ k ∧ k ≤ 5 then decide (opInst r < 64)
  else ((1 ≤ k ∧ k ≤ 12) ∨ (0x10 ≤ k ∧ k ≤ 0x15)) && opInst r == 0

/-- The row of a WRITE to a unit that permits it (R221). -/
def writeRow (kind index : Nat) : Option TxRow :=
  if index = defaultIndex ∧ 2 ≤ kind ∧ kind ≤ 8 then some .default
  else match kind with
    | 1 => some .parse
    | 4 => some .tcamWrite
    | 5 => match index / 2 ^ 60 with | 1 => some .dtcRule | 2 => some .dtcRoot | _ => some .dtcNode
    | 6 => some .nhop
    | 7 | 8 => if index < 2 ^ 63 then some .groupDesc else some .poolSlot
    | 0x0A => some .fbkTmpl
    | 0x10 => some .queue
    | 0x11 => some .sched
    | 0x12 => some .shaper
    | 0x13 => if index < 2 ^ 63 then some .policer else some .excPolicer
    | 0x14 => if index < 2 ^ 63 then some .gateEntry else some .gateControl
    | _ => none

/-- The row that stages a record whose unit exists; none where the unit does not permit the opcode (R221). -/
def rowOf (r : List Byte) : Option TxRow :=
  let k := opKind r
  match opCode r with
  | 1 => match k with
    | 2 => some .lpmInsert | 3 => some .exmInsert | 9 => some .fbkInsert | 4 => some .tcamInsert
    | 5 => some .dtcInsert | _ => none
  | 2 => match k with
    | 2 => some .lpmDelete | 3 => some .exmDelete | 9 => some .fbkDelete | 4 => some .tcamDelete
    | 5 => some .dtcDelete | _ => none
  | 3 => match k with | 2 => some .lpmModify | 3 => some .exmModify | 9 => some .fbkModify | _ => none
  | 4 => writeRow k (opIndex r)
  | 5 => some .read
  | 6 => if k = 7 ∨ k = 8 then some .groupFill else none
  | 7 => if k = 11 then some .counterClear else none
  | 8 => if k = 12 ∨ k = 0x15 then some .regWrite else none
  | 9 => if k = 12 then some .ageTick else none
  | _ => none

/-! ### What packets may still reach (R226) -/

def minSeq (d : Nat) (l : List Nat) : Nat := l.foldl min d

/-- The lowest number of a packet that can still reach a Pyrlys unit: it waits in the parser, holds a position, or its
commit is under way after its position was vacated (R223); the next packet's number where there is none. -/
def State.feFloor (s : State) : Nat :=
  let waits := s.fpc.waits.filterMap fun e => e.2.map fun w => w.1.seq
  let stage := s.fpc.stage.flatMap fun e => e.2.map fun p => p.seq
  minSeq s.fpc.seqNext (waits ++ stage ++ s.fpc.commits.filterMap (·.seq) ++ s.fpc.order.map fun e => e.seq)

/-- The lowest number of a packet that can still reach a Shoilany unit. -/
def State.tmFloor (s : State) : Nat := minSeq s.feFloor (s.adm.map fun a => a.seq)

/-! ### The batch in hand -/

/-- The staged value of a place, if the batch staged one. -/
def Batch.view (b : Batch) (key : Nat) : Option (Option TEntry) :=
  b.staged.foldl (fun acc x => match x.2 with
    | .cell k v => if k = key then some v else acc
    | _ => acc) none

/-- The staged changes of the batch in hand, in order. -/
def State.stagedNow (s : State) : List Staged :=
  match s.tab.batch with | some b => b.staged.map (·.2) | none => []

/-- An entry as an operation finds it: the committed state with the batch's earlier operations (R222). -/
def State.view (s : State) (key : Nat) : Option TEntry :=
  match s.tab.batch with
  | some b => match b.view key with | some v => v | none => s.entryNow key
  | none => s.entryNow key

/-- A register word of a transaction unit as an operation finds it (R222). -/
def State.viewWord (s : State) (r : Reg) (ix : List Nat) : Word :=
  s.stagedNow.foldl (fun acc x => match x with
    | .parse a v | .word a v | .reg a v => if a = r.addr ix then v else acc
    | _ => acc) (s.rd r ix)

/-- Bits of a register that are writable fields (R10). -/
def Reg.writable (r : Reg) : Word :=
  r.row.fields.foldl (fun m f => match f.2 with
    | .rw | .wo => m ||| f.1.mask
    | _ => m) 0

/-- Bits of a template word that are stored (R185, R10). -/
def templateBits (w : Nat) : Word :=
  if w = 0 then Reg.writable .fbk_TMPL else if w ≤ 5 then BitVec.allOnes 64 else 0

/-- The writable bits of one element of a register: the words of a template differ (R185). -/
def Reg.writableAt (r : Reg) (ix : List Nat) : Word :=
  match r with
  | .fbk_TMPL => templateBits (ix.getD 1 0)
  | _ => r.writable

/-! ### Exact-match ways (R195) -/

/-- The unit kind and the instance of a place, and whether it lies in buckets. -/
def placeKind (k : Nat) : Nat := k / 2 ^ 200
def placeInst (k : Nat) : Nat := k / 2 ^ 192 % 256
def inBuckets (k : Nat) : Bool := placeKind k == 3 || placeKind k == 9

def State.way (s : State) (loc : Nat) : Nat := SMap.get 0 s.tab.ways loc
def State.setWay (s : State) (loc v : Nat) : State :=
  { s with tab := { s.tab with ways := SMap.put 0 s.tab.ways loc v } }

/-- The places of buckets that a list of staged changes names. -/
def stagedPlaces (l : List Staged) : List Nat :=
  l.filterMap fun x => match x with | .cell k _ => if inBuckets k then some k else none | _ => none

/-- The ways of staged entries are given back, and entries that were to leave keep theirs (R195, R224). -/
def State.undoWays (s : State) (b : Batch) : State :=
  let keys := stagedPlaces (b.staged.map (·.2))
  let s := s.each keys fun s k =>
    match b.view k with
    | some (some e) => s.when (s.way e.loc == k + 1) (·.setWay e.loc 0)
    | _ => s
  s.each keys fun s k => match s.entryNow k with
    | some e => s.setWay e.loc (k + 1)
    | none => s

/-! ### TCAM chains and classifier lists (R253, R271) -/

/-- Blocks of the chain whose first block is `first`. DEDUCED, log entry 36. -/
def State.chainBlocks (s : State) (first : Nat) : Nat :=
  match s.tcamTableOf first with | some t => chainLen (s.tcamWidth t) | none => 1

/-- An entry of a chain becomes FREE: no segment of it is set (R256). The release of a DELETE also ends a kill of its
rows, and nothing else that frees it does (R260). -/
def State.tcamFree (s : State) (first pos : Nat) (released : Bool) : State :=
  s.each (List.range (s.chainBlocks first)) fun s k =>
    s.tcamPut (first + k) pos { killed := !released && (s.tcamEnt (first + k) pos).killed }

/-- The counts that BLK_STATUS shows (R262). DEDUCED, log entry 36. -/
def State.tcamShow (s : State) (first : Nat) : State :=
  let l := s.tcamList first
  let s := s.setFld .tcm_BLK_STATUS [first] f_tcm_BLK_STATUS_used (l.filter fun e => e.2.state != 0).length
  s.setFlag .tcm_BLK_STATUS [first] f_tcm_BLK_STATUS_pending (l.any fun e => decide (4 ≤ e.2.state))

/-- Entries of a chain change state: `f` answers the new state of an old one. -/
def State.tcamStates (s : State) (first : Nat) (f : Nat → Nat) : State :=
  (s.each (s.tcamList first) fun s e =>
    if e.2.state = 0 then s
    else if f e.2.state = 0 then s.tcamFree first e.1 (e.2.state == 5)
    else s.tcamPut first e.1 { e.2 with state := f e.2.state }).tcamShow first

/-- A word of a node line written; `line` is relative to the table (R267). -/
def State.putNode (s : State) (i line w : Nat) (v : Word) : State :=
  let base := s.fld .dtc_TBL_NODES [i] f_dtc_TBL_NODES_node_base
  { s with cls := { s.cls with nodes := SMap.put 0 s.cls.nodes ((base + line) * 8 + w) v } }

/-- A leaf slot's state and rule (R267). -/
def slotWord (state rule : Nat) : Word := BitVec.ofNat 64 (state * 2 ^ 62 + rule % 2 ^ 20)

/-- The pending list replaced, and shown in STATUS (R278). -/
def State.setPend (s : State) (i : Nat) (l : List PendItem) : State :=
  let s := { s with cls := { s.cls with pend := SMap.put [] s.cls.pend i l } }
  let done := l.any fun p => match p with | .slot _ _ _ c | .root _ _ _ c => c
  (s.setFld .dtc_STATUS [i] f_dtc_STATUS_list_used l.length).setFlag .dtc_STATUS [i] f_dtc_STATUS_pending done

def PendItem.done : PendItem → Bool
  | .slot _ _ _ c | .root _ _ _ c => c

/-- A staged leaf slot goes back: ADD_PEND to FREE, DEL_PEND to LIVE (R271). -/
def State.slotBack (s : State) (i : Nat) (p : PendItem) : State :=
  match p with
  | .slot line k add _ =>
    s.putNode i line k (if add then 0 else slotWord 1 (bitsOf (s.nodeWord i line k) 0 20))
  | .root .. => s

/-- The changes staged in a classifier table are discarded (R271). -/
def State.dtcAbort (s : State) (i : Nat) : State :=
  let l := s.dtcPend i
  (s.each (l.filter fun p => !p.done) fun s p => s.slotBack i p).setPend i (l.filter PendItem.done)

/-! ### Undoing (R224) -/

/-- What the batch staged is freed; moves of kicks and of TCAM insertion stand, as do staged node lines and rule
bodies (R197, R258, R272). -/
def State.txnUndo (s : State) (b : Batch) : State :=
  (s.undoWays b).each (b.staged.map (·.2)) fun s x => match x with
    | .tcam first => s.tcamStates first fun st => match st with | 1 => 0 | 3 => 2 | n => n
    | .dtc i => s.dtcAbort i
    | _ => s

/-! ### Staging one operation (R222, R224, R225) -/

/-- What staging an operation answers: its cause (0 where it staged), its changes and its result fields. -/
structure StageOut where
  s : State
  cause : Nat := 0
  items : List Staged := []
  loc : Nat := 0
  flags : Nat := 0
  moves : Nat := 0
  read : List Byte := []

/-- The location field of a result that does not say where an entry lies: the index of an indexed unit (R228). -/
def resultLoc (r : List Byte) : Nat :=
  if opKind r = 2 ∨ opKind r = 3 ∨ opKind r = 9 ∨ !unitExists r then 0 else opIndex r

def StageOut.fail (s : State) (cause : Nat) : StageOut := { s, cause }

/-- The causes of R230. -/
def badUnit : Nat := 1
def badOpcode : Nat := 2
def badField : Nat := 3
def indexRange : Nat := 4
def keyExists : Nat := 5
def keyAbsent : Nat := 6
def tableFull : Nat := 7
def unavailableC : Nat := 8
def memErrorC : Nat := 9
def sealedC : Nat := 10
def validation : Nat := 11
def learnLimit : Nat := 12
def batchAborted : Nat := 13
def stoppedC : Nat := 14
def timeoutC : Nat := 15
def rejectedC : Nat := 16

/-- The batch in hand replaced. -/
def State.setBatch (s : State) (b : Batch) : State := { s with tab := { s.tab with batch := some b } }

/-- The operation the engine stages next, with its number (R217, R222). -/
def State.nextOp (s : State) : Option (Batch × Nat × List Byte) :=
  match s.tab.batch with
  | some b =>
    let n := b.results.length
    if b.failed || b.ready || b.waitSince.isSome then none
    else (b.ops[n]?).map fun r => (b, n, r)
  | none => none

/-- A follower reports an operation of the source's batch (R461). -/
def State.reportStaged (s : State) (b : Batch) (n cause : Nat) : State :=
  if b.ring.isNone && s.isFollower then s.rallyPut 4 (if cause = 0 then 0 else 1) (w64 b.number ++ [n, cause]) else s

/-- A source forwards the abort of `count` operations from `first` on of a batch that it forwarded (R461). -/
def State.abortSend (s : State) (b : Batch) (first count : Nat) : State :=
  if b.ring.isSome && b.number != 0 && s.forwards then s.rallyPut 3 1 (w64 b.number ++ [first, count] ++ w64 0) else s

/-- The results of operations after a stop (R225). -/
def stoppedResults (unit : Nat) (ops : List (List Byte)) : List OpResult :=
  ops.map fun r => { tag := opTag r, status := 1, cause := stoppedC, unit, loc := resultLoc r }

/-- A forwarded batch on a device that is resynchronised (R467): an operation whose entry the copy has not brought yet
fails without effect, and the copy brings the entry. DESIGN CHOICE, log entry 54. -/
def State.resyncBatch (s : State) (b : Batch) : Bool := b.ring.isNone && !b.boot && s.twinState == 1

/-- An operation has staged or failed (R224, R225); the batch is the one in hand, in which kicks have moved staged
entries (R195). -/
def State.stageDone (s : State) (b : Batch) (n : Nat) (r : List Byte) (o : StageOut) : State :=
  let b := s.tab.batch.getD b
  let res : OpResult :=
    { tag := opTag r, status := if o.cause = 0 then 0 else 2, cause := o.cause, unit := opUnit r,
      loc := if o.cause = 0 then o.loc else resultLoc r,
      flags := o.flags, moves := o.moves, read := o.read }
  let b := { b with results := b.results ++ [res], stageSince := s.cycle }
  if o.cause = 0 then
    (s.setBatch { b with
      staged := b.staged ++ o.items.map fun x => (n, x)
      ready := !b.atomic }).reportStaged b n 0
  else if b.atomic && s.resyncBatch b then s.setBatch b
  else if b.atomic then
    ((s.txnUndo b).setBatch { b with staged := [], failed := true }).reportStaged b n o.cause
  else
    let rest := if b.stopOnFail && !s.resyncBatch b then stoppedResults (opUnit r) (b.ops.drop (n + 1)) else []
    ((s.setBatch { b with results := b.results ++ rest }).reportStaged b n o.cause).abortSend b n 1

/-- Whether an operation's flags are permitted (R220). DESIGN CHOICE, log entry 35. -/
def flagsOk (r : List Byte) : Bool :=
  opFlags r == 0 || (opFlags r == 1 && opKind r == 3 && opCode r == 1)

/-- Whether an operation's entry lies on an unavailable tile: a TCAM block of its chain (R25, R230). -/
def State.tileGone (s : State) (r : List Byte) : Bool :=
  let b := opInst r
  opKind r == 4 && (match s.tcamTableOf b with
    | some t => (List.range (s.chainBlocks (s.tcamChain t b))).any fun j => s.tileOut 4 (s.tcamChain t b + j)
    | none => s.tileOut 4 b)

/-- The tile that a location word names for a unit (R23): a TCAM block by its number, registers by their block of BAR0,
and no tile for a table that the spec gives none. DEDUCED, log entry 41. -/
def unitTile (kind inst index : Nat) : Nat × Nat :=
  if kind = 4 then (4, inst)
  else if kind = 1 ∨ kind = 10 ∨ kind = 12 ∨ kind = 21 then
    (12, (if kind = 10 then Reg.addr .fbk_TMPL [0, 0] else index) / 0x10000 % 0x400)
  else (0, 0x3FF)

/-- The location word of a unit's entry (R22): the macro and row of an on-die table are the implementation's, free
values. DEDUCED, log entry 41. -/
def State.unitLoc (s : State) (r : List Byte) : Word × State :=
  let (f, s) := s.free
  let (c, i) := unitTile (opKind r) (opInst r) (opIndex r)
  (locWord 2 2 (if opKind r < 16 then 0 else 1) 0x3F c i (bitsOf f.toNat 23 12) (bitsOf f.toNat 8 15) 0xFF, s)

end Sys2Proof.Machine
end

