-- ==== Sys2Proof/Machine/TxnTables.lean ====
section
/-! DEFINITION. Staging of operations on the forwarding tables: LPM, exact match, the fast-break table and its
templates, the parse graph, next hops, groups, default data and counters (chapter 6, R188 to R212). -/

namespace Sys2Proof.Machine

/-! ### LPM (R189 to R191) -/

/-- Route units of an address family. -/
def routeUnits (family : Nat) : Nat := if family = 0 then 1 else 2

/-- Whether a place is a route of a slice, and its family. -/
def isRouteOf (slice k : Nat) : Bool := placeKind k == 2 && placeInst k == slice
def routeFamily (k : Nat) : Nat := k % 2 ^ 192 / 2 ^ 144 / 256

/-- Units of a route on die or in HBM. -/
def unitsIn (hbm : Bool) (k : Nat) (v : Option TEntry) : Nat :=
  match v with
  | some e => if decide (0 < e.loc) == hbm then routeUnits (routeFamily k) else 0
  | none => 0

/-- Units of a slice in use in a region, with what the batch has staged (R222). -/
def State.unitsUsed (s : State) (slice : Nat) (hbm : Bool) : Int :=
  let base := s.fld .lpm_SLICE_STATUS [slice]
    (if hbm then f_lpm_SLICE_STATUS_hbm_used else f_lpm_SLICE_STATUS_ondie_used)
  let keys := (s.stagedNow.filterMap fun x => match x with
    | .cell k _ => if isRouteOf slice k then some k else none
    | _ => none).eraseDups
  keys.foldl (fun (n : Int) k => n + unitsIn hbm k (s.view k) - unitsIn hbm k (s.entryNow k)) (base : Int)

/-- The route a record names, where its fields are permitted (R191, R220): its place. -/
def State.routeOf (s : State) (r : List Byte) (withData : Bool) : Except Nat Nat :=
  let slice := opInst r
  let family := leAt r 51 1
  let plen := leAt r 50 1
  let w := if family = 0 then 32 else 128
  if !s.flag .lpm_SLICE_CFG [slice] f_lpm_SLICE_CFG_valid then .error indexRange
  else if 1 < family ∨ w < plen ∨
      !restZero r ([(16, w / 8), (48, 4)] ++ (if withData then [(32, 4)] else [])) then .error badField
  else
    let addr := beNat ((r.drop 16).take (w / 8))
    .ok (routeKey slice family plen (leAt r 48 2) (addr / 2 ^ (w - plen) * 2 ^ (w - plen)))

/-- A route's HBM unit can be reached (R232). -/
def State.routeOk (s : State) (e : TEntry) : Bool := e.loc == 0 || s.regionOk 0 (32 * (e.loc - 1))

/-- Bit 25 of a location for a route in the HBM extension (R228). -/
def routeLoc (e : TEntry) : Nat := if 0 < e.loc then 2 ^ 25 else 0

/-- An identity for a new entry (R198). -/
def State.newId (s : State) : Nat × State :=
  (s.tab.nextId, { s with tab := { s.tab with nextId := s.tab.nextId + 1 } })

/-- Insertion of a route (R189): on die while the quota has room, else in HBM, on a unit that R189 does not name. -/
def State.stageLpmInsert (s : State) (r : List Byte) : StageOut :=
  match s.routeOf r true with
  | .error c => .fail s c
  | .ok k =>
    let slice := opInst r
    let u : Int := routeUnits (routeFamily k)
    let quota (f : Fld) : Int := s.fld .lpm_SLICE_CFG [slice] f * 4096
    if (s.view k).isSome then .fail s keyExists
    else
      let (id, t) := s.newId
      if s.unitsUsed slice false + u ≤ quota f_lpm_SLICE_CFG_ondie_quota then
        { s := t, items := [.cell k (some { data := leAt r 32 4, id })] }
      else if s.unitsUsed slice true + u ≤ quota f_lpm_SLICE_CFG_hbm_quota then
        let (v, t) := t.free
        let e : TEntry := { data := leAt r 32 4, id, loc := 1 + v.toNat % max 1 (s.regionSize 0 / 32) }
        if s.routeOk e then { s := t, items := [.cell k (some e)], loc := routeLoc e } else .fail s unavailableC
      else .fail s tableFull

/-- Deletion and new data of a route (R189, R221). -/
def State.stageLpmChange (s : State) (r : List Byte) (del : Bool) : StageOut :=
  match s.routeOf r (!del) with
  | .error c => .fail s c
  | .ok k => match s.view k with
    | none => .fail s keyAbsent
    | some e =>
      if !s.routeOk e then .fail s unavailableC
      else { s, items := [.cell k (if del then none else some { e with data := leAt r 32 4 })], loc := routeLoc e }

/-! ### Exact match and the fast-break table (R194 to R197, R173) -/

/-- Whether a table of buckets is the fast-break table, by its place's kind. DESIGN CHOICE, log entry 33. -/
def isFbk (k : Nat) : Bool := placeKind k == 9

/-- The candidate buckets of the key at a place (R194). The fast-break table is 2¹⁴ buckets on die under the seed
of Config; its buckets are numbered from 2²⁵. DESIGN CHOICE, log entry 33. -/
def State.candidates (s : State) (k : Nat) : List Nat :=
  let (a, b) :=
    if isFbk k then
      let key := natBE 21 (k % 2 ^ 192)
      (2 ^ 25 + crc32c Config.fbkSeed key % 2 ^ 14, 2 ^ 25 + crc32c (Config.fbkSeed ^^^ 0xFFFFFFFF) key % 2 ^ 14)
    else
      let i := placeInst k
      s.exmBuckets i ((natBE 16 (k % 2 ^ 192)).take (s.exmKeyLen i))
  if a = b then [a] else [a, b]

/-- A bucket may be read and written (R195, R232). -/
def State.bucketLive (s : State) (b : Nat) : Bool := decide (2 ^ 25 ≤ b) || s.bucketOk b

/-- Ways held by entries that the batch is about to remove (R195): the locations of committed entries that are
deleted, evicted or replaced. DEDUCED, log entry 34. -/
def State.heldWays (s : State) : List Nat :=
  (stagedPlaces s.stagedNow).filterMap fun k => match s.entryNow k with
    | some e => match s.view k with
      | some v => if v.id = e.id then none else some e.loc
      | none => some e.loc
    | none => none

/-- A way is free for a moved entry: nothing is in it (R195). -/
def State.wayFree (s : State) (held : List Nat) (loc : Nat) : Bool := s.way loc == 0 && !held.contains loc

/-- A way is free for the inserted entry, those freed by a DELETE of the batch included (R195).
DEDUCED, log entry 34. -/
def State.wayFreeNew (s : State) (loc : Nat) : Bool :=
  s.way loc == 0 || (match s.view (s.way loc - 1) with | some e => e.loc != loc | none => true)

/-- The lowest way of a bucket that meets a condition. -/
def lowestWay (b : Nat) (f : Nat → Bool) : Option Nat := ((List.range 4).map (4 * b + ·)).find? f

/-- An entry's location changed in the committed state, its earlier state and the staged one (R197). -/
def State.moveEntry (s : State) (k loc : Nat) : State :=
  let c := s.cell k
  let upd (id : Nat) (v : Option TEntry) : Option TEntry :=
    v.map fun e => if e.id = id then { e with loc } else e
  let id := match s.view k with | some e => e.id | none => 0
  let s := s.putCell k { c with cur := upd id c.cur, old := c.old.map (upd id) }
  let s := match s.tab.batch with
    | some b =>
      let one (x : Nat × Staged) : Nat × Staged := match x.2 with
        | .cell j v => (x.1, .cell j (if j = k then upd id v else v))
        | _ => x
      s.setBatch { b with staged := b.staged.map one }
    | none => s
  s.setWay loc (k + 1)

/-- One kick: the way written, the place of the entry written into it, and that of the entry moved out. -/
structure Kick where
  loc : Nat
  placed : Nat
  out : Nat
  deriving DecidableEq, Repr

/-- The cuckoo kicks from bucket `b` with the entry at place `cur` in hand (R195): the kicks made, latest first, and
the way in which the last entry comes to rest; none at the kick limit. DEDUCED, log entry 34. -/
def State.kicks (s : State) (held : List Nat) : Nat → Nat → Nat → Nat → List Kick → List Kick × Option Nat
  | 0, _, _, _, done => (done, none)
  | n + 1, i, b, cur, done =>
    let loc := 4 * b + i % 4
    let there := match done.find? (·.loc == loc) with
      | some k => k.placed + 1
      | none => s.way loc
    if there == 0 || held.contains loc || !s.bucketLive b then (done, none)
    else
      let v := there - 1
      let done := ⟨loc, cur, v⟩ :: done
      let b' := ((s.candidates v).find? (· != b)).getD b
      match if s.bucketLive b' then lowestWay b' (s.wayFree held) else none with
      | some l => (done, some l)
      | none => s.kicks held n (i + 1) b' v done

/-- The eviction candidates of a key (R196): ways that hold neither an entry the batch has staged, a modified one
among them, nor one about to leave, in buckets that are not frozen. DEDUCED, log entry 34. -/
def State.evictable (s : State) (held buckets : List Nat) : List Nat :=
  let staged := stagedPlaces s.stagedNow
  (buckets.filter s.bucketLive).flatMap fun b => ((List.range 4).map (4 * b + ·)).filter fun l =>
    s.way l != 0 && !held.contains l && !staged.contains (s.way l - 1)

/-- The age of the entry in a way (R198). -/
def State.wayAge (s : State) (loc : Nat) : Nat :=
  match s.view (s.way loc - 1) with
  | some e => (s.fld .exm_AGE_EPOCH [] f_exm_AGE_EPOCH_epoch + 2 ^ 32 - e.stamp) % 2 ^ 32
  | none => 0

/-- The way of the greatest age, the lower candidate for equal ages. -/
def State.oldestWay (s : State) : List Nat → Option Nat
  | [] => none
  | l :: rest => match s.oldestWay rest with
    | some m => if s.wayAge l < s.wayAge m then some m else some l
    | none => some l

/-- The table generator's value and next state (R196, R127). -/
def State.tableGen (s : State) (i : Nat) : Nat × State :=
  let g := splitMixNext (SMap.get 0 s.tab.gens i)
  ((splitMixMix g).toNat, { s with tab := { s.tab with gens := SMap.put 0 s.tab.gens i g } })

/-- Where an insertion places an entry and at what cost: the way, the moves, the evicted place with its cause. -/
structure Placement where
  s : State
  loc : Option Nat
  moves : Nat := 0
  evicted : Option (Nat × Nat) := none

/-- The eviction mode decides where the kick limit was reached (R196). The mode, as the limit of LEARN_PORT, is that
which an earlier REG_WRITE of the batch gives it (R222). -/
def State.placeByEviction (s : State) (k : Nat) (held buckets : List Nat) : Placement :=
  let mode := if isFbk k then 0 else f_exm_TBL_CFG_evict_mode.get (s.viewWord .exm_TBL_CFG [placeInst k])
  let c := s.evictable held buckets
  if c.isEmpty then { s, loc := none }
  else match mode with
    | 1 =>
      let (v, s) := s.tableGen (placeInst k)
      let l := c.getD (v % c.length) 0
      { s, loc := some l, evicted := some (s.way l - 1, 0) }
    | 2 => match s.oldestWay c with
      | some l => { s, loc := some l, evicted := some (s.way l - 1, 1) }
      | none => { s, loc := none }
    | _ => { s, loc := none }

/-- Insertion of a key that is absent (R195 to R197), with the table's eviction mode or without eviction (R239).
DESIGN CHOICE, log entry 33; DEDUCED, log entry 34. -/
def State.place (s : State) (k : Nat) (evict : Bool) : Placement :=
  let buckets := s.candidates k
  match (buckets.filter s.bucketLive).findSome? fun b => lowestWay b s.wayFreeNew with
  | some l => { s, loc := some l }
  | none =>
    let held := s.heldWays
    let put (s : State) (j loc : Nat) : State := if j = k then s.setWay loc (k + 1) else s.moveEntry j loc
    match s.kicks held 8 0 (buckets.headD 0) k [] with
    | (done, some l) =>
      let last := match done with | x :: _ => x.out | [] => k
      let own := if last = k then some l else (done.find? (·.placed == k)).map (·.loc)
      let s := s.each done.reverse fun s x => put s x.placed x.loc
      { s := put s last l, loc := own, moves := done.length }
    | (_, none) => if evict then s.placeByEviction k held buckets else { s, loc := none }

/-- Data bits of an exact-match table (R200). -/
def State.exmWidth (s : State) (i : Nat) : Nat :=
  match s.fld .exm_TBL_CFG [i] f_exm_TBL_CFG_data_width with | 0 => 32 | 1 => 64 | _ => 120

/-- The place a record of an exact-match table names, where its fields are permitted (R220). -/
def State.exmPlace (s : State) (r : List Byte) (withData : Bool) : Except Nat Nat :=
  let i := opInst r
  let n := s.exmKeyLen i
  let learned := bitOf (opFlags r) 0
  if !s.flag .exm_TBL_CFG [i] f_exm_TBL_CFG_valid then .error indexRange
  else if !restZero r ([(16, n)] ++ (if withData then [(32, 16)] else []) ++ (if learned then [(52, 2)] else [])) ||
      (withData && decide (2 ^ s.exmWidth i ≤ opData r)) || (learned && decide (255 < leAt r 52 2)) then
    .error badField
  else .ok (exmKey i ((r.drop 16).take n))

/-- The place a record of the fast-break table names (R220). The reserved bits of its action are data, and are stored as
written (R173). DESIGN CHOICE, log entries 33, 77. -/
def fbkPlace (r : List Byte) (withData : Bool) : Except Nat Nat :=
  if !restZero r ([(16, 16), (48, 5)] ++ (if withData then [(32, 8)] else [])) then .error badField
  else .ok (fbkKey (leAt r 52 1 * 2 ^ 160 + beNat ((r.drop 16).take 16 ++ (r.drop 48).take 4)))

/-! ### The operation in hand (R222, R230) -/

/-- The node half a record's index names: line and first word (R272); none where other index bits are set.
DEDUCED, log entry 37. -/
def nodeIndex (i : Nat) : Option (Nat × Nat) :=
  if i / 2 ^ 33 ≠ 0 ∨ bitsOf i 24 8 ≠ 0 then none else some (bitsOf i 0 24, 4 * bitsOf i 32 1)

/-- The rule quarter an index names: rule and first byte. DEDUCED, log entry 37. -/
def ruleIndex (i : Nat) : Option (Nat × Nat) :=
  if i / 2 ^ 60 ≠ 1 ∨ bitsOf i 34 26 ≠ 0 ∨ bitsOf i 20 12 ≠ 0 then none else some (bitsOf i 0 20, 32 * bitsOf i 32 2)

/-- The table address that an operation of the classifier reads: a line of node memory or a rule body (R266, R272). -/
def State.dtcTouched (s : State) (r : List Byte) : Option Nat :=
  let i := opInst r
  let node (line : Nat) : Nat := s.regionAddr 2 (64 * (s.fld .dtc_TBL_NODES [i] f_dtc_TBL_NODES_node_base + line))
  if opCode r ≤ 2 then some (node (opIndex r))
  else match opIndex r / 2 ^ 60 with
    | 0 => (nodeIndex (opIndex r)).map fun x => node x.1
    | 1 => (ruleIndex (opIndex r)).map fun x =>
      s.regionAddr 3 (128 * (s.fld .dtc_TBL_CFG [i] f_dtc_TBL_CFG_rule_base + x.1))
    | _ => none

/-- The table address of what an operation reads in stacks 4-5 (R189, R194, R208, R266): a route of the HBM extension, the
way or the candidate bucket of a key, a line or rule body, a counter. DESIGN CHOICE, log entry 35. -/
def State.opTable (s : State) (r : List Byte) : Option Nat :=
  match opKind r with
  | 2 => match s.routeOf r true with
    | .ok k => match s.view k with
      | some e => s.entryTable 2 e.loc
      | none => none
    | .error _ => none
  | 3 => match s.exmPlace r true with
    | .ok k => match s.view k with
      | some e => s.entryTable 3 e.loc
      | none => ((s.candidates k).find? fun b => decide (2 ^ 23 ≤ b)).map fun b => s.wayAddr (4 * b)
    | .error _ => none
  | 5 => s.dtcTouched r
  | 0x0B => if opCode r = 5 then some (s.regionAddr 4 (16 * opIndex r)) else none
  | _ => none

/-- The controller and the granule of what an operation reads in HBM (R15, R410, R411). -/
def State.opHbm (s : State) (r : List Byte) : Option (Nat × Nat) :=
  if opKind r = 0x13 ∧ opIndex r < 2 ^ 20 then some (opIndex r % 128, polGran (opIndex r))
  else (s.opTable r).map fun t => (128 + feController t, feLocal t / 64)

/-- Staging meets an uncorrectable error (R230): in HBM it freezes the channel and is counted (R274, R280, R427), on die it
is reported with the unit's location. DESIGN CHOICE, log entry 35. -/
def State.stageError (s : State) (r : List Byte) : State :=
  match s.opHbm r with
  | some (k, g) =>
    let s := s.when (opKind r == 5) (·.addSat .dtc_CACHE_STATUS [] f_dtc_CACHE_STATUS_ue_count 1)
    let (y, s) := s.free
    s.hbmDataError k g 2 (BitVec.ofNat 32 y.toNat)
  | none =>
    let (loc, s) := s.unitLoc r
    s.reportUe loc 0

/-- What staging reads in HBM is read with a request of class SC2 (R412). -/
def State.stageReads (s : State) (r : List Byte) : State :=
  match s.opHbm r with
  | some (k, g) => s.hbmUnit k 2 g false
  | none => s

/-- The command of row `row` stages the batch's next operation where it is of that row; an operation that no unit
permits fails whichever row takes it. `ue` says that staging met an uncorrectable error (R230).
DESIGN CHOICE, log entry 35. -/
def State.stageRow (s : State) (row : TxRow) (ue : Bool) (f : State → List Byte → StageOut) : State :=
  match s.nextOp with
  | none => s
  | some (b, n, r) =>
    let done' (o : StageOut) : State := o.s.stageDone b n r o
    if !unitExists r then done' (.fail s badUnit)
    else match rowOf r with
      | none => done' (.fail s badOpcode)
      | some row' =>
        if row' ≠ row then s
        else if 0x10 ≤ opKind r ∧ s.d2dHealth = 2 then done' (.fail s unavailableC)
        else if !flagsOk r then done' (.fail s badField)
        else if s.tileGone r then done' (.fail s unavailableC)
        else if ue then done' (.fail (s.stageError r) memErrorC)
        else done' (f (s.stageReads r) r)

/-- LPM_INSERT (R189). -/
def execLpmInsert (ue : Bool) (s : State) : Res := go (s.stageRow .lpmInsert ue State.stageLpmInsert)

/-- LPM_DELETE (R189). -/
def execLpmDelete (ue : Bool) (s : State) : Res :=
  go (s.stageRow .lpmDelete ue fun s r => s.stageLpmChange r true)

/-- LPM_MODIFY (R221). -/
def execLpmModify (ue : Bool) (s : State) : Res :=
  go (s.stageRow .lpmModify ue fun s r => s.stageLpmChange r false)

/-! ### Exact match and the fast-break table: operations (R195 to R197, R212, R222) -/

/-- The location word of a way (R228): bit 25 HBM, bucket and way; zero for the fast-break table. -/
def wayLoc (k loc : Nat) : Nat :=
  if isFbk k then 0 else loc

/-- Learned entries of a MAC as an operation finds them (R212, R222). -/
def State.learnedView (s : State) (m : Nat) : Int :=
  let one (v : Option TEntry) : Int := match v with | some e => if e.owner = m + 1 then 1 else 0 | none => 0
  (stagedPlaces s.stagedNow).eraseDups.foldl (fun n k => n + one (s.view k) - one (s.entryNow k))
    (s.fld .exm_LEARN_PORT [m] f_exm_LEARN_PORT_learned : Int)

/-- An insertion into a table of buckets at an absent place (R195, R196, R212). The learn limit is tested before any
eviction, so an insertion that would evict an entry of the same owner fails at the limit. DESIGN CHOICE, log entry 76. -/
def State.stageInsert (s : State) (r : List Byte) (k data owner : Nat) : StageOut :=
  let m := owner - 1
  let limit := f_exm_LEARN_PORT_limit.get (s.viewWord .exm_LEARN_PORT [m])
  if (s.view k).isSome then .fail s keyExists
  else if owner ≠ 0 ∧ limit ≠ 0xFFFFF ∧ (limit : Int) < s.learnedView m + 1 then .fail s learnLimit
  else
    let p := s.place k true
    match p.loc with
    | none => .fail p.s tableFull
    | some l =>
      let (id, s) := p.s.newId
      let items := match p.evicted with
        | some (v, cause) => [Staged.evict v cause (opTag r), .cell v none]
        | none => []
      { s := s.setWay l (k + 1), items := items ++ [.cell k (some { data, id, owner, loc := l })]
        loc := wayLoc k l, flags := if p.evicted.isSome then 1 else 0, moves := p.moves }

/-- Deletion from a table of buckets (R222): a staged entry gives its way back at once, a committed one keeps it
until its sequence point. An absent key is KEY_ABSENT even where a candidate bucket is frozen (R232). DESIGN CHOICE,
log entry 33. -/
def State.stageDelete (s : State) (k : Nat) : StageOut :=
  match s.view k with
  | none => .fail s keyAbsent
  | some e =>
    if !s.bucketLive (e.loc / 4) then .fail s unavailableC
    else
      let same := match s.entryNow k with | some c => c.id == e.id | none => false
      { s := if same then s else s.setWay e.loc 0, items := [.cell k none], loc := wayLoc k e.loc }

/-- New data for an entry in buckets (R221): it keeps its owner, its hit bit and its identity. -/
def State.stageModify (s : State) (k data : Nat) : StageOut :=
  match s.view k with
  | none => .fail s keyAbsent
  | some e =>
    if !s.bucketLive (e.loc / 4) then .fail s unavailableC
    else { s, items := [.cell k (some { e with data })], loc := wayLoc k e.loc }

/-- EXM_INSERT (R195). -/
def execExmInsert (ue : Bool) (s : State) : Res :=
  go (s.stageRow .exmInsert ue fun s r => match s.exmPlace r true with
    | .error c => .fail s c
    | .ok k => s.stageInsert r k (opData r) (if bitOf (opFlags r) 0 then leAt r 52 2 + 1 else 0))

/-- EXM_DELETE (R222). -/
def execExmDelete (ue : Bool) (s : State) : Res :=
  go (s.stageRow .exmDelete ue fun s r => match s.exmPlace r false with
    | .error c => .fail s c
    | .ok k => s.stageDelete k)

/-- EXM_MODIFY (R221). -/
def execExmModify (ue : Bool) (s : State) : Res :=
  go (s.stageRow .exmModify ue fun s r => match s.exmPlace r true with
    | .error c => .fail s c
    | .ok k => s.stageModify k (opData r))

/-- FBK_INSERT (R173). -/
def execFbkInsert (ue : Bool) (s : State) : Res :=
  go (s.stageRow .fbkInsert ue fun s r => match fbkPlace r true with
    | .error c => .fail s c
    | .ok k => s.stageInsert r k (leAt r 32 8) 0)

/-- FBK_DELETE (R221). -/
def execFbkDelete (ue : Bool) (s : State) : Res :=
  go (s.stageRow .fbkDelete ue fun s r => match fbkPlace r false with
    | .error c => .fail s c
    | .ok k => s.stageDelete k)

/-- FBK_MODIFY (R221). -/
def execFbkModify (ue : Bool) (s : State) : Res :=
  go (s.stageRow .fbkModify ue fun s r => match fbkPlace r true with
    | .error c => .fail s c
    | .ok k => s.stageModify k (leAt r 32 8))

/-! ### Fast-break templates and the parse graph (R185, R55) -/

/-- Whether word 0 of a template breaks a range (R185). -/
def badTemplate (w : Word) : Bool :=
  decide (120 < f_fbk_TMPL_rw_off.get w) || decide (125 < f_fbk_TMPL_ttl_off.get w) ||
    (f_fbk_TMPL_ttl_op.get w == 1 && decide (123 < f_fbk_TMPL_ttl_off.get w)) ||
    decide (32 < f_fbk_TMPL_prepend_len.get w) || decide (127 < f_fbk_TMPL_strip.get w)

/-- FBK_TEMPLATE_WRITE (R185): the index is template × 8 + word. DEDUCED, log entry 38. -/
def execFbkTemplateWrite (ue : Bool) (s : State) : Res :=
  go (s.stageRow .fbkTmpl ue fun s r =>
    let i := opIndex r
    let w := i % 8
    let v := BitVec.ofNat 64 (leAt r 32 8) &&& templateBits w
    if !restZero r [(8, 8), (32, 8)] then .fail s badField
    else if 8192 ≤ i then .fail s indexRange
    else if w = 0 ∧ badTemplate v then .fail s validation
    else { s, items := [.word (Reg.addr .fbk_TMPL [i / 8, w]) v], loc := i })

/-- Whether a register belongs to the parse-graph unit (R55, R157, R183, R184). -/
def isParseReg : Reg → Bool
  | .prs_NODE_CFG | .prs_NODE_EXT | .prs_NODE_CHK | .prs_NODE_BR | .lbh_NODE_PROF | .rau_NODE_PLAN | .rau_PLAN
  | .fbk_RECIPE | .fbk_NODE_RCP => true
  | _ => false

/-- A segment of a plan slot, valid, runs past the key bundle (R157, R160). -/
def badSegment (seg : Nat) : Bool := bitOf seg 12 && decide (128 < bitsOf seg 5 7 + bitsOf seg 0 5 + 1)

/-- Whether the unit's own rule refuses a word of the parse graph (R157, R183): the segments checked are the valid ones.
DESIGN CHOICE, log entry 77. -/
def State.badParseWord (s : State) (r : Reg) (w : Word) : Bool :=
  match r with
  | .rau_PLAN =>
    f_rau_PLAN_valid.get w == 1 && ((s.tableKeyLen (f_rau_PLAN_table.get w)).isNone ||
      badSegment (f_rau_PLAN_seg0.get w) || badSegment (f_rau_PLAN_seg1.get w) ||
      badSegment (f_rau_PLAN_seg2.get w) || badSegment (f_rau_PLAN_seg3.get w))
  | .fbk_RECIPE =>
    let len (valid f : Fld) : Nat := if valid.get w = 1 then f.get w + 1 else 0
    let n0 := len f_fbk_RECIPE_seg0_valid f_fbk_RECIPE_seg0_len_m1
    let n1 := len f_fbk_RECIPE_seg1_valid f_fbk_RECIPE_seg1_len_m1
    decide (20 < n0 + n1) || (decide (0 < n0) && decide (128 < f_fbk_RECIPE_seg0_off.get w + n0)) ||
      (decide (0 < n1) && decide (128 < f_fbk_RECIPE_seg1_off.get w + n1))
  | _ => false

/-- PARSE_WRITE (R55): the index is the register's BAR0 offset. DEDUCED, log entry 38. -/
def execParseWrite (ue : Bool) (s : State) : Res :=
  go (s.stageRow .parse ue fun s r =>
    if !restZero r [(8, 8), (32, 8)] then .fail s badField
    else match findReg (opIndex r) with
      | some (g, _) =>
        let v := BitVec.ofNat 64 (leAt r 32 8) &&& g.writable
        if !isParseReg g then .fail s indexRange
        else if s.badParseWord g v then .fail s validation
        else { s, items := [.parse (opIndex r) v], loc := opIndex r }
      | none => .fail s indexRange)

/-! ### Next hops, groups and default data (R205 to R207, R188) -/

/-- An entry of an indexed table. -/
def dataEntry (data : Nat) : Option TEntry := some { data }

/-- NHOP_WRITE (R205). -/
def execNhopWrite (ue : Bool) (s : State) : Res :=
  go (s.stageRow .nhop ue fun s r =>
    if !restZero r [(8, 8), (32, 15)] then .fail s badField
    else if 0xFFFFF < opIndex r then .fail s indexRange
    else { s, items := [.cell (nhopKey (opIndex r)) (dataEntry (opData r))], loc := opIndex r })

/-- Groups, pool slots, slot bits and fill members of an ECMP (7) or LAG (8) unit (R65 to R67, R207). -/
def groupCount (kind : Nat) : Nat := if kind = 7 then 65536 else 4096
def poolCount (kind : Nat) : Nat := if kind = 7 then 2 ^ 22 else 2 ^ 20
def slotBits (kind : Nat) : Nat := if kind = 7 then 20 else 16
def fillMax (kind : Nat) : Nat := if kind = 7 then 6 else 7

/-- A valid descriptor whose base is not a multiple of its size (R67). -/
def badDescriptor (kind d : Nat) : Bool :=
  match groupSize d with | some n => groupBase kind d % n != 0 | none => false

/-- GROUP_DESC_WRITE (R207, R67). -/
def execGroupDescWrite (ue : Bool) (s : State) : Res :=
  go (s.stageRow .groupDesc ue fun s r =>
    let kind := opKind r
    let d := leAt r 32 8
    if !restZero r [(8, 8), (32, 8)] then .fail s badField
    else if groupCount kind ≤ opIndex r then .fail s indexRange
    else if badDescriptor kind d then .fail s validation
    else { s, items := [.cell (groupKey kind (opIndex r)) (dataEntry d)], loc := opIndex r })

/-- POOL_SLOT_WRITE (R207). -/
def execPoolSlotWrite (ue : Bool) (s : State) : Res :=
  go (s.stageRow .poolSlot ue fun s r =>
    let kind := opKind r
    let n := opIndex r - 2 ^ 63
    if !restZero r [(8, 8), (32, 16)] || decide (2 ^ slotBits kind ≤ opData r) then .fail s badField
    else if poolCount kind ≤ n then .fail s indexRange
    else { s, items := [.cell (poolKey kind n) (dataEntry (opData r))], loc := opIndex r })

/-- GROUP_FILL (R207): every slot of the group in turn. -/
def execGroupFill (ue : Bool) (s : State) : Res :=
  go (s.stageRow .groupFill ue fun s r =>
    let kind := opKind r
    let w := slotBits kind
    let d := match s.view (groupKey kind (opIndex r)) with | some e => e.data | none => 0
    let c := bitsOf (opData r) 120 4
    if !restZero r [(8, 8), (32, 16)] then .fail s badField
    else if groupCount kind ≤ opIndex r then .fail s indexRange
    else match groupSize d with
      | none => .fail s validation
      | some n =>
        if c = 0 ∨ fillMax kind < c then .fail s validation
        else if bitsOf (opData r) (w * c) (120 - w * c) ≠ 0 ∨ bitsOf (opData r) 124 4 ≠ 0 then .fail s badField
        else
          let item (j : Nat) : Staged :=
            .cell (poolKey kind (groupBase kind d + j)) (dataEntry (bitsOf (opData r) (w * (j % c)) w))
          { s, items := (List.range n).map item, loc := opIndex r })

/-- The table a default-data record names and the width of its data (R188): its instance; a TCAM block stands for
its table. -/
def State.defaultTable (s : State) (r : List Byte) : Option (Nat × Nat) :=
  let i := opInst r
  match opKind r with
  | 2 => if s.flag .lpm_SLICE_CFG [i] f_lpm_SLICE_CFG_valid then some (i, 32) else none
  | 3 => if s.flag .exm_TBL_CFG [i] f_exm_TBL_CFG_valid then some (i, s.exmWidth i) else none
  | 4 => (s.tcamTableOf i).map fun t => (t, 32)
  | 5 => if s.flag .dtc_TBL_CFG [i] f_dtc_TBL_CFG_valid then some (i, 32) else none
  | 6 => some (0, 120)
  | 7 => some (0, 20)
  | 8 => some (0, 16)
  | _ => none

/-- Whether a record names a TCAM block that is not the first of its chain (R254). -/
def State.laterBlock (s : State) (r : List Byte) : Bool :=
  opKind r == 4 && match s.tcamTableOf (opInst r) with
    | some t => s.tcamChain t (opInst r) != opInst r
    | none => false

/-- DEFAULT_DATA_WRITE (R188, R254). -/
def execDefaultDataWrite (ue : Bool) (s : State) : Res :=
  go (s.stageRow .default ue fun s r =>
    let tcam := opKind r = 4
    let data := if tcam then leAt r 58 4 else opData r
    match s.defaultTable r with
    | none => .fail s indexRange
    | some (i, w) =>
      if !restZero r ([(8, 8)] ++ [if tcam then (58, 4) else (32, 16)]) || decide (2 ^ w ≤ data) ||
          (s.laterBlock r && data != 0) then .fail s badField
      else { s, items := [.cell (defaultKey (opKind r) i) (dataEntry data)], loc := resultLoc r })

/-! ### Counters and the age epoch (R208, R198) -/

/-- COUNTER_CLEAR (R208). -/
def execCounterClear (ue : Bool) (s : State) : Res :=
  go (s.stageRow .counterClear ue fun s r =>
    let n := opIndex r
    let c := leAt r 32 4
    if !restZero r [(8, 8), (32, 4)] || c == 0 || decide (65536 < c) then .fail s badField
    else if s.counterCount < n + c then .fail s indexRange
    else if (List.range c).any fun j => !s.regionOk 4 (16 * (n + j)) then .fail s unavailableC
    else { s, items := [.clear n c], loc := n })

/-- AGE_TICK (R198). -/
def execAgeTick (ue : Bool) (s : State) : Res :=
  go (s.stageRow .ageTick ue fun s r => if !restZero r [] then .fail s badField else { s, items := [.age] })

end Sys2Proof.Machine
end

