-- ==== Sys2Proof/Machine/TxnClass.lean ====
section
/-! DEFINITION. Staging of operations on TCAM chains and classifier tables (chapter 7, R254 to R258, R271 to
R273). -/

namespace Sys2Proof.Machine

/-! ### TCAM (R254 to R258) -/

/-- The chain a record's block lies in: its width and its first block; none where the block is in no table. -/
def State.tcamUnit (s : State) (b : Nat) : Option (Nat × Nat) :=
  (s.tcamTableOf b).map fun t => (t, s.tcamChain t b)

/-- V, C, P and D of a record at a width (R254). -/
def tcamV (w : Nat) (r : List Byte) : Nat := beNat ((r.drop 16).take (segBytes w))
def tcamC (w : Nat) (r : List Byte) : Nat := beNat ((r.drop 36).take (segBytes w))
def tcamP (r : List Byte) : Nat := leAt r 56 2
def tcamD (r : List Byte) : Nat := leAt r 58 4

/-- The bytes of a record that V, C, P and D occupy at a width. DEDUCED, log entry 36. -/
def tcamUsed (w : Nat) : List (Nat × Nat) := [(16, segBytes w), (36, segBytes w), (56, 6)]

/-- Entries of a chain that are not FREE, with their positions upward. -/
def State.tcamHeld (s : State) (first : Nat) : List (Nat × TcamEnt) :=
  (s.tcamList first).filter fun e => e.2.state != 0

/-- A priority at a position breaks the order of a chain (R255). -/
def State.breaksOrder (s : State) (first pos p : Nat) : Bool :=
  (s.tcamHeld first).any fun e =>
    (decide (e.1 < pos) && decide (e.2.p < p)) || (decide (pos < e.1) && decide (p < e.2.p))

/-- A position may be written (R255): FREE, or STAGED, which only the batch in hand can have made it. -/
def tcamWritable (e : TcamEnt) : Bool := decide (e.state ≤ 1)

/-- A segment put on a position by an operation, one row write of the block's search group: a kill of the row stays
(R247, R260, R570). -/
def State.tcamStage (s : State) (b pos : Nat) (e : TcamEnt) : State :=
  (s.tcamPut b pos { e.written with killed := (s.tcamEnt b pos).killed }).count1 (79 + b / 4) 5

/-- TCAM_WRITE (R255, R256). DEDUCED, log entry 36. -/
def execTcamWrite (ue : Bool) (s : State) : Res :=
  go (s.stageRow .tcamWrite ue fun s r =>
    let b := opInst r
    match s.tcamUnit b with
    | none => .fail s indexRange
    | some (t, first) =>
      let w := s.tcamWidth t
      let pos := opIndex r
      let v := tcamV w r &&& tcamC w r
      if !restZero r ((8, 8) :: tcamUsed w) || (b != first && (tcamP r != 0 || tcamD r != 0)) then .fail s badField
      else if chainEntries w ≤ pos then .fail s indexRange
      else
        let head := s.tcamEnt first pos
        if !tcamWritable head then .fail s validation
        else if b = first then
          if s.flag .tcm_TBL_CFG [t] f_tcm_TBL_CFG_order_check && s.breaksOrder first pos (tcamP r) then .fail s validation
          else
            let s := s.tcamStage b pos { v, c := tcamC w r, set := true, p := tcamP r, d := tcamD r, state := 1 }
            { s := s.tcamShow first, items := [.tcam first], loc := pos }
        else
          { s := s.tcamStage b pos { v, c := tcamC w r, set := true }, items := [.tcam first], loc := pos })

/-- TCAM_DELETE (R255). -/
def execTcamDelete (ue : Bool) (s : State) : Res :=
  go (s.stageRow .tcamDelete ue fun s r =>
    let b := opInst r
    match s.tcamUnit b with
    | none => .fail s indexRange
    | some (t, first) =>
      let pos := opIndex r
      if !restZero r [(8, 8)] then .fail s badField
      else if b ≠ first ∨ chainEntries (s.tcamWidth t) ≤ pos then .fail s indexRange
      else
        let e := s.tcamEnt b pos
        match e.state with
        | 2 => { s := s.tcamPut b pos { e with state := 3 }, items := [.tcam b], loc := pos }
        | 1 => { s := (s.tcamFree b pos false).tcamShow b, items := [.tcam b], loc := pos }
        | _ => .fail s keyAbsent)

/-- The position past the last entry of at least a priority, and the first entry below it (R257). -/
def insertLo (held : List (Nat × TcamEnt)) (pri : Nat) : Nat :=
  held.foldl (fun a e => if pri ≤ e.2.p then e.1 + 1 else a) 0
def insertHi (held : List (Nat × TcamEnt)) (pri size : Nat) : Nat :=
  match held.find? fun e => decide (e.2.p < pri) with | some e => e.1 | none => size

/-- The lowest free position above `p`, and the highest below it, among positions of which `free` tells (R257). -/
def freeAbove (free : Nat → Bool) (p size : Nat) : Option Nat :=
  ((List.range (size - (p + 1))).map (p + 1 + ·)).find? free
def freeBelow (free : Nat → Bool) (p : Nat) : Option Nat := ((List.range p).reverse).find? free

/-- Where an INSERT places its entry, and the copies it makes first as (from, to) (R257). -/
inductive InsertPlan
  | at' (pos : Nat) (copies : List (Nat × Nat))
  | disorder
  | full
  deriving DecidableEq, Repr

def insertPlan (held : List (Nat × TcamEnt)) (pri size : Nat) : InsertPlan :=
  let lo := insertLo held pri
  let hi := insertHi held pri size
  let free (p : Nat) : Bool := !held.any fun e => e.1 == p
  if hi < lo then .disorder
  else if lo < hi then .at' lo []
  else match freeAbove free hi size with
    | some q => .at' hi (((List.range (q - hi)).map fun i => (q - 1 - i, q - i)))
    | none => match freeBelow free lo with
      | some q => .at' (lo - 1) ((List.range (lo - 1 - q)).map fun i => (q + 1 + i, q + i))
      | none => .full

/-- TCAM_INSERT (R255, R257, R258). A copy carries the kill of a killed entry, so that a move changes no result; the new
entry is not killed where an entry was moved away. DEDUCED, log entry 36. -/
def execTcamInsert (ue : Bool) (s : State) : Res :=
  go (s.stageRow .tcamInsert ue fun s r =>
    let b := opInst r
    match s.tcamUnit b with
    | none => .fail s indexRange
    | some (t, first) =>
      let w := s.tcamWidth t
      if !restZero r (tcamUsed w) || (b != first && (tcamP r != 0 || tcamD r != 0)) then .fail s badField
      else if b ≠ first then .fail s indexRange
      else if 2 ≤ w then .fail s validation
      else match insertPlan (s.tcamHeld b) (tcamP r) (chainEntries w) with
        | .disorder => .fail s validation
        | .full => .fail s tableFull
        | .at' pos copies =>
          let s := s.each copies fun s c => s.tcamPut b c.2 (s.tcamEnt b c.1).written
          let s := s.when (!copies.isEmpty) (·.countEvents (79 + b / 4) 5 copies.length)
          let s := s.addSat .tcm_BLK_STATUS [b] f_tcm_BLK_STATUS_moves copies.length
          let s := if copies.isEmpty then s else s.tcamPut b pos {}
          let s := s.tcamStage b pos
            { v := tcamV w r &&& tcamC w r, c := tcamC w r, set := true, p := tcamP r, d := tcamD r, state := 1 }
          { s := s.tcamShow b, items := [.tcam b], loc := pos })

/-! ### Tree classifier (R271 to R273) -/

def State.dtcValid (s : State) (i : Nat) : Bool := s.flag .dtc_TBL_CFG [i] f_dtc_TBL_CFG_valid
def State.dtcLines (s : State) (i : Nat) : Nat := 2 ^ s.fld .dtc_TBL_NODES [i] f_dtc_TBL_NODES_node_log2
def State.dtcRules (s : State) (i : Nat) : Nat := 2 ^ s.fld .dtc_TBL_CFG [i] f_dtc_TBL_CFG_rule_log2

/-- State and rule of slot `k` of a leaf. -/
def State.leafState (s : State) (i line k : Nat) : Nat := bitsOf (s.nodeWord i line k) 62 2
def State.leafRule (s : State) (i line k : Nat) : Nat := bitsOf (s.nodeWord i line k) 0 20

/-- The slots of a leaf. -/
def leafSlots : List Nat := [1, 2, 3, 4, 5, 6, 7]

/-- What INSERT and DELETE check of a record first (R272, R274): its leaf line and rule lie in the carving and can
be reached. -/
def State.leafCheck (s : State) (r : List Byte) : Except Nat (Nat × Nat × Nat) :=
  let i := opInst r
  let line := opIndex r
  let rule := leAt r 32 4
  if !s.dtcValid i then .error indexRange
  else if !restZero r [(8, 8), (32, 4)] then .error badField
  else if s.dtcLines i ≤ line ∨ s.dtcRules i ≤ rule then .error indexRange
  else if !s.nodeOk i line then .error unavailableC
  else .ok (i, line, rule)

/-- DTC_INSERT (R272). -/
def execDtcInsert (ue : Bool) (s : State) : Res :=
  go (s.stageRow .dtcInsert ue fun s r => match s.leafCheck r with
    | .error c => .fail s c
    | .ok (i, line, rule) =>
      if bitsOf (s.nodeWord i line 0) 62 2 ≠ 2 then .fail s validation
      else if leafSlots.any fun k =>
          (s.leafState i line k == 1 || s.leafState i line k == 2) && s.leafRule i line k == rule then .fail s keyExists
      else match leafSlots.find? fun k => s.leafState i line k == 0 with
        | none => .fail s tableFull
        | some k =>
          if 256 ≤ (s.dtcPend i).length then .fail s tableFull
          else
            let s := s.putNode i line k (slotWord 2 rule)
            { s := s.setPend i (s.dtcPend i ++ [.slot line k true false]), items := [.dtc i], loc := line })

/-- DTC_DELETE (R272). -/
def execDtcDelete (ue : Bool) (s : State) : Res :=
  go (s.stageRow .dtcDelete ue fun s r => match s.leafCheck r with
    | .error c => .fail s c
    | .ok (i, line, rule) =>
      let mine (k : Nat) : Bool := (s.dtcPend i).any fun p => p == .slot line k true false
      match leafSlots.find? fun k => s.leafRule i line k == rule &&
          (s.leafState i line k == 1 || (s.leafState i line k == 2 && mine k)) with
      | none => .fail s keyAbsent
      | some k =>
        if s.leafState i line k = 2 then
          let s := s.putNode i line k 0
          { s := s.setPend i ((s.dtcPend i).filter fun p => p != .slot line k true false), items := [.dtc i], loc := line }
        else if 256 ≤ (s.dtcPend i).length then .fail s tableFull
        else
          let s := s.putNode i line k (slotWord 3 rule)
          { s := s.setPend i (s.dtcPend i ++ [.slot line k false false]), items := [.dtc i], loc := line })

/-- The words of a record's payload (R272). DEDUCED, log entry 37. -/
def payloadWord (r : List Byte) (j : Nat) : Word := BitVec.ofNat 64 (leAt r (16 + 8 * j) 8)

/-- The tree an index names. DEDUCED, log entry 37. -/
def rootIndex (i : Nat) : Option Nat := if i / 2 ^ 60 ≠ 2 ∨ bitsOf i 10 50 ≠ 0 then none else some (bitsOf i 0 10)

/-- DTC_NODE_WRITE (R272): half a line, written at staging. DEDUCED, log entry 37. -/
def execDtcNodeWrite (ue : Bool) (s : State) : Res :=
  go (s.stageRow .dtcNode ue fun s r =>
    let i := opInst r
    if !s.dtcValid i then .fail s indexRange
    else if !restZero r [(8, 8), (16, 32)] then .fail s badField
    else match nodeIndex (opIndex r) with
      | none => .fail s indexRange
      | some (line, w) =>
        if s.dtcLines i ≤ line then .fail s indexRange
        else if !s.nodeOk i line then .fail s unavailableC
        else
          { s := s.each [0, 1, 2, 3] fun s j => s.putNode i line (w + j) (payloadWord r j)
            items := [.dtc i], loc := opIndex r })

/-- DTC_RULE_WRITE (R272): a quarter of a rule body, written at staging. DEDUCED, log entry 37. -/
def execDtcRuleWrite (ue : Bool) (s : State) : Res :=
  go (s.stageRow .dtcRule ue fun s r =>
    let i := opInst r
    if !s.dtcValid i then .fail s indexRange
    else if !restZero r [(8, 8), (16, 32)] then .fail s badField
    else match ruleIndex (opIndex r) with
      | none => .fail s indexRange
      | some (rule, off) =>
        if s.dtcRules i ≤ rule then .fail s indexRange
        else if !s.ruleOk i rule then .fail s unavailableC
        else
          let a := (s.fld .dtc_TBL_CFG [i] f_dtc_TBL_CFG_rule_base + rule) * 128 + off
          { s := { s with cls := { s.cls with rules := s.cls.rules.writeBytes a ((r.drop 16).take 32) } }
            items := [.dtc i], loc := opIndex r })

/-- Whether a tree is one of a table's. -/
def State.treeOf (s : State) (i t : Nat) : Bool :=
  let f := s.fld .dtc_TBL_CFG [i] f_dtc_TBL_CFG_first_tree
  decide (f ≤ t) && decide (t < f + s.fld .dtc_TBL_CFG [i] f_dtc_TBL_CFG_tree_count)

/-- A root change staged in a table, for a tree. -/
def State.stagedRoot (s : State) (i t : Nat) : Option Word :=
  (s.dtcPend i).findSome? fun p => match p with
    | .root t' _ new false => if t' = t then some new else none
    | _ => none

/-- DTC_ROOT_WRITE (R272): it takes effect at S; a second one in the batch replaces the first. DEDUCED, log entry 37. -/
def execDtcRootWrite (ue : Bool) (s : State) : Res :=
  go (s.stageRow .dtcRoot ue fun s r =>
    let i := opInst r
    let w := leAt r 32 4
    if !s.dtcValid i then .fail s indexRange
    else if !restZero r [(8, 8), (32, 4)] || decide (2 ^ 25 ≤ w) then .fail s badField
    else match rootIndex (opIndex r) with
      | none => .fail s indexRange
      | some t =>
        if !s.treeOf i t || decide (s.dtcLines i ≤ bitsOf w 0 24) then .fail s indexRange
        else
          let new := BitVec.ofNat 64 w
          let pend := s.dtcPend i
          if (s.stagedRoot i t).isSome then
            let one (p : PendItem) : PendItem := match p with
              | .root t' old v false => if t' = t then .root t' old new false else .root t' old v false
              | p => p
            { s := s.setPend i (pend.map one), items := [.dtc i], loc := opIndex r }
          else if 256 ≤ pend.length then .fail s tableFull
          else
            { s := s.setPend i (pend ++ [.root t (s.rd .dtc_ROOT [t]) new false]), items := [.dtc i], loc := opIndex r })

/-- DTC result bytes of a READ (R272): 32 bytes in the payload's layout. DEDUCED, log entry 37. -/
def State.dtcRead (s : State) (i index : Nat) : Except Nat (List Byte) :=
  match index / 2 ^ 60 with
  | 0 => match nodeIndex index with
    | some (line, w) =>
      if s.dtcLines i ≤ line then .error indexRange
      else if !s.nodeOk i line then .error unavailableC
      else .ok ([0, 1, 2, 3].flatMap fun j => natLE 8 (s.nodeWord i line (w + j)))
    | none => .error indexRange
  | 1 => match ruleIndex index with
    | some (rule, off) =>
      if s.dtcRules i ≤ rule then .error indexRange
      else if !s.ruleOk i rule then .error unavailableC
      else .ok (s.ruleBytes i rule off 32)
    | none => .error indexRange
  | 2 => match rootIndex index with
    | some t =>
      if !s.treeOf i t then .error indexRange
      else .ok (List.replicate 16 0 ++ padTo 16 (natLE 4 ((s.stagedRoot i t).getD (s.rd .dtc_ROOT [t])).toNat))
    | none => .error indexRange
  | _ => .error indexRange

end Sys2Proof.Machine
end

