-- ==== Sys2Proof/Machine/TxnTm.lean ====
section
/-! DEFINITION. Staging of operations on Shoilany's units: queues, the egress hierarchy, shapers, policers and gate
lists (chapters 8 and 9). -/

namespace Sys2Proof.Machine

/-- The value of the latest staged change that `f` picks, if any. -/
def State.latest {α : Type} (s : State) (f : Staged → Option α) : Option α :=
  s.stagedNow.foldl (fun acc x => match f x with | some v => some v | none => acc) none

/-! ### Queues (R300) -/

/-- A queue's configuration as an operation finds it. -/
def State.queueView (s : State) (q : Nat) : Nat :=
  (s.latest fun x => match x with | .queue n c => if n = q then some c else none | _ => none).getD (s.q q).cfg

/-- QUEUE_WRITE (R300). -/
def execQueueWrite (ue : Bool) (s : State) : Res :=
  go (s.stageRow .queue ue fun s r =>
    let q := opIndex r
    let c := opData r
    let old := s.queueView q
    if !restZero r [(8, 8), (32, 16)] || bitsOf c 17 3 != 0 || bitsOf c 89 39 != 0 then .fail s badField
    else if 589824 ≤ q then .fail s indexRange
    else if ((s.q q).state ≠ 0 ∧ (qcPool c ≠ qcPool old ∨ qcGroup c ≠ qcGroup old)) ∨ 786432 < qcMinCells c ∨
        s.fld .qmg_POOL_CFG [qcPool c] f_qmg_POOL_CFG_limit = 0 then .fail s validation
    else { s, items := [.queue q c], loc := q })

/-! ### The egress hierarchy (R323, R324) -/

/-- A node's record as an operation finds it. -/
def State.schedView (s : State) (lvl n : Nat) : Nat :=
  (s.latest fun x => match x with
    | .sched l m c => if l = lvl ∧ m = n then some c else none
    | _ => none).getD (s.node lvl n).cfg

/-- Whether a queue below a node holds a packet; `k` is 4 less the node's level. -/
def State.holdsBelow (s : State) : Nat → Nat → Bool
  | 0, n => (s.q (524288 + n)).count != 0
  | k + 1, n => (s.children (3 - k) n).any fun c => s.holdsBelow k c

/-- Whether another node names a shaper, in the committed state or earlier in the batch (R324). -/
def State.shaperTaken (s : State) (lvl n sh : Nat) : Bool :=
  (s.tm.nodes.any fun e => e.1 != nodeKey lvl n && e.2.cfg != 0 && ndShaper e.2.cfg == sh) ||
    s.stagedNow.any fun x => match x with
      | .sched l m c => nodeKey l m != nodeKey lvl n && ndShaper c == sh
      | _ => false

/-- Whether a SCHED WRITE fails its validation (R324). DESIGN CHOICE, log entry 35. -/
def State.schedRefused (s : State) (lvl n c : Nat) : Bool :=
  let old := s.schedView lvl n
  ndWeight c == 0 ||
    (if lvl = 0 then ndParent c != 0 else decide (levelNodes (lvl - 1) ≤ ndParent c)) ||
    (lvl != 4 && bitsOf c 50 7 != 0) ||
    (ndShaper c != 0x3FFFF && s.shaperTaken lvl n (ndShaper c)) ||
    (ndParent c != ndParent old && (ndEnable old || s.holdsBelow (4 - lvl) n))

/-- SCHED_WRITE (R324). DESIGN CHOICE, log entry 35. -/
def execSchedWrite (ue : Bool) (s : State) : Res :=
  go (s.stageRow .sched ue fun s r =>
    let lvl := opIndex r / 65536
    let n := opIndex r % 65536
    let c := opData r
    if !restZero r [(8, 8), (32, 16)] || bitsOf c 57 71 != 0 ||
        (decide (131072 ≤ ndShaper c) && ndShaper c != 0x3FFFF) then .fail s badField
    else if 4 < lvl ∨ levelNodes lvl ≤ n then .fail s indexRange
    else if s.schedRefused lvl n c then
      .fail (s.addSat .sch_STATUS [] f_sch_STATUS_validation_fails 1) validation
    else { s, items := [.sched lvl n c], loc := opIndex r })

/-! ### Shapers and policers (R336, R343, R348) -/

/-- SHAPER_WRITE (R336). -/
def execShaperWrite (ue : Bool) (s : State) : Res :=
  go (s.stageRow .shaper ue fun s r =>
    let c := opData r
    if !restZero r [(8, 8), (32, 16)] || bitsOf c 121 7 != 0 then .fail s badField
    else if 131071 < opIndex r then .fail s indexRange
    else if spPir c ≠ 0xFFFFFFFF ∧ (spPir c < spCir c ∨ spPbs c < spCbs c) then .fail s validation
    else { s, items := [.shaper (opIndex r) c], loc := opIndex r })

/-- POLICER_WRITE (R343). DESIGN CHOICE, log entry 35. -/
def execPolicerWrite (ue : Bool) (s : State) : Res :=
  go (s.stageRow .policer ue fun s r =>
    let c := opData r
    let mode := bitsOf c 112 2
    if !restZero r [(8, 8), (32, 16)] || bitsOf c 115 13 != 0 then .fail s badField
    else if 2 ^ 20 ≤ opIndex r then .fail s indexRange
    else if mode = 3 ∨ (mode = 1 ∧ (bitsOf c 32 32 < bitsOf c 0 32 ∨ bitsOf c 88 24 < bitsOf c 64 24)) then
      .fail s validation
    else if !s.polOk (opIndex r) then .fail s unavailableC
    else { s, items := [.policer (opIndex r) c], loc := opIndex r })

/-- EXC_POLICER_WRITE (R348). -/
def execExcPolicerWrite (ue : Bool) (s : State) : Res :=
  go (s.stageRow .excPolicer ue fun s r =>
    let i := opIndex r - 2 ^ 63
    if !restZero r [(8, 8), (32, 16)] || bitsOf (opData r) 49 79 != 0 then .fail s badField
    else if 4096 ≤ i then .fail s indexRange
    else { s, items := [.policer (excPol i) (opData r)], loc := opIndex r })

/-! ### Gate lists (R356) -/

/-- An administrative entry as an operation finds it. -/
def State.gateEntryView (s : State) (p e : Nat) : Nat × Nat :=
  (s.latest fun x => match x with
    | .gateEntry q f g i => if q = p ∧ f = e then some (g, i) else none
    | _ => none).getD (SMap.get (0, 0) (s.gatePort p).adm e)

/-- Fields of a control record. -/
def gcBase (c : Nat) : Nat := bitsOf c 0 64
def gcCycle (c : Nat) : Nat := bitsOf c 64 31
def gcCount (c : Nat) : Nat := bitsOf c 95 9
def gcRequest (c : Nat) : Bool := bitOf c 104

/-- GATE_ENTRY_WRITE (R356). -/
def execGateEntryWrite (ue : Bool) (s : State) : Res :=
  go (s.stageRow .gateEntry ue fun s r =>
    let i := opIndex r
    let c := opData r
    if !restZero r [(8, 8), (32, 16)] || decide (2 ^ 40 ≤ c) || bitsOf c 8 32 == 0 then .fail s badField
    else if 65536 ≤ i then .fail s indexRange
    else { s, items := [.gateEntry (i / 256) (i % 256) (bitsOf c 0 8) (bitsOf c 8 32)], loc := i })

/-- GATE_CONTROL_WRITE (R356). -/
def execGateControlWrite (ue : Bool) (s : State) : Res :=
  go (s.stageRow .gateControl ue fun s r =>
    let p := opIndex r - 2 ^ 63
    let c := opData r
    let sum := ((List.range (gcCount c)).map fun e => (s.gateEntryView p e).2).foldl (· + ·) 0
    if !restZero r [(8, 8), (32, 16)] || bitsOf c 105 23 != 0 then .fail s badField
    else if 256 ≤ p then .fail s indexRange
    else if gcCycle c < 2000 ∨ 2000000000 < gcCycle c ∨ gcCount c = 0 ∨ 256 < gcCount c ∨ gcCycle c < sum ∨
        !s.gateEn p then .fail s validation
    else { s, items := [.gateCtrl p c], loc := opIndex r })

end Sys2Proof.Machine
end

