-- ==== Sys2Proof/Machine/RegWrite.lean ====
section
/-! DEFINITION. Register accesses: what a write to each register does, what a read returns, and through which
BAR a host reaches it (R6 to R12, R489 to R494, R505, R508, R526). -/

namespace Sys2Proof.Machine

/-! ### What a write does -/

/-- Bits of a register that a write of 1 clears (R9). -/
def Reg.clears (r : Reg) : Word :=
  r.row.fields.foldl (fun m f => match f.2 with | .w1c => m ||| f.1.mask | _ => m) 0

/-- Bits of a register that a read clears, and that read zero (R9, R10). -/
def Reg.readClears (r : Reg) : Word :=
  r.row.fields.foldl (fun m f => match f.2 with | .rc => m ||| f.1.mask | _ => m) 0
def Reg.readable (r : Reg) : Word :=
  r.row.fields.foldl (fun m f => match f.2 with | .wo | .w1s => m | _ => m ||| f.1.mask) 0

/-- The bits that a read of one element shows: the words of a template differ (R185). -/
def Reg.readableAt (r : Reg) (ix : List Nat) : Word :=
  match r with
  | .fbk_TMPL => templateBits (ix.getD 1 0)
  | _ => r.readable

/-- The word after a write to a register without behaviour of its own (R9, R10): RW and WO fields take the
written bits, W1C bits written 1 are cleared, and every other bit keeps its value. -/
def Reg.stored (r : Reg) (ix : List Nat) (old v : Word) : Word :=
  ((old &&& ~~~ r.writableAt ix) ||| (v &&& r.writableAt ix)) &&& ~~~ (v &&& r.clears)

/-- A write to a register without behaviour of its own. -/
def State.regStore (s : State) (r : Reg) (ix : List Nat) (v : Word) : State := s.wr r ix (r.stored ix (s.rd r ix) v)

/-- A write of RESET_CTRL (R618): the key begins a device reset, any other value is refused. -/
def State.resetKey (s : State) (a : Access) (key : Nat) : State :=
  if key = 0xD1CE then s.deviceReset 3 else s.accessError 4 a

/-- RESET_KEY_WRITE (R618). -/
def execResetKeyWrite (key : BitVec 16) (s : State) : Res :=
  go (s.resetKey (regAccess .cpr_RESET_CTRL []) key.toNat)

/-- A write of WDOG (R619): arming it and a kick restart the period. -/
def State.wdogWrite (s : State) (v : Word) : State :=
  let was := s.flag .cpr_WDOG [] f_cpr_WDOG_enable
  let s := s.setFld .cpr_WDOG [] f_cpr_WDOG_period (f_cpr_WDOG_period.get v)
  let s := s.setFld .cpr_WDOG [] f_cpr_WDOG_enable (f_cpr_WDOG_enable.get v)
  let s := s.when (!was && s.flag .cpr_WDOG [] f_cpr_WDOG_enable)
    fun s => { s with pwr := { s.pwr with wdogSince := s.cycle } }
  s.when (bitOf v.toNat 63) State.wdogKick

/-- A write of TIME_ADJ (R600, R607). -/
def State.timeAdjWrite (s : State) (v : Word) : State :=
  let step := f_cpr_TIME_ADJ_step.get v
  if bitOf v.toNat 63 then s.timeAdjGo (BitVec.ofNat 48 step)
  else s.setFld .cpr_TIME_ADJ [] f_cpr_TIME_ADJ_step step

/-- A write of twn.CTRL (R481): force_ready is stored, a handover starts where relinquish is written, and in_step_en
requests ON or OFF (R466). -/
def State.twinCtrlWrite (s : State) (v : Word) : State :=
  let s := (s.setFld .twn_CTRL [] f_twn_CTRL_force_ready (f_twn_CTRL_force_ready.get v)).healthCheck
  let s := s.when (f_twn_CTRL_relinquish.get v == 1) State.relinquish
  s.stepRequest (f_twn_CTRL_in_step_en.get v == 1)

/-- A write of CL_CTRL (R118). -/
def State.clCtrlWrite (s : State) (c : Nat) (v : Word) : State :=
  let s := s.setFld .fpc_CL_CTRL [c] f_fpc_CL_CTRL_drain_limit (f_fpc_CL_CTRL_drain_limit.get v)
  let s := s.when (f_fpc_CL_CTRL_db_resume.get v == 1) (·.dbResume c)
  s.clusterRequest c (f_fpc_CL_CTRL_enable.get v == 1)

/-- A write of DBG_CTRL (R114): its command; other values are ignored. -/
def State.dbgCtrlWrite (s : State) (c : Nat) (v : Word) : State :=
  let t := f_fpc_DBG_CTRL_thread.get v
  match f_fpc_DBG_CTRL_cmd.get v with
  | 1 => s.dbgHalt c t
  | 2 => s.dbgResume c t
  | 3 => s.dbgStep c t .clean
  | 4 => s.releaseSlot c (f_fpc_DBG_CTRL_channel.get v) (f_fpc_DBG_CTRL_slot.get v)
  | _ => s

/-- A write of DISP_CFG (R72, R77): the override is active where it is enabled, and never in step (R73). -/
def State.dispCfgWrite (s : State) (v : Word) : State :=
  let s := s.regStore .dsp_DISP_CFG [] v
  s.setFlag .dsp_DISP_STATUS [] f_dsp_DISP_STATUS_override_active
    (s.flag .dsp_DISP_CFG [] f_dsp_DISP_CFG_override_en && !s.inStep)

/-- A write of SA_PN (R383): the number is stored, and its MACSEC_PN event may be posted again. -/
def State.saPnWrite (s : State) (k : Nat) (v : Word) : State :=
  let s := s.regStore .msc_SA_PN [k] v
  { s with line := { s.line with
      pnPosted := SMap.put false (SMap.put false s.line.pnPosted k false) (k + 4096) false } }

/-- A write of a ring's registers (R497, R500). -/
def State.ringRegWrite (s : State) (a : Access) (reg : Reg) (r : Nat) (v : Word) : State :=
  if !ringUsed r then s
  else match reg with
    | .pci_RING_BASE => s.ringBaseWrite a r v
    | .pci_RING_CFG => s.ringCfgWrite a r v
    | .pci_RING_PIDX => s.ringDoorbell r (v.toNat % 2 ^ 32)
    | .pci_RING_CIDX => s.ringCidxWrite r (v.toNat % 2 ^ 32)
    | _ => s.regStore reg [r] v

/-- TIME_CFG (R605): device time locked to PTP with a valid TAI offset makes the calendar known (R537, R539).
DESIGN CHOICE, log entry 51. -/
def State.timeCfgWrite (s : State) (v : Word) : State :=
  let s := s.regStore .cpr_TIME_CFG [] v
  let ptp := f_cpr_TIME_CFG_tai_valid.get v = 1 ∧ f_cpr_TIME_CFG_src.get v = 1
  s.when (ptp ∧ s.boot.mgmtUp ∧ s.mgmt.calendar.isNone) (·.calendarSet (s.tai / 2000000000) 1)

/-- A write of a register takes effect: the behaviour of its own that a register has, else R9. -/
def State.regTake (s : State) (a : Access) (r : Reg) (ix : List Nat) (v : Word) : State :=
  let i := ix.headD 0
  match r with
  | .cpr_TIME_CFG => s.timeCfgWrite v
  | .cpr_TIME_ADJ => s.timeAdjWrite v
  | .cpr_RESET_CTRL => s.resetKey a (f_cpr_RESET_CTRL_key.get v)
  | .cpr_WDOG => s.wdogWrite v
  | .cpr_PD_CTRL => s.pdCtrlWrite a i (f_cpr_PD_CTRL_enable.get v == 1)
  | .gkp_TASK_CFG => s.taskCfgWrite i v
  | .pci_VF_RINGS => s.vfRingsWrite a i v
  | .pci_RING_BASE | .pci_RING_CFG | .pci_RING_PIDX | .pci_RING_CIDX | .pci_RING_WB => s.ringRegWrite a r i v
  | .twn_CTRL => s.twinCtrlWrite v
  | .twn_HEALTH_WT => (s.regStore r ix v).healthCheck
  | .skp_CNT_CFG => s.cntCfgWrite i (ix.getD 1 0) v
  | .skp_CLEAR => s.when (f_skp_CLEAR_go.get v == 1) (·.clearGroup (f_skp_CLEAR_group.get v))
  | .skp_WHISTLE_CTRL => s.whistleCtrlWrite v
  | .skp_WHISTLE_AT => s.whistleAtWrite v
  | .skp_TRACE_CFG => s.traceCfgWrite v
  | .skp_TRACE_CIDX => s.traceCidxWrite v
  | .lmac_PORT_CTRL => s.portCtrlWrite i v
  | .lmac_PORT_FC => (s.regStore r ix v).pauseCheck i
  | .fab_GRANT_CFG => s.budgetsNow.regStore r ix v
  | .dsp_DISP_CFG => s.dispCfgWrite v
  | .fpc_CL_CTRL => s.clCtrlWrite i v
  | .fpc_DBG_CTRL => s.dbgCtrlWrite i v
  | .fpc_ROSTER => s.rosterWrite i (ix.getD 1 0) v a
  | .msc_SA_PN => s.saPnWrite i v
  | .fab_LANE_EN => s.laneEnWrite i v
  | .tm_hmc_CH_CTRL => s.when (bitOf v.toNat 0) (·.hbmRelease i)
  | .fe_hmc_CH_CTRL => s.when (bitOf v.toNat 0) (·.hbmRelease (i + 128))
  | .tm_hmc_TRAIN_CTRL => s.trainWrite i v
  | .fe_hmc_TRAIN_CTRL => s.trainWrite (i + 128) v
  | _ => s.regStore r ix v

/-- Registers that an in-step pair changes only through REG_WRITE or through its tables: a direct write ends in-step
operation (R460). -/
def stepRestricted : Reg → Bool
  | .prs_MAL_ACT | .dsp_DISP_SLOT | .fbk_CFG | .fbk_PORT_EN | .exm_LEARN_PORT | .fpc_CL_CTRL | .lmac_PORT_CTRL
  | .lmac_PORT_FC | .qmg_POOL_CFG | .qmg_GRP_CFG | .qmg_WRED | .sch_ING_CFG | .pol_CFG | .fab_GRANT_CFG | .fab_SYS_MAP
  | .msc_SA_KEY | .msc_SA_SALT | .msc_SA_PN | .msc_SC_CFG => true
  | _ => false

/-- Whether sealing forbids a write to a register (R526, R55). -/
def State.sealsOff (s : State) (r : Reg) : Bool :=
  s.boot.sealed && (match r.row.sealing with | .sealed | .txnOnly => true | _ => false)

/-- A direct write supersedes the earlier value that a REG_WRITE left for the packets before its sequence point: it takes
effect for every packet that reads the register after it (R53). -/
def State.dropOld (s : State) (off : Nat) : State :=
  { s with tab := { s.tab with regOld := SMap.erase s.tab.regOld off } }

/-- A direct write at a BAR0 offset (R8, R18, R53, R460, R526). -/
def State.regDirect (s : State) (a : Access) (off : Nat) (v : Word) : State :=
  if s.tmClosed off then s.accessError 2 a
  else match findReg off with
    | none => s
    | some (r, ix) =>
      if s.sealsOff r then s.accessError 3 a
      else ((s.regTake a r ix v).dropOld off).when (stepRestricted r) (·.stepEnd 3)

/-! ### What a read returns -/

/-- LC_SUMMARY (R495). -/
def State.lcSummary (s : State) : Word :=
  let bits (p : Nat → Bool) : Nat := ((List.range 24).map fun n => if p n then 2 ^ n else 0).foldl (· + ·) 0
  let st (n : Nat) : Nat := s.lc (pdLc n)
  BitVec.ofNat 64 (bits (fun n => st n == 1 || st n == 3) * 2 ^ 24 + bits fun n => st n == 2)

/-- THREAD_STATE (R115). -/
def State.threadState (s : State) (c t : Nat) : Word :=
  let th := s.th c t
  let waits := th.state == 3 || (th.state == 4 && th.under == 3)
  let age := if th.state = 3 ∨ th.state = 4 then min 0xFFFF ((s.cycle - th.waitSince) / 1024) else 0
  let b (x : Bool) (i : Nat) : Nat := if x then 2 ^ i else 0
  BitVec.ofNat 64 (th.pc % 131072 * 2 ^ 32 + age * 2 ^ 16 + b (s.isResident c t) 15 + b th.pkt.isSome 14 +
    (if waits then th.waitObj % 64 * 2 ^ 8 + s.waitKindShown c t * 2 ^ 4 else 0) + th.state)

/-- PORT_STATUS of a port (R360): its guard band, the entry in force and whether a list is pending; a MAC that holds no
port has no guard band. -/
def State.gateStatus (s : State) (p : Nat) : Word :=
  let x := s.gatePort p
  let w := s.rd .tgt_PORT_STATUS [p]
  let w := if s.isPort p then f_tgt_PORT_STATUS_guard.set w (s.guardBand p) else w
  let w := f_tgt_PORT_STATUS_entry.set w (x.oper.at' s.pwr.time.toNat).2
  f_tgt_PORT_STATUS_switch_pending.set w (if x.pend.isSome then 1 else 0)

/-- The word a register shows, before WO and reserved bits read zero. -/
def State.shown (s : State) (r : Reg) (ix : List Nat) : Word :=
  let i := ix.headD 0
  match r with
  | .glb_BOOT_STATUS => s.bootStatus
  | .glb_LC_SUMMARY => s.lcSummary
  | .cpr_TIME => s.pwr.time
  | .fpc_THREAD_STATE => s.threadState i (ix.getD 1 0)
  | .tgt_PORT_STATUS => s.gateStatus i
  | .qmg_CH_STATUS =>
    f_qmg_CH_STATUS_free_blocks.set (f_qmg_CH_STATUS_held_blocks.set (s.rd r [i])
      ((s.chanBlocks i).filter (·.2.2)).length) (s.chanFree i)
  | .lmac_TS_FIFO => (s.tsPop i).1
  | .lmac_PORT_STATUS => f_lmac_PORT_STATUS_rx_paused.set (s.rd r [i]) (s.rxPaused i)
  | r => s.rd r ix

/-- What a read does beside returning data (R9, R307, R375, R442, R535): RC fields are cleared, and with max a droop
detector's count, TS_FIFO is popped, the peak
restarts from the level of the cycle after, and CAP_INFO of a frozen channel is marked read. -/
def State.readEffect (s : State) (r : Reg) (ix : List Nat) : State :=
  let i := ix.headD 0
  match r with
  | .lmac_TS_FIFO => (s.tsPop i).2
  | .mgs_SENSOR =>
    let s := s.wr r ix (s.rd r ix &&& ~~~ r.readClears)
    s.when (decide (136 ≤ i ∧ i < 152)) (·.setFld r ix f_mgs_SENSOR_value 0)
  | .qmg_WM_PEAK => (s.setFld r ix f_qmg_WM_PEAK_peak 0).wmTouch [i]
  | .tm_hmc_CAP_INFO => s.capInfoRead i
  | .fe_hmc_CAP_INFO => s.capInfoRead (i + 128)
  | _ => s.wr r ix (s.rd r ix &&& ~~~ r.readClears)

/-- Whether the elements of a register's array exist where the spec leaves some out (R496, R543). -/
def regHeld (r : Reg) (ix : List Nat) : Bool :=
  match r with
  | .pci_RING_BASE | .pci_RING_CFG | .pci_RING_PIDX | .pci_RING_CIDX | .pci_RING_WB | .pci_RING_STATUS =>
    ringUsed (ix.headD 0)
  | .gkp_TASK_CFG | .gkp_TASK_STATUS => decide (ix.headD 0 < 9)
  | _ => true

/-- A read at a BAR0 offset (R8, R9, R18). -/
def State.regRead (s : State) (a : Access) (off : Nat) : Word × State :=
  if s.tmClosed off then (0xFFFFFFFFFFFFFFFF, s.accessError 2 a)
  else match findReg off with
    | some (r, ix) =>
      if regHeld r ix then (s.shown r ix &&& r.readableAt ix, s.readEffect r ix) else (0, s)
    | none => (0, s)

/-! ### Through which BAR (R491, R492, R505) -/

/-- What an access reaches; nothing answers in a reset, nor the host while PERST_N is asserted. -/
def State.target (s : State) (a : Access) : Target :=
  if s.pwr.inReset then .none
  else match a.who with
    | .mgmt => .map a.off.toNat
    | .host fn bar => if s.host.perst then .none else s.hostTarget fn bar a.off.toNat

/-- The BARs do not report ready yet: a host access completes with all-ones or is discarded, but for BOOT_STATUS and the
MSI-X tables (R505). -/
def State.notReady (s : State) (a : Access) (t : Target) : Bool :=
  !s.flag .glb_BOOT_STATUS [] f_glb_BOOT_STATUS_ready && a.who != .mgmt &&
    (match t with
     | .msix _ => false
     | .map off => off / 8 != Reg.addr .glb_BOOT_STATUS [] / 8
     | _ => true)

/-- The vectors of a function's MSI-X table (R501). -/
def msixSize : Fn → Nat
  | .pf 0 => 32
  | .pf 1 => 2048
  | .pf 2 => 32
  | .pf _ => 2
  | .vf _ => 128

/-- Where a function's Pending Bits stand (R491). -/
def pbaAt : Fn → Nat
  | .pf _ => 0x10000
  | .vf _ => 0x1000

/-- A read of an MSI-X table or PBA. -/
def State.msixRead (s : State) (fn : Fn) (off : Nat) : Word :=
  let ent (n : Nat) : MsixEntry := SMap.get {} s.host.msix (fnKey fn * 4096 + n)
  if off < 16 * msixSize fn then
    let e := ent (off / 16)
    if off % 16 < 8 then e.addr
    else BitVec.ofNat 64 (e.data.toNat + (if e.masked then 2 ^ 32 else 0))
  else if pbaAt fn ≤ off then
    BitVec.ofNat 64 (((List.range 64).map fun j =>
      let n := (off - pbaAt fn) / 8 * 64 + j
      if n < msixSize fn && (ent n).pend then 2 ^ j else 0).foldl (· + ·) 0)
  else 0

/-- A write of one 32-bit word of an MSI-X table (R499): of the address, the data or the mask bit; unmasking sends a
message that is pending. PRESUMED, log entry 10. -/
def State.msixWrite32 (s : State) (fn : Fn) (off : Nat) (v : BitVec 32) : State :=
  if off < 16 * msixSize fn then
    let n := off / 16
    let k := fnKey fn * 4096 + n
    let e := SMap.get {} s.host.msix k
    let put (e : MsixEntry) : State := { s with host := { s.host with msix := SMap.put {} s.host.msix k e } }
    match off / 4 % 4 with
    | 0 => put { e with addr := (e.addr >>> 32 <<< 32) ||| v.setWidth 64 }
    | 1 => put { e with addr := BitVec.append v (e.addr.setWidth 32) }
    | 2 => put { e with data := v }
    | _ => if v.getLsbD 0 then put { e with masked := true } else s.msixUnmask fn n
  else s

/-- A write of 64 bits of an MSI-X table: its two words, the lower first. PRESUMED, log entry 10. -/
def State.msixWrite (s : State) (fn : Fn) (off : Nat) (v : Word) : State :=
  (s.msixWrite32 fn off (v.setWidth 32)).msixWrite32 fn (off + 4) ((v >>> 32).setWidth 32)

/-- A write that is aligned and 64 bits wide. -/
def State.accessWrite (s : State) (a : Access) (v : Word) : State :=
  let t := s.target a
  if s.notReady a t then s
  else match t with
    | .map off => s.regDirect a off v
    | .msix off => match a.who with | .host fn _ => s.msixWrite fn off v | .mgmt => s
    | _ => s

/-- A read that is aligned and 64 bits wide. -/
def State.accessRead (s : State) (a : Access) : State :=
  let t := s.target a
  let answer (v : Word) (s : State) : State := s.emit (.readData v)
  match t with
  | .none => s
  | _ =>
    if s.notReady a t then answer 0xFFFFFFFFFFFFFFFF s
    else match t with
      | .map off => let (v, s) := s.regRead a off; answer v s
      | .pages off => answer (s.snapshotRead off) s
      | .vfPages off => answer (s.vfSnapshotRead off) s
      | .msix off => match a.who with | .host fn _ => answer (s.msixRead fn off) s | .mgmt => s
      | _ => answer 0 s

/-- Whether R7 governs an access: it goes to a BAR0. -/
def isBar0 (a : Access) : Bool :=
  match a.who with | .mgmt => true | .host _ b => b == .bar0

/-- The 32-bit word at an offset of a BAR that is read in words of 64 bits by `f`. -/
def word32 (f : Nat → Word) (off : Nat) : Word := (f (off / 8 * 8) >>> (off % 8 / 4 * 32)) &&& 0xFFFFFFFF

/-- An access of one or two 32-bit words `l` to a BAR2 or BAR4, which R7 does not govern (R492): the words are read, or
those of the MSI-X table written; before the device is ready BAR2 answers all-ones (R505). PRESUMED, log entry 10. -/
def State.access32 (s : State) (a : Access) (write : Bool) (l : List (BitVec 32)) : State :=
  let off := a.off.toNat / 4 * 4
  let t := s.target a
  let answer (f : Nat → Word) : State :=
    s.emit (.readData (word32 f off + if l.length = 2 then word32 f (off + 4) <<< 32 else 0))
  match t, a.who with
  | .msix _, .host fn _ =>
    if write then s.each (List.range l.length) fun s i => s.msixWrite32 fn (off + 4 * i) (l.getD i 0)
    else answer (s.msixRead fn)
  | .vfPages _, _ =>
    if write then s
    else answer (if s.notReady a t then fun _ => 0xFFFFFFFFFFFFFFFF else s.vfSnapshotRead)
  | _, _ => s

/-- A narrow or unaligned access (R7, R492, R508), of the 32-bit words `l` where it is a write: a read answers all-ones;
one that the BARs do not take yet is no error (R505), nor one in a PF1 window of a VF's ring (R508). DEDUCED, log entry 11. -/
def State.accessNarrow (s : State) (a : Access) (write : Bool) (l : List (BitVec 32)) : State :=
  let t := s.target a
  if !isBar0 a then s.access32 a write l
  else match t with
    | .none => s
    | _ =>
      let s' := s.when (!write) (·.emit (.readData 0xFFFFFFFFFFFFFFFF))
      if s.notReady a t then s'
      else if t = .empty && a.who == .host (.pf 1) .bar0 then s'
      else s'.accessError 1 a

/-- Whether an access is 8-byte aligned. -/
def isAligned (a : Access) : Bool := a.off.toNat % 8 == 0

/-- REGISTER_WRITE (R8, R9, R526). -/
def execRegisterWrite (a : Access) (v : Word) (s : State) : Res :=
  go (if isAligned a then s.accessWrite a v else s.accessNarrow a true [v.setWidth 32, (v >>> 32).setWidth 32])

/-- READ_CLEAR_ACCESS (R9). DEDUCED, log entry 11. -/
def execReadClearAccess (a : Access) (s : State) : Res :=
  go (if isAligned a then s.accessRead a else s.accessNarrow a false [0, 0])

/-- NARROW_UNALIGNED_ACCESS (R7). -/
def execNarrowUnalignedAccess (a : Access) (write : Bool) (s : State) (data : BitVec 32 := 0) : Res :=
  go (s.accessNarrow a write [data])

/-- POISONED_WRITE (R489): discarded and recorded; the management cores' writes are never poisoned. -/
def execPoisonedWrite (a : Access) (s : State) : Res :=
  let t := s.target a
  if t = .none || a.who == .mgmt || s.notReady a t then go s
  else if t = .empty && a.who == .host (.pf 1) .bar0 then go s
  else go (s.accessError 5 a)

end Sys2Proof.Machine
end

