-- ==== Sys2Proof/Machine/Scrub.lean ====
section
/-! DEFINITION. The groundskeeper's scrubs of the on-die memories (chapter 14, R542; R24, R120). -/

namespace Sys2Proof.Machine

/-- The groundskeeper rewrites the instruction words with bad check bits from the management window's copy (R120).
DEDUCED, log entry 29. -/
def State.rewriteIsram (s : State) : State :=
  let word (k : Nat) : BitVec 32 := match s.program (k / 131072) with
    | some g => g.words.getD (k % 131072) 0
    | none => 0
  let isram := s.fpc.badIsram.foldl (fun m e => SMap.put 0 m e.1 (word e.1)) s.fpc.isram
  { s with fpc := { s.fpc with isram, badIsram := [] } }

/-- The memory of a cluster that a location word names, numbered as last_ue_mem numbers it (R121): a core's macros hold
its register file, macro 0, and scratch, and those outside its cores are known by their macro number. DESIGN CHOICE,
log entry 78. -/
def scrubMem (loc : Word) : Nat :=
  let m := bitsOf loc.toNat 23 12
  if locClass loc = 1 then (if m = 0 then 5 else 4) else if m = 2 ∨ m = 3 then m else 1

/-- The cluster whose memory a location word names (R22, R23). -/
def scrubCluster (loc : Word) : Option Nat :=
  let c := bitsOf loc.toNat 50 6
  if bitsOf loc.toNat 56 2 = 0 ∧ c < 32 ∧ locClass loc ≤ 1 then some c else none

/-- A corrected error that a scrub access found is counted where its memory counts (R24, R57, R120, R320).
DESIGN CHOICE, log entry 78. -/
def State.scrubFixed (s : State) (loc : Word) : State :=
  match scrubCluster loc with
  | some c => s.ceCount c (scrubMem loc == 2)
  | none => match locClass loc with
    | 2 => s.addSat .prs_STATUS [] f_prs_STATUS_ce_count 1
    | 10 => s.when (decide (locIndex loc < 256)) (·.addSat .buf_CE_CNT [locIndex loc] f_buf_CE_CNT_corrected 1)
    | _ => s

/-- An uncorrectable error that a scrub access found is counted where its memory counts, and its row is noted for repair;
one in a core's register file or scratch stops the core (R24, R57, R120, R321). DESIGN CHOICE, log entry 78. -/
def State.scrubBad (s : State) (loc : Word) : State :=
  match scrubCluster loc with
  | some c =>
    let s := s.addSat .fpc_ERR_STATUS [c] f_fpc_ERR_STATUS_ue_count 1
    let s := (s.setFld .fpc_ERR_STATUS [c] f_fpc_ERR_STATUS_last_ue_mem (scrubMem loc)).noteRepair loc
    match if locClass loc = 1 then s.logicalOf c (locIndex loc) else none with
    | some k => s.when (decide (2 ≤ s.lc (clusterLc c))) (·.coreFail c (locIndex loc) k 3)
    | none => s
  | none => match locClass loc with
    | 2 =>
      let s := s.addSat .prs_STATUS [] f_prs_STATUS_ue_count 1
      let s := s.setFld .prs_STATUS [] f_prs_STATUS_last_ue_pipe (locIndex loc)
      (s.setFld .prs_STATUS [] f_prs_STATUS_last_ue_node (locRow loc)).noteRepair loc
    | 10 => if locIndex loc < 256 then s.bankUe (locIndex loc) (locRow loc) else s.noteRepair loc
    | _ => s.noteRepair loc

/-- SRAM_SCRUB_STEP (R542, R24, R120): the next SRAM accesses are scrubbed, by task 0 or by the deep scrub; every error
is counted in its memory's counter, and uncorrectable ones are reported and noted for repair. -/
def execSramScrubStep (found : List ScrubFinding) (overBudget lastOfPass : Bool) (s : State) (deep : Bool := false) :
    Res :=
  go <| (if deep then s.deepStep false overBudget lastOfPass else s.taskStep 0 overBudget lastOfPass) fun s =>
    let s := s.each found fun s f => match f with
      | .clean => s
      | .corrected loc => s.scrubFixed loc
      | .uncorrectable loc => s.scrubBad loc
    let bad := found.filterMap fun f => match f with
      | .uncorrectable loc => some loc
      | _ => none
    (s.reportUes bad).rewriteIsram

end Sys2Proof.Machine
end

