-- ==== Sys2Proof/Machine/TxnApply.lean ====
section
/-! DEFINITION. What a commit changes in the tables, registers and queues (chapter 6, R223, R226). -/

namespace Sys2Proof.Machine

/-- Whether a write of CH_CTRL asks for a release that is refused (R430, R435). -/
def State.releaseRefused (s : State) (r : Reg) (ix : List Nat) (v : Word) : Bool :=
  let refused (k : Nat) : Bool :=
    bitOf v.toNat 0 && ((s.hSet k f_tm_hmc_CH_STATUS_release_refused 0).hbmRelease k).hFlag k f_tm_hmc_CH_STATUS_release_refused
  match r with
  | .tm_hmc_CH_CTRL => refused (ix.headD 0)
  | .fe_hmc_CH_CTRL => refused (ix.headD 0 + 128)
  | _ => false

/-! ### What a commit changes (R223, R226) -/

/-- The place a batch writes keeps its earlier state where it was written at the same sequence point before.
DEDUCED, log entry 39. -/
def Cell.commit (c : Cell) (n : Nat) (v : Option TEntry) : Cell :=
  if c.old.isSome && c.seq == n then { c with cur := v } else { cur := v, old := some c.cur, seq := n }

/-- The entry as it is committed: a modified one keeps the hit bit it has now, and an inserted or modified one takes the
epoch of its sequence point (R198), in a table whose stamps field is 0 too: its eviction records show the age since then.
DESIGN CHOICE, log entry 76. -/
def State.committed (s : State) (k : Nat) (v : Option TEntry) : Option TEntry :=
  v.map fun e =>
    let e := match s.entryNow k with | some c => if c.id = e.id then { e with hit := c.hit } else e | none => e
    if placeKind k = 3 then { e with stamp := s.fld .exm_AGE_EPOCH [] f_exm_AGE_EPOCH_epoch } else e

/-- A counting field changes by the difference of two numbers. -/
def State.shiftFld (s : State) (r : Reg) (ix : List Nat) (f : Fld) (plus minus : Nat) : State :=
  s.setFld r ix f (s.fld r ix f + plus - minus)

/-- The counts a table keeps of its entries follow a change of one (R193, R202, R212). -/
def State.countEntry (s : State) (k : Nat) (old new : Option TEntry) : State :=
  let i := placeInst k
  let n (v : Option TEntry) : Nat := if v.isSome then 1 else 0
  match placeKind k with
  | 2 =>
    let s := s.shiftFld .lpm_SLICE_STATUS [i] f_lpm_SLICE_STATUS_ondie_used (unitsIn false k new) (unitsIn false k old)
    s.shiftFld .lpm_SLICE_STATUS [i] f_lpm_SLICE_STATUS_hbm_used (unitsIn true k new) (unitsIn true k old)
  | 3 =>
    let s := s.shiftFld .exm_TBL_STATUS [i] f_exm_TBL_STATUS_entries (n new) (n old)
    let own (s : State) (v : Option TEntry) (plus minus : Nat) : State := match v with
      | some e => s.when (e.owner != 0) (·.shiftFld .exm_LEARN_PORT [e.owner - 1] f_exm_LEARN_PORT_learned plus minus)
      | none => s
    own (own s new 1 0) old 0 1
  | _ => s

/-- The way an entry leaves is free (R195). DEDUCED, log entry 34. -/
def State.freeWay (s : State) (k : Nat) (old new : Option TEntry) : State :=
  match old with
  | some e =>
    let stays := match new with | some v => v.loc == e.loc | none => false
    s.when (inBuckets k && !stays && s.way e.loc == k + 1) (·.setWay e.loc 0)
  | none => s

/-- One entry changes at sequence point `n`. -/
def State.applyCell (s : State) (n k : Nat) (v : Option TEntry) : State :=
  let old := s.entryNow k
  let new := s.committed k v
  let s := s.putCell k ((s.cell k).commit n new)
  let s := (s.countEntry k old new).freeWay k old new
  match new with
  | some e => s.when (inBuckets k) (·.setWay e.loc (k + 1))
  | none => s

/-- An eviction record (R204); one for which the ring has no room is lost. -/
def evictBytes (k : Nat) (e : TEntry) (cause seq tag : Nat) : List Byte :=
  padTo 64 (natBE 16 (k % 2 ^ 192) ++ natLE 16 e.data ++ natLE 1 cause ++ natLE 1 (placeInst k) ++
    natLE 2 (if e.owner = 0 then 0xFFFF else e.owner - 1) ++ natLE 4 e.stamp ++ natLE 8 seq ++ natLE 4 tag)
def State.evictPost (s : State) (i : Nat) (bytes : List Byte) : State :=
  let s := s.when (!s.ringRoom 33) (·.addSat .exm_TBL_STATUS [i] f_exm_TBL_STATUS_ring_drops 1)
  s.ringPut 33 bytes

/-- The earlier value of a register is kept for packets numbered below `n` (R226). -/
def State.keepReg (s : State) (n a : Nat) (old : Word) : State :=
  match SMap.find? s.tab.regOld a with
  | some (m, _) => if m = n then s else { s with tab := { s.tab with regOld := SMap.insert s.tab.regOld a (n, old) } }
  | none => { s with tab := { s.tab with regOld := SMap.insert s.tab.regOld a (n, old) } }

/-- A word of the parse graph changes: the first of a commit switches the banks (R55). A node written anew is readable
in every pipe. -/
def State.applyParse (s : State) (n a : Nat) (v : Word) : State :=
  match findReg a with
  | some (r, ix) =>
    let old := s.rd r ix
    let s := if s.tab.parseAt = some n then s
      else
        let b := s.activeBank
        let bad := (List.range 1024).foldl (fun m i =>
          SMap.put 0 m ((1 - b) * 1024 + i) (SMap.get 0 s.fpc.badNodes (b * 1024 + i))) s.fpc.badNodes
        let s := { s with
          tab := { s.tab with parseAt := some n }
          fpc := { s.fpc with otherBank := [], badNodes := bad } }
        s.setFld .prs_STATUS [] f_prs_STATUS_active_bank (1 - b)
    let other := match SMap.find? s.fpc.otherBank a with
      | some _ => s.fpc.otherBank
      | none => SMap.insert s.fpc.otherBank a old
    let node := match r with
      | .prs_NODE_CFG | .prs_NODE_EXT | .prs_NODE_CHK | .prs_NODE_BR => true
      | _ => false
    let bad := if node then SMap.put 0 s.fpc.badNodes (s.activeBank * 1024 + ix.headD 0) 0 else s.fpc.badNodes
    { s with fpc := { s.fpc with otherBank := other, badNodes := bad } }.wr r ix v
  | none => s

/-- The age epoch advances (R198): a walk not finished stops, and the walks of the tables that report begin (R199),
in the order of their keys. DEDUCED, log entry 39; DESIGN CHOICE, log entry 77. -/
def State.applyAge (s : State) (n : Nat) : State :=
  let e := s.fld .exm_AGE_EPOCH [] f_exm_AGE_EPOCH_epoch
  let s := { s with tab := { s.tab with epochs := s.tab.epochs ++ [(n, e)] } }
  let s := s.setFld .exm_AGE_EPOCH [] f_exm_AGE_EPOCH_epoch (e + 1)
  let walk (i : Nat) : List Nat := s.tab.cells.filterMap fun (c : Nat × Cell) =>
    if placeKind c.1 == 3 && placeInst c.1 == i && c.2.cur.isSome then some c.1 else none
  s.each (List.range 64) fun s i =>
    let reports := s.flag .exm_TBL_CFG [i] f_exm_TBL_CFG_valid && s.flag .exm_TBL_CFG [i] f_exm_TBL_CFG_age_report
    { s with tab := { s.tab with ageWalk := SMap.put [] s.tab.ageWalk i (if reports then walk i else []) } }

/-- A TCAM chain (R253). -/
def State.applyTcam (s : State) (n first : Nat) : State :=
  (s.tcamStates first fun st => match st with | 1 => 4 | 3 => 5 | k => k).wr .tcm_BLK_SEQ [first] (BitVec.ofNat 64 n)

/-- A classifier table (R271): its pending changes are committed, and its new roots are in force. -/
def State.applyDtc (s : State) (n i : Nat) : State :=
  let l := s.dtcPend i
  let s := s.each l fun s p => match p with
    | .root t _ new false => s.wr .dtc_ROOT [t] new
    | _ => s
  let l := l.map fun p => match p with
    | .slot line k add _ => .slot line k add true
    | .root t old new _ => .root t old new true
  (s.setPend i l).wr .dtc_SEQ [i] (BitVec.ofNat 64 n)

/-- A queue's configuration (R300): enable requests ON or OFF at the sequence point (R301). -/
def State.applyQueue (s : State) (n q cfg : Nat) : State :=
  let s := s.when (bitOf cfg 0) (·.pdWanted 14)
  let on := s.pdOn 14
  s.modQ q fun x =>
    let keep := match x.cfgOld with | some (m, o) => if m = n then some (m, o) else some (n, x.cfg) | none => some (n, x.cfg)
    ({ x with cfg, cfgOld := if isVoq q then keep else none }).request (bitOf cfg 0) on n

/-- The switch tick of a pending gate list (R357): the first cycle start at least 8,000 ticks away. -/
def switchTick (base cycle now : Nat) : Nat :=
  if now + 8000 ≤ base then base else base + (now + 8000 - base + cycle - 1) / cycle * cycle

/-- A control record of a gate list (R356, R357): with request set the list is copied; the playbook's first list is
loaded directly. A list whose switch tick has come is pending no more. -/
def State.applyGate (s : State) (p c : Nat) : State :=
  let s := s.gateSwitch p
  let x := s.gatePort p
  let s := s.modGate p fun x => { x with ctrl := c }
  if gcRequest c then
    let l : GateList := { base := gcBase c, cycleTicks := gcCycle c
                          entries := (List.range (gcCount c)).map fun e => SMap.get (0, 0) x.adm e }
    if s.boot.sealed then s.modGate p fun x => { x with pend := some (l, switchTick l.base l.cycleTicks s.pwr.time.toNat) }
    else s.gateLoad p l l.base
  else s

/-- A staged change takes effect at sequence point `n`. -/
def State.apply (s : State) (n : Nat) (x : Staged) : State :=
  match x with
  | .cell k v => s.applyCell n k v
  | .evict k cause tag => match s.entryNow k with
    | some e =>
      (s.addSat .exm_TBL_STATUS [placeInst k] f_exm_TBL_STATUS_evictions 1).evictPost (placeInst k)
        (evictBytes k e cause n tag)
    | none => s
  | .parse a v => s.applyParse n a v
  | .word a v => match findReg a with
    | some (r, ix) => (s.keepReg n a (s.rd r ix)).wr r ix v
    | none => s
  | .reg a v => match findReg a with
    | some (r, ix) => ((s.keepReg n a (s.rd r ix)).regTake (regAccess r ix) r ix v).when (s.releaseRefused r ix v)
        (·.accessError 4 (regAccess r ix))
    | none => s
  | .age => s.applyAge n
  | .clear first count =>
    let keep (e : Nat × Nat) : Bool := decide (e.1 < first) || decide (first + count ≤ e.1)
    { s with tab := { s.tab with counters := s.tab.counters.filter keep } }
  | .tcam first => s.applyTcam n first
  | .dtc i => s.applyDtc n i
  | .queue q c => s.applyQueue n q c
  | .sched lvl m c => s.modNode lvl m fun x => { x with cfg := c }
  | .shaper m c =>
    let s := s.refillDue
    { s with tm := { s.tm with
        shapers := SMap.put {} s.tm.shapers m { s.shaper m with pend := some (c, s.cycle) } } }.shaperShow
  | .policer k c => s.polWrite k c n
  | .gateEntry p e g i => s.modGate p fun x => { x with adm := SMap.put (0, 0) x.adm e (g, i) }
  | .gateCtrl p c => s.applyGate p c

/-- Whether a change lies on the Shoilany die (R219). -/
def Staged.onTm : Staged → Bool
  | .queue .. | .sched .. | .shaper .. | .policer .. | .gateEntry .. | .gateCtrl .. => true
  | .reg a _ => decide (0x2000000 ≤ a)
  | _ => false

def Staged.isAge : Staged → Bool
  | .age => true
  | _ => false

/-- Changes take effect at sequence point `n`, the age epoch first (R198). DEDUCED, log entry 39. -/
def State.applyAll (s : State) (n : Nat) (l : List Staged) : State :=
  s.each (l.filter Staged.isAge ++ l.filter fun x => !x.isAge) fun s x => s.apply n x

/-- A register as an operation finds it: as it would read with the batch's earlier operations committed (R222). -/
def State.stagedReg (s : State) (r : Reg) (ix : List Nat) : Word :=
  (s.applyAll s.fpc.seqNext s.stagedNow).shown r ix

end Sys2Proof.Machine
end

