-- ==== Sys2Proof/Machine/TxnRead.lean ====
section
/-! DEFINITION. REG_WRITE and READ operations of a batch (chapter 6, R228, R229, with the READ layouts of chapters
7 to 9). -/

namespace Sys2Proof.Machine

/-! ### REG_WRITE (R229) -/

/-- Whether a BAR0 offset lies in the range of unit kind 0x0C (FE_REG) or 0x15 (TM_REG). -/
def regUnitRange (kind off : Nat) : Bool :=
  if kind = 12 then decide (0x1000000 ≤ off) && decide (off < 0x2000000) else decide (0x2000000 ≤ off)

/-- Whether the register's own rule refuses a value in the state in force. DEDUCED, log entry 38. -/
def State.regRefuses (s : State) (r : Reg) (ix : List Nat) (v : Word) : Bool :=
  let t := s.wr .pci_ERR_STATUS [] 0
  s.releaseRefused r ix v || decide (0 < (t.regTake (regAccess r ix) r ix v).fld .pci_ERR_STATUS [] f_pci_ERR_STATUS_count)

/-- Whether a value of TBL_CFG changes a field that REG_WRITE may not, or gives EVICT_OLDEST to a table without stamps
(R196, R200, R229). -/
def badTblCfg (old v : Word) : Bool :=
  let may := f_exm_TBL_CFG_evict_mode.mask ||| f_exm_TBL_CFG_age_limit.mask ||| f_exm_TBL_CFG_age_report.mask
  (old &&& ~~~ may) != (v &&& Reg.writable .exm_TBL_CFG &&& ~~~ may) ||
    (f_exm_TBL_CFG_evict_mode.get v == 2 && f_exm_TBL_CFG_stamps.get v == 0)

/-- TXN_REG_WRITE (R229). -/
def execTxnRegWrite (ue : Bool) (s : State) : Res :=
  go (s.stageRow .regWrite ue fun s r =>
    let off := opIndex r
    let v := BitVec.ofNat 64 (leAt r 32 8)
    if !restZero r [(8, 8), (32, 8)] then .fail s badField
    else match findReg off with
      | none => .fail s indexRange
      | some (g, ix) =>
        let ok := match g, g.row.sealing with
          | .exm_TBL_CFG, _ => true
          | _, .tunable => true
          | _, _ => false
        if !ok || !regUnitRange (opKind r) off then .fail s sealedC
        else if (g == .exm_TBL_CFG && badTblCfg (s.viewWord g ix) v) || s.regRefuses g ix v then .fail s validation
        else { s, items := [.reg off v], loc := off })

/-! ### READ (R228) -/

/-- Result bytes of a READ: a key in the first 16 and data in the last 16. -/
def readKeyData (key : List Byte) (data : Nat) : List Byte := padTo 16 key ++ natLE 16 data

/-- A READ that answers `read`. -/
def readOk (s : State) (r : List Byte) (read : List Byte) : StageOut := { s, read, loc := opIndex r }

/-- A READ of a table's default data (R188). -/
def State.readDefault (s : State) (r : List Byte) : StageOut :=
  match s.defaultTable r with
  | some (i, _) =>
    if !restZero r [(8, 8)] then .fail s badField
    else { s, read := readKeyData [] (match s.view (defaultKey (opKind r) i) with | some e => e.data | none => 0), loc := resultLoc r }
  | none => .fail s indexRange

/-- A READ of a keyed unit: LPM, exact match or the fast-break table. -/
def State.readKeyed (s : State) (r : List Byte) : StageOut :=
  let place := match opKind r with
    | 2 => s.routeOf r false
    | 3 => s.exmPlace r false
    | _ => fbkPlace r false
  let key := (r.drop 16).take 16
  match place with
  | .error c => .fail s c
  | .ok k => match s.view k with
    | none => .fail s keyAbsent
    | some e =>
      let ok := if opKind r = 2 then s.routeOk e else s.bucketLive (e.loc / 4)
      if !ok then .fail s unavailableC
      else { s, read := readKeyData key e.data, loc := if opKind r = 2 then routeLoc e else wayLoc k e.loc }

/-- A counter as an operation finds it: zero where the batch cleared it. -/
def State.counterView (s : State) (n : Nat) : Nat :=
  if s.stagedNow.any fun x => match x with
    | .clear f c => decide (f ≤ n) && decide (n < f + c)
    | _ => false
  then 0 else s.counterPair n

/-- A READ of an indexed Pyrlys unit: next hops, groups, pool slots, templates and counters. -/
def State.readIndexed (s : State) (r : List Byte) : StageOut :=
  let i := opIndex r
  let kind := opKind r
  let data (k d : Nat) : StageOut :=
    readOk s r (readKeyData [] (match s.view k with | some e => e.data | none => d))
  if !restZero r [(8, 8)] then .fail s badField
  else match kind with
    | 6 => if 0xFFFFF < i then .fail s indexRange else data (nhopKey i) 0
    | 0x0A => if 8192 ≤ i then .fail s indexRange
      else readOk s r (padTo 32 (natLE 8 (s.viewWord .fbk_TMPL [i / 8, i % 8]).toNat))
    | 0x0B =>
      if s.counterCount ≤ i then .fail s indexRange
      else if !s.regionOk 4 (16 * i) then .fail s unavailableC
      else
        let v := s.counterView i
        readOk s r (padTo 32 (natLE 8 (v % 2 ^ 64) ++ natLE 8 (v / 2 ^ 64)))
    | _ =>
      if i < 2 ^ 63 then (if groupCount kind ≤ i then .fail s indexRange else data (groupKey kind i) 0)
      else if poolCount kind ≤ i - 2 ^ 63 then .fail s indexRange
      else data (poolKey kind (i - 2 ^ 63)) (poolNull kind)

/-- A READ of a register, or of a word of the parse graph, with the effects of the batch's earlier operations (R222).
DEDUCED, log entry 38. -/
def State.readReg (s : State) (r : List Byte) : StageOut :=
  let off := opIndex r
  let parse := opKind r = 1
  if !restZero r [(8, 8)] then .fail s badField
  else match findReg off with
    | none => .fail s indexRange
    | some (g, ix) =>
      if (if parse then !isParseReg g else !regUnitRange (opKind r) off) then .fail s indexRange
      else
        readOk s r (padTo 32 (natLE 8 (s.stagedReg g ix &&& g.readable).toNat))

/-- A READ of a TCAM position (R255): the value half, or the mask half. -/
def State.readTcam (s : State) (r : List Byte) : StageOut :=
  let b := opInst r
  match s.tcamUnit b with
  | none => .fail s indexRange
  | some (t, _) =>
    let w := s.tcamWidth t
    let half := opIndex r / 2 ^ 32
    let pos := opIndex r % 2 ^ 32
    if !restZero r [(8, 8)] then .fail s badField
    else if 1 < half ∨ chainEntries w ≤ pos then .fail s indexRange
    else
      let e := s.tcamEnt b pos
      let seg (v : Nat) : List Byte := padTo 20 (natBE (segBytes w) v)
      if half = 1 then readOk s r (padTo 32 (seg e.c))
      else readOk s r (padTo 32 (seg e.v ++ natLE 2 e.p ++ natLE 4 e.d ++ natLE 1 (e.state + if e.killed then 128 else 0)))

/-- A READ of a classifier table (R272). -/
def State.readDtc (s : State) (r : List Byte) : StageOut :=
  if !s.dtcValid (opInst r) then .fail s indexRange
  else if !restZero r [(8, 8)] then .fail s badField
  else match s.dtcRead (opInst r) (opIndex r) with
    | .error c => .fail s c
    | .ok bs => readOk s r bs

/-- A value of `w` bits in two's complement. -/
def twos (w : Nat) (v : Int) : Nat := (v % (2 ^ w : Int)).toNat

/-- A READ of a VOQ's balance (R332) or of a node of the hierarchy (R323). -/
def State.readSched (s : State) (r : List Byte) : StageOut :=
  let i := opIndex r
  if 2 ^ 32 ≤ i then
    let v := i - 2 ^ 32
    if 524288 ≤ v then .fail s indexRange
    else
      let b := (s.q v).balance
      if -(2 ^ 31) ≤ b ∧ b < 2 ^ 31 then readOk s r (List.replicate 16 0 ++ padTo 16 (natLE 4 (twos 32 b)))
      else
        let (f, s) := s.free
        readOk s r (List.replicate 16 0 ++ padTo 16 (natLE 4 f.toNat))
  else
    let lvl := i / 65536
    let n := i % 65536
    if 4 < lvl ∨ levelNodes lvl ≤ n then .fail s indexRange
    else
      let work := s.hasWork (s.portOf lvl n) (4 - lvl) n
      readOk s r (natLE 16 (s.schedView lvl n) ++
        natLE 16 (twos 32 (s.node lvl n).deficit + s.elig lvl n * 2 ^ 32 + if work then 2 ^ 34 else 0))

/-- The record of a policer as an operation finds it: the latest committed or staged one. DEDUCED, log entry 38. -/
def State.polView (s : State) (k : Nat) : Nat :=
  let p := s.pol k
  let now := match p.pend.getLast? with | some e => e.1 | none => p.cfg
  (s.latest fun x => match x with | .policer j c => if j = k then some c else none | _ => none).getD now

/-- A READ of a policer (R343, R348): its record with its counts, its levels, or an exception policer. -/
def State.readPolicer (s : State) (r : List Byte) : StageOut :=
  let i := opIndex r
  let sel := i / 2 ^ 62
  let n := i % 2 ^ 62
  if sel = 2 then
    if 4096 ≤ n then .fail s indexRange
    else
      let p := s.pol (excPol n)
      readOk s r (natLE 16 (s.polView (excPol n)) ++ natLE 4 p.cnt0.toNat ++ natLE 4 p.cnt1.toNat ++ padTo 8 (natLE 6 p.lvl0))
  else if 2 ^ 20 ≤ n ∨ 2 ≤ sel then .fail s indexRange
  else if !s.polOk n then .fail s unavailableC
  else
    let p := s.pol n
    if sel = 1 then readOk s r (natLE 16 (p.lvl0 % 2 ^ 40 + p.lvl1 % 2 ^ 40 * 2 ^ 40 + p.last % 2 ^ 48 * 2 ^ 80) ++
      List.replicate 16 0)
    else readOk s r (natLE 16 (s.polView n) ++ natLE 4 p.cnt0.toNat ++ natLE 4 p.cnt1.toNat ++ padTo 8 (natLE 4 p.cnt2.toNat))

/-- The record of a shaper as an operation finds it. DEDUCED, log entry 38. -/
def State.shaperView (s : State) (n : Nat) : Nat :=
  let x := s.shaper n
  let now := match x.pend with | some (c, _) => c | none => x.cfg
  (s.latest fun x => match x with | .shaper j c => if j = n then some c else none | _ => none).getD now

/-- A gate list's entry, and a control record (R356). -/
def gateEntryBits (e : Nat × Nat) : Nat := e.1 + e.2 * 2 ^ 8
def gateControlBits (g : GateList) : Nat := g.base % 2 ^ 64 + g.cycleTicks * 2 ^ 64 + g.entries.length * 2 ^ 95

/-- A READ of a gate list (R356): administrative values, or the operational ones. -/
def State.readGate (s : State) (r : List Byte) : StageOut :=
  let i := opIndex r
  let oper := bitOf i 62
  let n := i % 2 ^ 62
  if i < 2 ^ 63 then
    if 65536 ≤ n then .fail s indexRange
    else
      let e := if oper then (s.gatePort (n / 256)).oper.entries.getD (n % 256) (0, 0) else s.gateEntryView (n / 256) (n % 256)
      readOk s r (natLE 16 (gateEntryBits e) ++ List.replicate 16 0)
  else if 256 ≤ n then .fail s indexRange
  else
    let x := s.gatePort n
    if oper then readOk s r (natLE 16 (gateControlBits x.oper) ++ padTo 16 (natLE 8 x.operT))
    else
      let c := (s.latest fun y => match y with | .gateCtrl q c => if q = n then some c else none | _ => none).getD x.ctrl
      readOk s r (natLE 16 c ++ List.replicate 16 0)

/-- A READ of a unit of Shoilany. DEDUCED, log entry 38. -/
def State.readTm (s : State) (r : List Byte) : StageOut :=
  let i := opIndex r
  if !restZero r [(8, 8)] then .fail s badField
  else match opKind r with
    | 0x10 =>
      if 589824 ≤ i then .fail s indexRange
      else readOk s r (natLE 16 (s.queueView i) ++ natLE 16 (s.q i).stateBits)
    | 0x11 => s.readSched r
    | 0x12 =>
      if 131071 < i then .fail s indexRange
      else
        let x := s.shaper i
        readOk s r (natLE 16 (s.shaperView i) ++
          natLE 16 (twos 40 x.com + twos 40 x.peak * 2 ^ 40 + if x.pend.isSome then 2 ^ 80 else 0))
    | 0x13 => s.readPolicer r
    | _ => s.readGate r

/-- One READ (R228): what it answers, the state with what reading counts. -/
def State.readOp (s : State) (r : List Byte) : StageOut :=
  let kind := opKind r
  if opIndex r = defaultIndex ∧ (kind = 2 ∨ kind = 3 ∨ (5 ≤ kind ∧ kind ≤ 8)) then s.readDefault r
  else if kind = 2 ∨ kind = 3 ∨ kind = 9 then s.readKeyed r
  else if kind = 4 then s.readTcam r
  else if kind = 5 then s.readDtc r
  else if kind = 1 ∨ kind = 12 ∨ kind = 0x15 then s.readReg r
  else if 0x10 ≤ kind then s.readTm r
  else s.readIndexed r

/-- TXN_READ (R228). -/
def execTxnRead (ue : Bool) (s : State) : Res := go (s.stageRow .read ue State.readOp)

end Sys2Proof.Machine
end

