-- ==== Sys2Proof/Machine/TxnCommit.lean ====
section
/-! DEFINITION. The transaction engine: taking a batch, committing at a sequence point, COMMIT_WAIT, releasing earlier
states, results and completions (chapter 6, R217 to R232; R506, R507, R513). -/

namespace Sys2Proof.Machine

/-! ### Results and completions (R228, R507) -/

/-- A result record. -/
def resultBytes (n : Nat) (o : OpResult) : List Byte :=
  natLE 4 o.tag ++ natLE 1 o.status ++ natLE 1 o.cause ++ natLE 2 o.unit ++ natLE 8 o.seq ++ natLE 8 o.loc ++
    natLE 1 o.flags ++ natLE 1 o.moves ++ natLE 4 n ++ [0, 0] ++ padTo 32 o.read

/-- A completion record. -/
def completionBytes (tag status cause failing : Nat) (l : List OpResult) : List Byte :=
  let count (st : Nat) : Nat := (l.filter fun o => o.status == st).length
  let seqs := (l.filter fun o => o.status == 0).map (·.seq)
  padTo 64 (natLE 4 tag ++ natLE 1 status ++ natLE 1 cause ++ natLE 4 failing ++ [0, 0] ++ natLE 4 (count 0) ++
    natLE 4 (count 2) ++ natLE 4 (count 1) ++ natLE 8 (minSeq (seqs.headD 0) seqs) ++ natLE 8 (seqs.foldl max 0))

/-- Result records from number `n` on are written to the result area. -/
def State.putResults (s : State) (ring addr : Nat) : Nat → List OpResult → State
  | _, [] => s
  | n, o :: l => (s.ringWrite ring (BitVec.ofNat 64 (addr + 64 * n)) (resultBytes n o)).putResults ring addr (n + 1) l

/-- A batch ends: its results are written, then its completion; a batch without a ring of this device reports to no
host. DEDUCED, log entry 39. -/
def State.txnReport (s : State) (b : Batch) (status cause failing : Nat) : State :=
  let s := s.setBatch b
  match b.ring with
  | some r =>
    let s := s.when (status == 1 || status == 2) (·.addSat .pci_TXN_STATUS [] f_pci_TXN_STATUS_aborted 1)
    let s := s.setFld .pci_TXN_STATUS [] f_pci_TXN_STATUS_state 3
    let s := s.when (b.resultAddr != 0 && b.resultAddr % 64 == 0) (·.putResults r b.resultAddr 0 b.results)
    s.txnPost { ring := r, completion := completionBytes b.tag status cause failing b.results }
  | none =>
    let s := s.when (b.boot && b.results.any fun (o : OpResult) => o.status != 0)
      fun s => { s with boot := { s.boot with baseFailed := true } }
    { s with tab := { s.tab with batch := none } }.setFld .pci_TXN_STATUS [] f_pci_TXN_STATUS_state 0

/-- failing_op where no operation is named. -/
def noOp : Nat := 0xFFFFFFFF

/-- The first FAILED operation, with its cause. -/
def firstFailed : Nat → List OpResult → Option (Nat × Nat)
  | _, [] => none
  | n, o :: l => if o.status = 2 then some (n, o.cause) else firstFailed (n + 1) l

/-- The moves of the staged operation `n` of a batch, which stand whatever becomes of it (R197). -/
def Batch.moves (b : Batch) (n : Nat) : Nat := match b.results[n]? with | some o => o.moves | none => 0

/-- Every operation of a batch NOT_APPLIED, with one cause and unit; kicks made by those that staged stand (R197). -/
def Batch.notApplied (b : Batch) (cause unit : Nat) : List OpResult :=
  b.ops.zipIdx.map fun (r, n) => { tag := opTag r, status := 1, cause, unit, loc := resultLoc r, moves := b.moves n }

/-! ### Taking a batch (R217, R218, R506, R507, R513) -/

/-- A forwarded batch whose pair is no longer in step is undone. -/
def State.dropForwarded (s : State) : State :=
  match s.tab.batch with
  | some b =>
    if b.ring.isNone && !b.boot && s.twinState == 0 then
      { s.txnUndo b with tab := { (s.txnUndo b).tab with batch := none } }.setFld .pci_TXN_STATUS [] f_pci_TXN_STATUS_state 0
    else s
  | none => s

/-- The submission ring whose turn it is: the next in rotation that is ON and holds a descriptor (R506). -/
def State.txnRing (s : State) : Option Nat :=
  ((List.range 16).map fun i => (s.tab.ringTurn + i) % 16).find? fun r =>
    s.ringWorks r && s.ringFill r != 0

/-- Whether a submission descriptor keeps to its layout (R513). -/
def descOk (d : List Byte) : Bool :=
  leAt d 0 8 % 64 == 0 && leAt d 8 8 % 64 == 0 && decide (2 ≤ leAt d 16 4) && decide (leAt d 16 4 ≤ 65537) &&
    allZero ((d.drop 20).take 44)

/-- The range of op_count for a header's mode (R218). -/
def countOk (h : List Byte) : Bool :=
  let n := leAt h 8 4
  decide (1 ≤ n) && decide (n ≤ if leAt h 4 1 = 1 then 8192 else 65536)

/-- Whether a batch header keeps to its layout (R218). -/
def headerOk (h : List Byte) : Bool :=
  let mode := leAt h 4 1
  let flags := leAt h 5 1
  decide (mode ≤ 1) && (flags == 0 || (flags == 1 && mode == 0)) && leAt h 6 2 == 0 && countOk h &&
    allZero ((h.drop 12).take 52)

/-- The operations of a rejected batch (R218). -/
def rejectedCount (d h : List Byte) : Nat :=
  let len := leAt d 16 4
  if len < 2 ∨ 65537 < len then 0 else if countOk h ∧ leAt h 8 4 < len - 1 then leAt h 8 4 else len - 1

/-- `n` records of 64 bytes. -/
def chunks64 (bs : List Byte) (n : Nat) : List (List Byte) :=
  (List.range n).map fun i => padTo 64 ((bs.drop (64 * i)).take 64)

/-- A batch is rejected: each of its `n` operations NOT_APPLIED with cause REJECTED; no unit failed, and tags that could
not be read are unknown. DEDUCED, log entry 39. -/
def State.txnReject (s : State) (ring : Nat) (d h : List Byte) (records : Option (List Byte)) (n : Nat) : State :=
  let (u, s) := s.free
  let (t, s) := s.free
  let tags := match records with
    | some bs => (chunks64 bs n).map fun r => (opTag r, resultLoc r)
    | none => List.replicate n (t.toNat, 0)
  let results : List OpResult := tags.map fun (tag, loc) => { tag, status := 1, cause := rejectedC, unit := u.toNat, loc }
  s.txnReport { ring := some ring, resultAddr := leAt d 8 8, tag := leAt h 0 4, atomic := false, stopOnFail := false
                ops := [], results } 2 rejectedC noOp

/-- The engine takes a batch; an in-step source, and one whose partner resynchronises, forwards it (R461). -/
def State.txnAccept (s : State) (ring : Nat) (d h records : List Byte) : State :=
  let n := leAt h 8 4
  let number := if s.forwards then s.tab.nextBatch + 1 else 0
  let s := s.when (number != 0) fun s =>
    { s with tab := { s.tab with nextBatch := number } }.rallyPut 2 0 (w64 number ++
      toWords (padTo 64 h ++ padTo (64 * n) records))
  let s := s.setFld .pci_TXN_STATUS [] f_pci_TXN_STATUS_state 1
  s.setBatch
    { ring := some ring, resultAddr := leAt d 8 8, tag := leAt h 0 4, atomic := leAt h 4 1 == 1
      stopOnFail := leAt h 5 1 == 1, ops := chunks64 records n, stageSince := s.cycle, number }

/-- What the engine does with a descriptor of `ring` that it read. The tag of a header that could not be read is a free
value (R218). DESIGN CHOICE, log entry 4. -/
def State.txnTake (s : State) (ring : Nat) (d : List Byte) (header records : DmaRead) : State :=
  match header with
  | .failed st =>
    let (tag, s) := s.free
    (s.dmaErr ring st).txnReject ring d (padTo 64 (natLE 4 tag.toNat)) none 0
  | .data h =>
    let h := padTo 64 h
    let n := rejectedCount d h
    match records with
    | .failed st => (s.dmaErr ring st).txnReject ring d h none n
    | .data bs =>
      if s.isFollower || !descOk d || !headerOk h || leAt h 8 4 + 1 != leAt d 16 4 then s.txnReject ring d h (some bs) n
      else s.txnAccept ring d h bs

/-- TXN_BATCH_TAKE (R217, R506): a descriptor that cannot be read stops its ring (R498).
DEDUCED, log entry 39; DESIGN CHOICE, log entry 67. -/
def execTxnBatchTake (desc header records : DmaRead) (s : State) : Res :=
  let s := s.dropForwarded
  if s.tab.batch.isSome || s.tab.report.isSome then go s
  else match s.txnRing with
    | none => go s
    | some r =>
      let s := { s with tab := { s.tab with ringTurn := (r + 1) % 16 } }
      match desc with
      | .failed st => go ((s.dmaErr r st).ringStopErr r 2)
      | .data d => go (s.txnTake r (padTo 64 d) header records)

/-- The unit identifier of a place (R219): the default data of a TCAM table is named by the table's first block.
DEDUCED, log entry 39. -/
def State.unitOf (s : State) (k : Nat) : Nat :=
  if placeKind k = 132 then 0x0400 + s.fld .tcm_TBL_CFG [placeInst k] f_tcm_TBL_CFG_first_block
  else placeKind k % 128 * 256 + placeInst k

/-- The unit that still holds an earlier state of an entry a change writes, or a commit of it that waits for the
die-to-die link, so that the change would give it a third state (R226, R227). AGE_TICK writes the register of the age
epoch. -/
def State.holds (s : State) (x : Staged) : Option Nat :=
  let unit (b : Bool) (u : Nat) : Option Nat := if b then some u else none
  let waits (f : Staged → Bool) : Bool := s.tab.held.any fun h => h.changes.any f
  match x with
  | .cell k _ => unit (s.cell k).old.isSome (s.unitOf k)
  | .parse .. => unit s.tab.parseAt.isSome 0x0100
  | .word a _ => unit (SMap.find? s.tab.regOld a).isSome 0x0A00
  | .reg a _ => unit ((SMap.find? s.tab.regOld a).isSome ||
      waits fun y => match y with | .reg b _ => b == a | _ => false) (if a < 0x2000000 then 0x0C00 else 0x1500)
  | .tcam first => unit ((s.tcamList first).any fun e => decide (4 ≤ e.2.state)) (0x0400 + first)
  | .dtc i => unit ((s.dtcPend i).any PendItem.done) (0x0500 + i)
  | .queue q _ => unit ((s.q q).cfgOld.isSome ||
      waits fun y => match y with | .queue k _ => k == q && isVoq q | _ => false) 0x1000
  | .age => unit (!s.tab.epochs.isEmpty) 0x0C00
  | _ => none

/-! ### The commit (R223 to R227) -/

/-- Held commits of Shoilany's units are delivered once the link carries packets again (R227). -/
def State.deliverHeld (s : State) : State :=
  if s.d2dHealth = 2 then s
  else
    let l := s.tab.held
    { s with tab := { s.tab with held := [] } }.each l fun s h =>
      let s := s.applyAll h.seq h.changes
      match h.ts with
      | some t => s.polBoundary h.seq t
      | none => s

/-- The results of the operations committed at `n`, from number `first` on: a READ of a non-atomic batch answers as of
`n`. -/
def State.commitResults (s : State) (b : Batch) (n first : Nat) (held : List Nat) : List OpResult :=
  let l := b.results.drop first
  b.results.take first ++ (List.zip (List.range l.length) l).map fun (j, o) =>
    let flags := if held.contains (first + j) then o.flags ||| 2 else o.flags
    let op := b.ops.getD (first + j) []
    let read := if !b.atomic && opCode op == 5 then (s.readOp op).read else o.read
    { o with seq := n, flags, read }

/-- The batch in hand commits what it has staged at sequence point `n`. DEDUCED, log entry 39. -/
def State.commitAt (s : State) (b : Batch) (n : Nat) : State :=
  let s := s.deliverHeld
  let later (x : Staged) : Bool := x.onTm && s.d2dHealth == 2
  let held := b.staged.filter fun x => later x.2
  let first := if b.atomic then 0 else b.results.length - 1
  let results := s.commitResults b n first (held.map (·.1))
  let ops := (b.ops.take b.results.length).drop first
  let s := s.applyAll n ((b.staged.map (·.2)).filter fun x => !later x)
  let s := s.when (!held.isEmpty) fun s =>
    { s with tab := { s.tab with held := s.tab.held ++ [{ seq := n, changes := held.map (·.2) }] } }
  let s := s.each (ops.filter fun r => opCode r != 5) fun s r =>
    { s with tab := { s.tab with unitSeq := SMap.put 0 s.tab.unitSeq (opUnit r) n } }
  let s := s.wr .pci_TXN_LAST_SEQ [] (BitVec.ofNat 64 n)
  let s := s.addSat .pci_TXN_STATUS [] f_pci_TXN_STATUS_committed 1
  let s := s.setFld .pci_TXN_STATUS [] f_pci_TXN_STATUS_state 1
  s.setBatch { b with results, staged := [], ready := false, waitSince := none }

/-- The unit that makes the batch wait (R226). DESIGN CHOICE, log entry 40. -/
def State.batchWaits (s : State) (b : Batch) : Option Nat := (b.staged.map (·.2)).findSome? s.holds

/-- A batch of which nothing is staged any more and every operation has its result is reported (R224, R225). -/
def State.txnFinish (s : State) : State :=
  match s.tab.batch with
  | some b =>
    if b.ready || !b.staged.isEmpty || b.results.length < b.ops.length then s
    else if b.atomic then s.txnReport b 0 0 noOp
    else match firstFailed 0 b.results with
      | some (n, cause) => s.txnReport b 4 cause n
      | none => s.txnReport b (if b.results.all fun o => o.status == 0 then 3 else 4) 0 noOp
  | none => s

/-- The coordinator commits at the next packet's number; a source sends COMMIT in front of that packet's entry
(R461). DEDUCED, log entry 39. -/
def State.commitNow (s : State) (b : Batch) : State :=
  let n := s.fpc.seqNext
  let first := if b.atomic then 0 else b.results.length - 1
  let s := s.when (b.number != 0 && b.ring.isSome && s.forwards)
    (·.rallyPut 3 0 (w64 b.number ++ [first, b.results.length - first] ++ w64 n))
  (s.commitAt b n).txnFinish

/-- The commit decision, after the commits held for the link (R227): COMMIT_WAIT while an entry holds an earlier state (R226). wait_unit keeps its last value once the
wait has ended. DESIGN CHOICE, log entry 76. -/
def State.commitTry (s : State) (b : Batch) : State :=
  let s := s.deliverHeld
  match s.batchWaits b with
  | some u =>
    let s := s.setFld .pci_TXN_STATUS [] f_pci_TXN_STATUS_state 2
    let s := s.setFld .pci_TXN_STATUS [] f_pci_TXN_STATUS_wait_unit u
    s.setBatch { b with waitSince := some s.cycle }
  | none => s.commitNow b

/-- An atomic batch aborts at the operation that failed (R224): every other one is NOT_APPLIED. -/
def State.txnAbort (s : State) (b : Batch) : State :=
  let n := b.results.length - 1
  match b.results.getLast? with
  | some o =>
    let others := b.notApplied batchAborted o.unit
    let s := s.abortSend b 0 b.ops.length
    s.txnReport { b with results := others.take n ++ [o] ++ others.drop (n + 1) } 1 o.cause n
  | none => s

/-- Whether a source still awaits the follower's STAGED record (R461). -/
def State.awaitsPeer (s : State) (b : Batch) : Bool :=
  b.number != 0 && s.isSource && decide (b.peerStaged < b.results.length)

/-- TXN_COMMIT (R223 to R227): the batch in hand is committed, aborted or reported, where it is ready for that. A batch
that the partner forwarded is decided by its COMMIT records (R462). -/
def execTxnCommit (s : State) : Res :=
  let s := s.dropForwarded
  match s.tab.batch with
  | some b =>
    if s.tab.report.isSome || b.waitSince.isSome || (b.ring.isNone && !b.boot) then go s
    else if b.atomic then
      if b.failed then go (s.txnAbort b)
      else if b.results.length = b.ops.length ∧ !s.awaitsPeer b then go (s.commitTry b)
      else go s
    else if b.ready then go (if s.awaitsPeer b then s else s.commitTry b)
    else go s.txnFinish
  | none => go s

/-- COMMIT_WAIT_END (R226). DESIGN CHOICE, log entry 40. -/
def execCommitWaitEnd (s : State) : Res :=
  match s.tab.batch with
  | some b =>
    let s := s.when (b.waitSince.isSome && (b.ring.isSome || b.boot)) State.deliverHeld
    if b.waitSince.isSome && (b.ring.isSome || b.boot) && (s.batchWaits b).isNone then
      go (s.commitNow { b with waitSince := none })
    else go s
  | none => go s

/-- The engine gives up on the batch, or on its present operation, with cause TIMEOUT (R226). -/
def State.txnTimeout (s : State) (b : Batch) (unit : Nat) : State :=
  if b.atomic then
    let s := s.txnUndo b
    let s := s.abortSend b 0 b.ops.length
    s.txnReport { b with results := b.notApplied timeoutC unit, staged := [], waitSince := none } 1 timeoutC noOp
  else
    let n := if b.ready then b.results.length - 1 else b.results.length
    let r := b.ops.getD n []
    let o : OpResult :=
      { tag := opTag r, status := 2, cause := timeoutC, unit := opUnit r, loc := resultLoc r, moves := b.moves n }
    let rest := if b.stopOnFail then stoppedResults (opUnit r) (b.ops.drop (n + 1)) else []
    let s := s.when b.ready (·.txnUndo b)
    let s := (s.setBatch { b with
      results := b.results.take n ++ [o] ++ rest, staged := [], ready := false, waitSince := none
      stageSince := s.cycle }).abortSend b n 1
    (s.setFld .pci_TXN_STATUS [] f_pci_TXN_STATUS_state 1).txnFinish

/-- TXN_WAIT_TIMEOUT (R226): COMMIT_WAIT, or the wait for a unit that does not answer staging, exceeds wait_limit.
DESIGN CHOICE, log entry 40. -/
def execTxnWaitTimeout (s : State) : Res :=
  match s.tab.batch with
  | some b =>
    let limit := max 1 (s.fld .pci_TXN_CFG [] f_pci_TXN_CFG_wait_limit) * cyclesPerUs
    if b.ring.isNone && !b.boot then go s
    else match b.waitSince with
      | some c => match s.batchWaits b with
        | some u => if s.passed c limit then go (s.txnTimeout b u) else go s
        | none => go s
      | none =>
        if b.failed || b.ready || b.ops.length ≤ b.results.length || !s.passed b.stageSince limit then go s
        else go (s.txnTimeout b (opUnit (b.ops.getD b.results.length [])))
  | none => go s

/-! ### Releasing earlier states (R226, R253, R271) -/

/-- A classifier table's list is released: ADD_PEND slots become LIVE, DEL_PEND slots FREE, old roots go. -/
def State.dtcRelease (s : State) (i : Nat) : State :=
  let l := s.dtcPend i
  (s.each (l.filter PendItem.done) fun s p => match p with
    | .slot line k add _ => s.putNode i line k (if add then slotWord 1 (s.leafRule i line k) else 0)
    | .root .. => s).setPend i (l.filter fun p => !p.done)

/-- Earlier states of Pyrlys units that no packet numbered below them can reach are released, `f` being the lowest
number still on its way. -/
def State.releaseFe (s : State) (f : Nat) : State :=
  let cells := s.tab.cells.filterMap fun (e : Nat × Cell) =>
    if e.2.old.isSome ∧ e.2.seq ≤ f then
      (if e.2.cur.isSome then some (e.1, ({ cur := e.2.cur } : Cell)) else none)
    else some e
  let parseGone := match s.tab.parseAt with | some n => decide (n ≤ f) | none => false
  let s := { s with
    tab := { s.tab with
      cells
      epochs := s.tab.epochs.filter fun e => decide (f < e.1)
      regOld := s.tab.regOld.filter fun (e : Nat × Nat × Word) => decide (0x2000000 ≤ e.1) || decide (f < e.2.1)
      parseAt := if parseGone then none else s.tab.parseAt }
    fpc := { s.fpc with otherBank := if parseGone then [] else s.fpc.otherBank } }
  let s := s.each (List.range 64) fun s b =>
    if (s.rd .tcm_BLK_SEQ [b]).toNat ≤ f ∧ (s.tcamList b).any fun e => decide (4 ≤ e.2.state) then
      s.tcamStates b fun st => match st with | 4 => 2 | 5 => 0 | k => k
    else s
  s.each (List.range 64) fun s i =>
    if s.dtcSeq i ≤ f ∧ (s.dtcPend i).any PendItem.done then s.dtcRelease i else s

/-- The same for Shoilany's units. -/
def State.releaseTm (s : State) (f : Nat) : State :=
  let keep (e : Nat × Nat × Word) : Bool := decide (e.1 < 0x2000000) || decide (f < e.2.1)
  let one (e : Nat × Queue) : Option (Nat × Queue) :=
    match e.2.cfgOld with
    | some (n, _) =>
      if n ≤ f then
        let x := { e.2 with cfgOld := none }
        if x = {} then none else some (e.1, x)
      else some e
    | none => some e
  { s with
    tab := { s.tab with regOld := s.tab.regOld.filter keep }
    tm := { s.tm with queues := s.tm.queues.filterMap one } }

/-- The unit shown as holding the batch in COMMIT_WAIT is the one that holds it now (R234); after the wait the field keeps
the last one. DESIGN CHOICE, log entry 76. -/
def State.waitShow (s : State) : State :=
  match s.tab.batch with
  | some b => match s.fld .pci_TXN_STATUS [] f_pci_TXN_STATUS_state, s.batchWaits b with
    | 2, some u => s.setFld .pci_TXN_STATUS [] f_pci_TXN_STATUS_wait_unit u
    | _, _ => s
  | none => s

/-- ENTRY_STATE_RELEASE (R226). DESIGN CHOICE, log entry 40. -/
def execEntryStateRelease (s : State) : Res := go ((s.releaseFe s.feFloor).releaseTm s.tmFloor).waitShow

/-- HELD_COMMIT_DELIVER (R227). DESIGN CHOICE, log entry 40. -/
def execHeldCommitDeliver (s : State) : Res := go s.deliverHeld

/-! ### Age walks (R199) -/

/-- AGE_WALK_STEP (R199, R204): the walk of table `i` reaches its next entry; one old enough gives an AGED record, which
a source forwards and which a follower posts only as it receives it (R458). -/
def execAgeWalkStep (i : Fin 64) (s : State) : Res :=
  match SMap.get [] s.tab.ageWalk i with
  | [] => go s
  | k :: rest =>
    let s := { s with tab := { s.tab with ageWalk := SMap.put [] s.tab.ageWalk i rest } }
    match s.entryNow k with
    | some e =>
      let age := (s.fld .exm_AGE_EPOCH [] f_exm_AGE_EPOCH_epoch + 2 ^ 32 - e.stamp) % 2 ^ 32
      if age < s.fld .exm_TBL_CFG [i.val] f_exm_TBL_CFG_age_limit ∨ s.isFollower then go s
      else
        let bytes := evictBytes k e 2 0 0
        go ((s.evictPost i bytes).when s.isSource (·.rallyPut 5 1 (toWords bytes)))
    | none => go s

end Sys2Proof.Machine
end

