-- ==== Sys2Proof/Machine/Playbook.lean ====
section
/-! DEFINITION. What makes a playbook fail at start-up beside its signature: the rules that the registers it loads and
the base tables it gives must keep (R157, R186, R187, R192, R196, R201, R246, R261, R266, R275, R276, R324, R361, R371,
R408, R410, R411). -/

namespace Sys2Proof.Machine

/-- The registers a playbook loads, as a machine just reset that holds nothing else. -/
def playbookRegs (pb : PlaybookInfo) : State :=
  pb.regs.foldl (fun t (e : BitVec 28 × Word) => match findReg e.1.toNat with
    | some (r, ix) => t.wr r ix (e.2 &&& r.writableAt ix)
    | none => t) State.reset

/-- Whether two ranges share an element. -/
def overlaps (a b : Nat × Nat) : Bool := decide (a.1 < b.1 + b.2) && decide (b.1 < a.1 + a.2)

/-- Whether two ranges of a list share an element. -/
def anyOverlap : List (Nat × Nat) → Bool
  | [] => false
  | a :: l => l.any (overlaps a) || anyOverlap l

/-- The valid directory entries of a kind: instance and key length (R186). -/
def State.dirEntries (t : State) (kind : Nat) : List (Nat × Nat) :=
  (List.range 256).filterMap fun i =>
    if t.flag .rau_TBL_DIR [i] f_rau_TBL_DIR_valid && t.fld .rau_TBL_DIR [i] f_rau_TBL_DIR_kind == kind then
      some (t.fld .rau_TBL_DIR [i] f_rau_TBL_DIR_inst, t.fld .rau_TBL_DIR [i] f_rau_TBL_DIR_key_len_m1 + 1)
    else none

/-- A key length that a kind may have (R186, R187); those of TCAM tables follow their width (R246), and those of
classifier tables are checked for valid tables only (R266). -/
def kindKeyOk (kind len : Nat) : Bool :=
  match kind with
  | 1 => len == 6 || len == 18
  | 2 => decide (len ≤ 16)
  | 3 => true
  | 4 => true
  | 5 => len == 3
  | 6 | 7 => len == 2
  | _ => false

/-- The table directory breaks R186 or R187. -/
def State.badDirectory (t : State) : Bool :=
  ((List.range 16).any fun kind => (t.dirEntries kind).any fun e => !kindKeyOk kind e.2) ||
    ((List.range 64).any fun i => t.flag .exm_TBL_CFG [i] f_exm_TBL_CFG_valid &&
      (match (t.dirEntries 2).filter fun e => e.1 == i with
       | [] => true
       | e :: l => l.any fun x => x.2 != e.2))

/-- A plan of the playbook is one that a transaction could not stage (R157). -/
def State.badPlans (t : State) : Bool :=
  t.regs.any fun e => match findReg e.1 with
    | some (.rau_PLAN, _) => t.badParseWord .rau_PLAN e.2
    | _ => false

/-- The sum of a slice quota over valid slices. -/
def State.quotas (t : State) (f : Fld) : Nat :=
  ((List.range 64).map fun i =>
    if t.flag .lpm_SLICE_CFG [i] f_lpm_SLICE_CFG_valid then t.fld .lpm_SLICE_CFG [i] f else 0).foldl (· + ·) 0

/-- The slices' quotas break R192. -/
def State.badSlices (t : State) : Bool :=
  decide (1024 < t.quotas f_lpm_SLICE_CFG_ondie_quota) || decide (4096 < t.quotas f_lpm_SLICE_CFG_hbm_quota)

/-- Valid exact-match tables. -/
def State.exmTables (t : State) : List Nat := (List.range 64).filter fun i => t.flag .exm_TBL_CFG [i] f_exm_TBL_CFG_valid

/-- The regions of the valid exact-match tables in one memory: base and bucket count (R201). -/
def State.exmRegions (t : State) (base log2 : Fld) : List (Nat × Nat) :=
  (t.exmTables.filter fun i => t.fld .exm_TBL_GEOM [i] log2 != 31).map fun i =>
    (t.fld .exm_TBL_GEOM [i] base, 2 ^ t.fld .exm_TBL_GEOM [i] log2)
def State.exmDie (t : State) : List (Nat × Nat) := t.exmRegions f_exm_TBL_GEOM_ondie_base f_exm_TBL_GEOM_ondie_log2
def State.exmHbm (t : State) : List (Nat × Nat) := t.exmRegions f_exm_TBL_GEOM_hbm_base f_exm_TBL_GEOM_hbm_log2

/-- The exact-match geometry breaks R201, or a table without stamps would evict the oldest (R196). -/
def State.badExm (t : State) : Bool :=
  anyOverlap t.exmDie || anyOverlap t.exmHbm ||
    t.exmDie.any (fun r => decide (524288 < r.1 + r.2)) || t.exmHbm.any (fun r => decide (8388608 < r.1 + r.2)) ||
    t.exmTables.any fun i =>
      let d := t.fld .exm_TBL_GEOM [i] f_exm_TBL_GEOM_ondie_log2
      let h := t.fld .exm_TBL_GEOM [i] f_exm_TBL_GEOM_hbm_log2
      (d == 31 && h == 31) || (d != 31 && decide (19 < d)) || (h != 31 && decide (23 < h)) ||
        (t.fld .exm_TBL_CFG [i] f_exm_TBL_CFG_evict_mode == 2 && !t.flag .exm_TBL_CFG [i] f_exm_TBL_CFG_stamps)

/-- Valid TCAM tables. -/
def State.tcmTables (t : State) : List Nat := (List.range 16).filter fun i => t.flag .tcm_TBL_CFG [i] f_tcm_TBL_CFG_valid

/-- The TCAM carving breaks R246 or R261. -/
def State.badTcam (t : State) : Bool :=
  anyOverlap (t.tcmTables.map fun i =>
      (t.fld .tcm_TBL_CFG [i] f_tcm_TBL_CFG_first_block, t.fld .tcm_TBL_CFG [i] f_tcm_TBL_CFG_block_count)) ||
    t.tcmTables.any fun i =>
      let first := t.fld .tcm_TBL_CFG [i] f_tcm_TBL_CFG_first_block
      let n := t.fld .tcm_TBL_CFG [i] f_tcm_TBL_CFG_block_count
      let width := t.fld .tcm_TBL_CFG [i] f_tcm_TBL_CFG_width
      let chain := chainLen width
      n == 0 || decide (64 < first + n) || first % chain != 0 || n % chain != 0 ||
        ((t.dirEntries 3).any fun e => e.1 == i && e.2 != 10 * 2 ^ width)

/-- Valid classifier tables. -/
def State.dtcTables (t : State) : List Nat := (List.range 64).filter fun i => t.flag .dtc_TBL_CFG [i] f_dtc_TBL_CFG_valid
def State.dtcTrees (t : State) : List (Nat × Nat) := t.dtcTables.map fun i =>
  (t.fld .dtc_TBL_CFG [i] f_dtc_TBL_CFG_first_tree, t.fld .dtc_TBL_CFG [i] f_dtc_TBL_CFG_tree_count)
def State.dtcNodes (t : State) : List (Nat × Nat) := t.dtcTables.map fun i =>
  (t.fld .dtc_TBL_NODES [i] f_dtc_TBL_NODES_node_base, 2 ^ t.fld .dtc_TBL_NODES [i] f_dtc_TBL_NODES_node_log2)
def State.dtcBodies (t : State) : List (Nat × Nat) := t.dtcTables.map fun i =>
  (t.fld .dtc_TBL_CFG [i] f_dtc_TBL_CFG_rule_base, 2 ^ t.fld .dtc_TBL_CFG [i] f_dtc_TBL_CFG_rule_log2)

/-- The classifier carving breaks R266, R275 or R276. -/
def State.badDtc (t : State) : Bool :=
  t.dtcTables.any (fun i => (t.dirEntries 4).any fun e => e.1 == i && decide (48 < e.2)) ||
  anyOverlap t.dtcTrees || anyOverlap t.dtcNodes || anyOverlap t.dtcBodies ||
    t.dtcTrees.any (fun r => r.2 == 0 || decide (64 < r.2) || decide (1024 < r.1 + r.2)) ||
    t.dtcNodes.any (fun r => decide (16777216 < r.1 + r.2)) || t.dtcBodies.any (fun r => decide (1048576 < r.1 + r.2))

/-- The port map breaks R361 or R371. -/
def State.badPorts (t : State) : Bool :=
  let mode (m : Nat) : Nat := t.fld .lmac_PORT_CFG [m] f_lmac_PORT_CFG_mode
  (List.range 256).any fun m =>
    mode m != 0 && (decide (5 < mode m) || m % modeLanes (mode m) != 0 ||
      (List.range (modeLanes (mode m) - 1)).any fun j => mode (m + 1 + j) != 0)

/-- A mapping mask breaks R408. -/
def badMask (i m : Nat) : Bool := bitsOf m 11 4 != 2 ^ i || bitsOf m 28 2 != 0

/-- A region of stacks 4-5: base and size in bytes (R434). -/
def State.regionOf (t : State) (r : Nat) : Nat × Nat :=
  (t.fld .fe_hmc_REGION [r] f_fe_hmc_REGION_base * 2 ^ 26, t.fld .fe_hmc_REGION [r] f_fe_hmc_REGION_size * 2 ^ 26)

/-- The end of the last range of a list. -/
def lastEnd (l : List (Nat × Nat)) : Nat := l.foldl (fun a r => max a (r.1 + r.2)) 0

/-- The HBM layout breaks R408, R410 or R411. -/
def State.badHbm (t : State) : Bool :=
  let regions := (List.range 8).map t.regionOf
  let size (r : Nat) : Nat := (t.regionOf r).2
  let spill := t.fld .tm_hmc_CARVE [] f_tm_hmc_CARVE_spill_blocks * 4224 +
    (if t.flag .tm_hmc_CARVE [] f_tm_hmc_CARVE_pol_en then 524288 else 0)
  ((List.range 4).any fun i => badMask i (t.fld .fe_hmc_MAP_MASK [i] f_fe_hmc_MAP_MASK_mask) ||
      badMask i (t.fld .tm_hmc_MAP_MASK [i] f_tm_hmc_MAP_MASK_mask)) ||
    anyOverlap (regions.filter fun r => r.2 != 0) || decide (48 * 2 ^ 30 < lastEnd (regions.filter fun r => r.2 != 0)) ||
    size 5 != 8 * 2 ^ 30 || size 6 != 512 * 2 ^ 20 ||
    decide (size 0 < t.quotas f_lpm_SLICE_CFG_hbm_quota * 4096 * 32) || decide (size 1 < lastEnd t.exmHbm * 256) ||
    decide (size 2 < lastEnd t.dtcNodes * 64) || decide (size 3 < lastEnd t.dtcBodies * 128) ||
    decide (805306368 < spill)

/-- The egress nodes a playbook's base tables write: key and record, the last record of each. -/
def baseNodes (pb : PlaybookInfo) : SMap Nat :=
  pb.baseOps.foldl (fun m r =>
    if opKind r = 0x11 ∧ opCode r = 4 then SMap.insert m (opIndex r) (opData r) else m) []

/-- The hierarchy breaks R324: an enabled node's parent is disabled, or a shaper is shared. -/
def badHierarchy (pb : PlaybookInfo) : Bool :=
  let nodes := baseNodes pb
  let shapers := (nodes.map fun e => ndShaper e.2).filter (· != 0x3FFFF)
  shapers.eraseDups.length != shapers.length ||
    nodes.any fun e => decide (65536 ≤ e.1) && ndEnable e.2 &&
      !ndEnable (SMap.get 0 nodes (nodeKey (e.1 / 65536 - 1) (ndParent e.2)))

/-- A playbook breaks a rule that fails at start-up (R525). DESIGN CHOICE, log entry 9. -/
def playbookBroken (pb : PlaybookInfo) : Bool :=
  let t := playbookRegs pb
  t.badDirectory || t.badPlans || t.badSlices || t.badExm || t.badTcam || t.badDtc || t.badPorts ||
    t.badHbm || badHierarchy pb

end Sys2Proof.Machine
end

