-- ==== Sys2Proof/Machine/TxnAudit.lean ====
section
/-! DEFINITION. The shadow audit (chapter 6, R236 to R243) and the TCAM scrub (chapter 7, R260). -/

namespace Sys2Proof.Machine

/-! ### The TCAM scrub (R260) -/

/-- The positions of a row of a block (R245). -/
def State.rowPositions (s : State) (b row : Nat) : List Nat :=
  match s.tcamTableOf b with
  | some t => if s.tcamWidth t = 0 then [2 * row, 2 * row + 1] else [row]
  | none => [row]

/-- A bit of a block's row turned over: in a split block the even position lies in the upper half of the row, bits
159 to 80, and the odd one in the lower (R245, R260). The shadow keeps the parity of what was written. DEDUCED, log entry 36. -/
def State.tcamFlip (s : State) (row : Nat) (x : TcamFlip) : State :=
  let ps := s.rowPositions x.block row
  let n := 160 / ps.length
  let pos := ps.getD (ps.length - 1 - x.bit / n) 0
  let e := s.tcamEnt x.block pos
  let m := 2 ^ (x.bit.val % n)
  s.tcamPut x.block pos (if x.care then { e with c := e.c ^^^ m } else { e with v := e.v ^^^ m })

/-- Whether a row's parity differs from the shadow (R260); a killed row has been dealt with. DEDUCED, log entry 36. -/
def State.rowBad (s : State) (b row : Nat) : Bool :=
  (s.rowPositions b row).any fun p => let e := s.tcamEnt b p; !e.killed && e.parityNow != e.parity

/-- A row is killed: no key matches a position of it, one that is FREE now included. DEDUCED, log entry 36. -/
def State.tcamKill (s : State) (b row : Nat) : State :=
  s.each (s.rowPositions b row) fun s p => s.tcamPut b p { s.tcamEnt b p with killed := true }

/-- A row's parity differs from the shadow: it is killed, counted and reported, and a row killed for the second time
since the start is entered in the lifetime record for the next start. DEDUCED, log entry 36. -/
def State.tcamKillRow (s : State) (b row : Nat) : State :=
  let key := b * 2048 + row
  let n := SMap.get 0 s.cls.rowKills key + 1
  let loc := locWord 2 2 0 0x3F 4 b 0 row 0xFF
  let s := s.tcamKill b row
  let s := s.addSat .tcm_BLK_STATUS [b] f_tcm_BLK_STATUS_kills 1
  let s := s.setFld .tcm_SCRUB_STATUS [] f_tcm_SCRUB_STATUS_last_block b
  let s := s.setFld .tcm_SCRUB_STATUS [] f_tcm_SCRUB_STATUS_last_row row
  let s := { s with cls := { s.cls with rowKills := SMap.put 0 s.cls.rowKills key n } }
  let s := s.when (n == 2) (·.noteRepair loc)
  (s.reportUe loc 0).stepEnd 7

/-- TCAM_SCRUB (R260, R264): one row of every block is read each interval and its parity compared with the shadow; `flips`
are the bits of those rows that soft errors have turned over. DEDUCED, log entry 36. -/
def execTcamScrub (flips : List TcamFlip) (s : State) : Res :=
  let t := max 1 (s.fld .tcm_SCRUB_CFG [] f_tcm_SCRUB_CFG_interval)
  if !s.flag .tcm_SCRUB_CFG [] f_tcm_SCRUB_CFG_enable || !s.passed s.cls.scrubAt (t * cyclesPerUs) then go s
  else
    let row := s.cls.scrubRow
    let s := s.each (List.range 16) fun s g => s.countEvents (79 + g) 6 4
    let s := s.each flips fun s x => s.tcamFlip row x
    let s := s.each ((List.range 64).filter fun b => s.rowBad b row) fun s b => s.tcamKillRow b row
    let s := { s with cls := { s.cls with scrubAt := s.cycle, scrubRow := (row + 1) % 2048 } }
    go (s.when (row == 2047) (·.addSat .tcm_SCRUB_STATUS [] f_tcm_SCRUB_STATUS_passes 1))

/-! ### The shadow audit -/

/-- Progress of audit `a`: 0 the next record, 1 used records compared in the pass, 2 the unit's S at its begin, 3 the
cycle of the latest step. -/
def State.auditAt (s : State) (a i : Nat) : Nat := SMap.get 0 s.tab.audit (a * 4 + i)
def State.setAudit (s : State) (a i v : Nat) : State :=
  { s with tab := { s.tab with audit := SMap.put 0 s.tab.audit (a * 4 + i) v } }

/-- What comparing a record finds: it agrees, its key is absent, or its data differs; and the table address of the
entry where it lies in HBM. -/
inductive AuditFind
  | same | absent | differs (hbm : Option Nat)
  deriving DecidableEq, Repr

/-- A keyed record against its unit. -/
def State.auditKeyed (s : State) (place : Except Nat Nat) (data : Nat) (hbm : TEntry → Option Nat) : AuditFind :=
  match place with
  | .error _ => .absent
  | .ok k => match s.entryNow k with
    | none => .absent
    | some e => if e.data = data then .same else .differs (hbm e)

/-- The register that a record of the parse graph or of a template names. -/
def auditReg (kind i : Nat) : Option (Reg × List Nat) :=
  if kind = 1 then findReg i else if i < 8192 then some (.fbk_TMPL, [i / 8, i % 8]) else none

/-- A place of an indexed table with what it reads before it is written. -/
def indexedPlace (kind i : Nat) : Nat × Nat :=
  if kind = 6 then (nhopKey i, 0)
  else if i < 2 ^ 63 then (groupKey kind i, 0)
  else (poolKey kind (i - 2 ^ 63), poolNull kind)

/-- One used record against the unit (R236, R237): a keyed record by its key, an indexed one at its index.
DEDUCED, log entry 41. -/
def State.auditCompare (s : State) (r : List Byte) : AuditFind :=
  let diff (same : Bool) : AuditFind := if same then .same else .differs none
  match opKind r with
  | 2 => s.auditKeyed (s.routeOf r true) (leAt r 32 4) fun e => s.entryTable 2 e.loc
  | 3 => s.auditKeyed (s.exmPlace r true) (opData r) fun e => s.entryTable 3 e.loc
  | 4 => match s.tcamUnit (opInst r) with
    | some (t, first) =>
      let w := s.tcamWidth t
      let e := s.tcamEnt (opInst r) (opIndex r)
      let head := opInst r != first || (e.p == tcamP r && e.d == tcamD r)
      diff (e.set && !e.killed && e.c == tcamC w r && e.v == (tcamV w r &&& tcamC w r) && head)
    | none => .differs none
  | 6 | 7 | 8 =>
    let (k, d) := indexedPlace (opKind r) (opIndex r)
    diff ((match s.entryNow k with | some e => e.data | none => d) == opData r)
  | 1 | 0x0A => match auditReg (opKind r) (opIndex r) with
    | some (g, ix) => diff ((s.rd g ix).toNat == leAt r 32 8)
    | none => .differs none
  | _ => .differs none

/-- The write of an entry in HBM by a repair is a request of class SC3 (R412). -/
def State.repairWrite (s : State) (k : Nat) (v : TEntry) : State :=
  match s.entryTable (k / 2 ^ 200) v.loc with
  | some t => s.tableAccess 3 t true
  | none => s

/-- An entry written by a repair, which is no transaction and takes no sequence number (R239). -/
def State.repairCell (s : State) (k : Nat) (v : TEntry) : State :=
  let old := s.entryNow k
  let s := s.putCell k { s.cell k with cur := some v }
  let s := s.countEntry k old (some v)
  (s.when (inBuckets k) (·.setWay v.loc (k + 1))).repairWrite k v

/-- A keyed entry inserted by a repair, without eviction (R239), a route in HBM where its quota on die is full (R189); none where it cannot be placed.
DEDUCED, log entry 41. -/
def State.repairInsert (s : State) (r : List Byte) (k : Nat) : Option State :=
  let (id, s) := s.newId
  if opKind r = 2 then
    let slice := opInst r
    let u := routeUnits (routeFamily k)
    let room (used quota : Fld) : Bool := decide
      (s.fld .lpm_SLICE_STATUS [slice] used + u ≤ s.fld .lpm_SLICE_CFG [slice] quota * 4096)
    if room f_lpm_SLICE_STATUS_ondie_used f_lpm_SLICE_CFG_ondie_quota then
      some (s.repairCell k { data := leAt r 32 4, id })
    else if room f_lpm_SLICE_STATUS_hbm_used f_lpm_SLICE_CFG_hbm_quota then
      let (v, s) := s.free
      let e : TEntry := { data := leAt r 32 4, id, loc := 1 + v.toNat % max 1 (s.regionSize 0 / 32) }
      if s.routeOk e then some (s.repairCell k e) else none
    else none
  else
    let p := s.place k false
    match p.loc with
    | some loc =>
      let owner := if bitOf (opFlags r) 0 then leAt r 52 2 + 1 else 0
      some (p.s.repairCell k { data := opData r, id, owner, loc, stamp := s.fld .exm_AGE_EPOCH [] f_exm_AGE_EPOCH_epoch })
    | none => none

/-- A mismatch is repaired from its record (R239); none where the repair cannot complete, as where its entry lies on a
frozen channel (R427). DEDUCED, log entry 41. -/
def State.auditRepair (s : State) (r : List Byte) : Option State :=
  let keyed (place : Except Nat Nat) (data : Nat) : Option State :=
    match place with
    | .ok k => match s.entryNow k with
      | some e =>
        let live := if opKind r = 2 then s.routeOk e else s.bucketLive (e.loc / 4)
        if live then some ((s.putCell k { s.cell k with cur := some { e with data } }).repairWrite k e) else none
      | none => s.repairInsert r k
    | .error _ => none
  match opKind r with
  | 2 => keyed (s.routeOf r true) (leAt r 32 4)
  | 3 => keyed (s.exmPlace r true) (opData r)
  | 4 => match s.tcamUnit (opInst r) with
    | some (t, first) =>
      let w := s.tcamWidth t
      let e := s.tcamEnt (opInst r) (opIndex r)
      let e := { e with v := tcamV w r &&& tcamC w r, c := tcamC w r, set := true, killed := false }
      let e := if opInst r = first then
          { e with p := tcamP r, d := tcamD r, state := if e.state = 0 then 2 else e.state }
        else e
      some ((s.tcamPut (opInst r) (opIndex r) e.written).tcamShow first)
    | none => none
  | 6 | 7 | 8 =>
    let k := (indexedPlace (opKind r) (opIndex r)).1
    some (s.putCell k { s.cell k with cur := dataEntry (opData r) })
  | 1 | 0x0A => (auditReg (opKind r) (opIndex r)).map fun g => s.wr g.1 g.2 (BitVec.ofNat 64 (leAt r 32 8))
  | _ => none

/-- The location word of a mismatch (R22, R238): none of ABSENT and EXTRA, the controller of an entry in HBM, the block
and row of a TCAM entry, and that of its unit otherwise. DEDUCED, log entry 41. -/
def State.auditLoc (s : State) (kind : Nat) (r : List Byte) (hbm : Option Nat) : Word × State :=
  if kind ≠ 2 then (locTile 2 2 0 0x3F 0 0x3FF, s)
  else match hbm with
    | some t => (locTile 2 2 0 0x3F 5 (128 + feController t), s)
    | none =>
      if opKind r = 4 then
        let w := match s.tcamTableOf (opInst r) with | some t => s.tcamWidth t | none => 0
        (locWord 2 2 0 0x3F 4 (opInst r) 0 (tcamRow w (opIndex r)) 0xFF, s)
      else s.unitLoc r

/-- A mismatch is reported (R238). DEDUCED, log entry 41. -/
def State.auditReport (s : State) (a kind record : Nat) (r : List Byte) (hbm : Option Nat) : State :=
  let unit := s.fld .gkp_AUDIT_CFG [a] f_gkp_AUDIT_CFG_unit
  let (loc, s) := s.auditLoc kind r hbm
  let addr := match hbm with
    | some t => BitVec.ofNat 64 ((128 + feController t) * 2 ^ 30 + feLocal t)
    | none => 0
  let s := s.addSat .gkp_AUDIT_STATUS [a] f_gkp_AUDIT_STATUS_mismatches 1
  let s := s.wr .gkp_AUDIT_LAST [a] (BitVec.ofNat 64 record)
  s.postEventAt 0x013 loc addr (natLE 1 a ++ natLE 1 kind ++ natLE 2 unit ++ natLE 8 record)

/-- One record of a step. -/
def State.auditOne (s : State) (a record : Nat) (r : List Byte) : State :=
  let mend (s : State) : State :=
    if s.flag .gkp_AUDIT_CFG [a] f_gkp_AUDIT_CFG_repair then
      match s.auditRepair r with
      | some t => (t.addSat .gkp_AUDIT_STATUS [a] f_gkp_AUDIT_STATUS_repairs 1).stepEnd 8
      | none => s
    else s
  match s.auditCompare r with
  | .same => s
  | .absent => mend (s.auditReport a 1 record r none)
  | .differs h => mend (s.auditReport a 2 record r h)

/-- Records of a step in turn, until the pass has compared as many used ones as the shadow holds.
DEDUCED, log entry 41. -/
def State.auditRecords (s : State) (a used : Nat) : List (List Byte) → State
  | [] => s
  | r :: rest =>
    let n := s.auditAt a 0
    if used ≤ s.auditAt a 1 then s
    else
      let s := s.setAudit a 0 (n + 1)
      if opCode r = 0 then s.auditRecords a used rest
      else ((s.setAudit a 1 (s.auditAt a 1 + 1)).auditOne a n r).auditRecords a used rest

/-- The end of a pass (R237): the EXM entry count against the used records, where the unit did not change.
DEDUCED, log entry 41. -/
def State.auditPassEnd (s : State) (a used seq : Nat) : State :=
  let unit := s.fld .gkp_AUDIT_CFG [a] f_gkp_AUDIT_CFG_unit
  let extra := unit / 256 == 3 && s.auditAt a 2 == seq &&
    decide (used < s.fld .exm_TBL_STATUS [unit % 64] f_exm_TBL_STATUS_entries)
  let s := s.when extra fun s => let (f, s) := s.free; s.auditReport a 3 f.toNat [] none
  let s := s.addSat .gkp_AUDIT_STATUS [a] f_gkp_AUDIT_STATUS_passes 1
  (s.setAudit a 0 0).setAudit a 1 0

/-- A shadow read failed at PCI Express (R22, R237, R498): its reports name the register block of the audit's status.
DEDUCED, log entries 11, 41. -/
def State.auditReadErr (s : State) (a : Nat) (status : BitVec 8) : State :=
  let s := s.addSat .gkp_AUDIT_STATUS [a] f_gkp_AUDIT_STATUS_skipped 1
  let (loc, addr) := accessLoc (some (Reg.addr .gkp_AUDIT_STATUS [a]))
  let s := s.emit (.aer (.pf 0) status.toNat)
  let s := s.postEventAt 0x00A loc addr (natLE 2 0xFFFF ++ natLE 1 status.toNat)
  s.postEventAt 0x014 loc addr (natLE 1 a)

/-- A step whose reads succeeded: `h` and `h2` are the shadow header read before and after. DEDUCED, log entry 41. -/
def State.auditStep (s : State) (a : Nat) (h bs h2 : List Byte) : State :=
  let unit := s.fld .gkp_AUDIT_CFG [a] f_gkp_AUDIT_CFG_unit
  let seq := SMap.get 0 s.tab.unitSeq unit
  if leAt h 0 8 ≠ seq ∨ leAt h2 0 8 ≠ seq then s.addSat .gkp_AUDIT_STATUS [a] f_gkp_AUDIT_STATUS_skipped 1
  else
    let used := leAt h 8 8
    let n := max 1 (s.fld .gkp_AUDIT_CFG [a] f_gkp_AUDIT_CFG_step_entries)
    let s := s.when (s.auditAt a 0 == 0) (·.setAudit a 2 seq)
    let s := s.auditRecords a used (chunks64 bs (min n (bs.length / 64)))
    s.when (decide (used ≤ s.auditAt a 1)) (·.auditPassEnd a used seq)

/-- AUDIT_STEP (R237 to R240): `header` and `again` are what the two reads of the shadow's header return, and `records`
the next step_entries records. DESIGN CHOICE, log entry 67. -/
def execAuditStep (a : Fin 64) (header records again : DmaRead) (s : State) : Res :=
  let t := max 1 (s.fld .gkp_AUDIT_CFG [a.val] f_gkp_AUDIT_CFG_interval)
  if !s.flag .gkp_AUDIT_CFG [a.val] f_gkp_AUDIT_CFG_enable || !s.boot.mgmtUp ||
      !s.passed (s.auditAt a 3) (t * 1000 * cyclesPerUs) then go s
  else
    let s := s.setAudit a 3 s.cycle
    match header, records, again with
    | .data h, .data bs, .data h2 => go (s.auditStep a h bs h2)
    | .failed st, _, _ => go (s.auditReadErr a st)
    | _, .failed st, _ => go (s.auditReadErr a st)
    | _, _, .failed st => go (s.auditReadErr a st)

end Sys2Proof.Machine
end

