-- ==== Sys2Proof/Machine/TwinCopy.lean ====
section
/-! DEFINITION. The copy that brings a device's committed state to its partner before the join (R466, R467): each
entry in its unit's READ result layout in bytes 32-63, with what that layout leaves out in bytes 0-31. -/

namespace Sys2Proof.Machine

/-- Registers the copy holds: those REG_WRITE may change, those changed only through transactions, and the age
epoch. -/
def copiedReg (r : Reg) (ix : List Nat) : Bool :=
  r == .exm_TBL_CFG || r == .exm_AGE_EPOCH || r.row.sealing == .txnOnly ||
    (r.row.sealing == .tunable && decide (0x1000000 ≤ r.addr ix))

/-! ### What there is to copy -/

/-- Neighbouring equal elements of a sorted list once. -/
def dedup : List Nat → List Nat
  | a :: b :: l => if a = b then dedup (b :: l) else a :: dedup (b :: l)
  | l => l

/-- Halves of node lines and quarters of rules that hold something in classifier table `i`. -/
def State.copyNodes (s : State) (i : Nat) : List CopyItem :=
  let base := s.fld .dtc_TBL_NODES [i] f_dtc_TBL_NODES_node_base
  (dedup (s.cls.nodes.map fun (e : Nat × Word) => e.1 / 4)).filterMap fun h =>
    if base ≤ h / 2 ∧ h / 2 < base + s.dtcLines i then some (.node i (h / 2 - base) (h % 2)) else none
def State.copyRules (s : State) (i : Nat) : List CopyItem :=
  let base := s.fld .dtc_TBL_CFG [i] f_dtc_TBL_CFG_rule_base
  (dedup (s.cls.rules.map fun e => e.1 / 32)).filterMap fun h =>
    if base ≤ h / 4 ∧ h / 4 < base + s.dtcRules i then some (.rule i (h / 4 - base) (h % 4)) else none

/-- The gate lists of a port. -/
def State.copyGate (p : Nat) (x : GatePort) : List CopyItem :=
  let of (sel : Nat) (l : GateList) : List CopyItem :=
    .gateCtrl p sel :: (List.range l.entries.length).map fun e => .gateEntry p e sel
  (x.adm.map fun (e : Nat × (Nat × Nat)) => CopyItem.gateEntry p e.1 0) ++ [.gateCtrl p 0] ++ of 1 x.oper ++
    match x.pend with | some (l, _) => of 2 l | none => []

/-- Everything the copy sends, as it stands now. DESIGN CHOICE, log entry 54. -/
def State.copyItems (s : State) : List CopyItem :=
  let regs := s.regs.filterMap fun (e : Nat × Word) => match findReg e.1 with
    | some (r, ix) => if copiedReg r ix then some (CopyItem.reg e.1) else none
    | none => none
  let dtc := (List.range 64).filter s.dtcValid
  regs ++ (s.tab.cells.map fun (e : Nat × Cell) => CopyItem.cell e.1) ++
    (s.tab.gens.map fun (e : Nat × Word) => CopyItem.gen e.1) ++
    (s.cls.tcam.flatMap fun (e : Nat × TcamEnt) => [0, 1].map fun h => CopyItem.tcam (e.1 / 4096) (e.1 % 4096) h) ++
    dtc.flatMap s.copyRules ++ dtc.flatMap s.copyNodes ++
    (s.tm.queues.map fun (e : Nat × Queue) => CopyItem.queue e.1) ++
    (s.tm.nodes.map fun (e : Nat × SchedNode) => CopyItem.sched e.1) ++
    (s.tm.shapers.map fun (e : Nat × Shaper) => CopyItem.shaper e.1) ++
    (s.pols.map fun (e : Nat × Policer) => CopyItem.policer e.1) ++
    s.tm.gates.flatMap fun (e : Nat × GatePort) => State.copyGate e.1 e.2

/-! ### Entries as they are sent -/

/-- The address of a table's entry in the key of its place. -/
def copyCell (s : State) (k : Nat) (e : TEntry) : Nat × Nat × List Byte :=
  let kind := placeKind k
  let i := placeInst k
  let unit := if kind = 132 then 0x0400 + s.fld .tcm_TBL_CFG [i] f_tcm_TBL_CFG_first_block else kind % 128 * 256 + i
  let index := if 128 ≤ kind then defaultIndex else if 6 ≤ kind ∧ kind ≤ 8 then k % 2 ^ 192 else 0
  let key := if 128 ≤ kind ∨ (6 ≤ kind ∧ kind ≤ 8) then []
    else if kind = 2 ∧ routeFamily k = 0 then natBE 4 k else natBE 16 k
  (unit, index, natLE 21 k ++ natLE 4 e.stamp ++ natLE 2 (e.owner * 2 + if e.hit then 1 else 0) ++ natLE 5 e.loc ++
    readKeyData key e.data)

/-- A leaf slot as it is committed: the changes of the pending list that were committed have their effect, the others
none (R271). -/
def State.copySlot (s : State) (i line k : Nat) : Word :=
  let w := BitVec.ofNat 64 (s.nodeWord i line k)
  (s.dtcPend i).foldl (fun w p => match p with
    | .slot l j add done =>
      if l = line ∧ j = k then (if add = done then slotWord 1 (s.leafRule i line k) else 0) else w
    | .root .. => w) w

/-- The value of a register in the copy: a transmit PN is advanced by 2^jump_log2 (R381, R467). -/
def State.copyWord (s : State) (r : Reg) (ix : List Nat) : Word :=
  let v := s.rd r ix
  let c := ix.headD 0 / 2
  if r == .msc_SA_PN && s.fld .msc_SC_CFG [c] f_msc_SC_CFG_dir == 1 then
    v + BitVec.ofNat 64 (2 ^ s.fld .lmac_MSEC_CFG [s.fld .msc_SC_CFG [c] f_msc_SC_CFG_port] f_lmac_MSEC_CFG_jump_log2)
  else v

/-- The unit that holds a register, and its index there (R219). -/
def State.copyRegAt (s : State) (r : Reg) (ix : List Nat) : Nat × Nat :=
  match r with
  | .fbk_TMPL => (0x0A00, ix.headD 0 * 8 + ix.getD 1 0)
  | .dtc_ROOT => (0x0500 + (((List.range 64).find? fun i => s.treeOf i (ix.headD 0)).getD 0), 2 ^ 61 + ix.headD 0)
  | _ => (if isParseReg r then 0x0100 else if r.addr ix < 0x2000000 then 0x0C00 else 0x1500, r.addr ix)

/-- A TCAM position's halves (R255): it is committed and visible. -/
def State.copyTcam (s : State) (b pos half : Nat) : Option (List Byte) :=
  match s.tcamTableOf b with
  | none => none
  | some t =>
    let first := s.tcamChain t b
    let st := (s.tcamEnt first pos).state
    if 2 ≤ st ∧ st ≤ 4 then
      let e := s.tcamEnt b pos
      let seg (v : Nat) : List Byte := padTo 20 (natBE (segBytes (s.tcamWidth t)) v)
      some (padTo 32 [if e.set then 1 else 0] ++ if half = 1 then padTo 32 (seg e.c)
        else padTo 32 (seg e.v ++ natLE 2 e.p ++ natLE 4 e.d ++ natLE 1 (if b = first then 2 else 0)))
    else none

/-- A gate list of a port by its selector, with its switch tick. -/
def gateSel (x : GatePort) (sel : Nat) : GateList × Nat :=
  if sel = 1 then (x.oper, x.operT) else x.pend.getD ({}, 0)

/-- An entry of the copy as it is now: its unit, its index and its 64 bytes; none where it is gone. -/
def State.copyRead (s : State) (x : CopyItem) : Option (Nat × Nat × List Byte) :=
  let plain (bs : List Byte) : List Byte := List.replicate 32 0 ++ padTo 32 bs
  match x with
  | .cell k => (s.entryNow k).map fun e => copyCell s k e
  | .tcam b pos h => (s.copyTcam b pos h).map fun bs => (0x0400 + b, h * 2 ^ 32 + pos, bs)
  | .node i line h =>
    some (0x0500 + i, h * 2 ^ 32 + line,
      plain ([0, 1, 2, 3].flatMap fun j => natLE 8 (s.copySlot i line (4 * h + j)).toNat))
  | .rule i n q => some (0x0500 + i, 2 ^ 60 + q * 2 ^ 32 + n, plain (s.ruleBytes i n (32 * q) 32))
  | .reg a => (findReg a).map fun (r, ix) =>
      let (unit, index) := s.copyRegAt r ix
      let v := natLE 8 (s.copyWord r ix).toNat
      (unit, index, plain (if r == .dtc_ROOT then List.replicate 16 0 ++ v else v))
  | .gen i => some (0xF000 + i, 0, plain (natLE 8 (SMap.get 0 s.tab.gens i).toNat))
  | .queue q => some (0x1000, q, plain (natLE 16 (s.q q).cfg))
  | .sched k => some (0x1100, k, plain (natLE 16 (s.node (k / 65536) (k % 65536)).cfg))
  | .shaper n =>
    let y := s.shaper n
    some (0x1200, n, plain (natLE 16 (match y.pend with | some (c, _) => c | none => y.cfg)))
  | .policer k =>
    let p := s.pol k
    some (0x1300, if k < 2 ^ 20 then k else 2 ^ 63 + (k - 2 ^ 20),
      plain (natLE 16 (match p.pend.getLast? with | some e => e.1 | none => p.cfg)))
  | .gateEntry p e sel =>
    let y := s.gatePort p
    let v := if sel = 0 then SMap.get (0, 0) y.adm e else (gateSel y sel).1.entries.getD e (0, 0)
    some (0x1400, sel * 2 ^ 61 + p * 256 + e, plain (natLE 16 (gateEntryBits v)))
  | .gateCtrl p sel =>
    let y := s.gatePort p
    if sel = 0 then some (0x1400, 2 ^ 63 + p, plain (natLE 16 y.ctrl))
    else
      let (l, t) := gateSel y sel
      some (0x1400, 2 ^ 63 + sel * 2 ^ 61 + p, plain (natLE 16 (gateControlBits l) ++ natLE 8 t))

/-- RESYNC_COPY_SEND (R466, R467): the source sends the next entry of its copy, and COPY_DONE behind the last. The copy
begins once no batch is in hand that was not forwarded. -/
def execResyncCopySend (s : State) : Res :=
  if s.twinState = 1 ∧ s.twin.phase = 2 ∧ s.flag .twn_STATUS [] f_twn_STATUS_log_source ∧ s.twin.linkUp then
    let queue (s : State) (l : Option (List CopyItem)) : State := { s with twin := { s.twin with copyQ := l } }
    match s.twin.copyQ with
    | none =>
      match s.tab.batch with
      | some b => if b.number = 0 then go s else go (queue s (some s.copyItems))
      | none => go (queue s (some s.copyItems))
    | some [] =>
      let s := queue s none
      go ({ s with twin := { s.twin with phase := 3 } }.rallyPut 0xA 1 [])
    | some (x :: rest) =>
      let s := queue s (some rest)
      match s.copyRead x with
      | some (unit, index, bs) => go (s.rallyPut 9 0 ([unit] ++ w64 index ++ [1] ++ toWords (padTo 64 bs)))
      | none => go s
  else go s

/-! ### Entries as they are received -/

/-- What a record names. -/
def State.copyItem (s : State) (unit index : Nat) (bs : List Byte) : Option CopyItem :=
  let kind := unit / 256
  let i := unit % 256
  if 0xF000 ≤ unit then some (.gen (unit - 0xF000))
  else if index = defaultIndex ∧ 2 ≤ kind ∧ kind ≤ 8 then
    some (.cell (defaultKey kind (if kind = 4 then (s.tcamTableOf i).getD 0 else i)))
  else match kind with
    | 1 | 0x0C | 0x15 => some (.reg index)
    | 2 | 3 | 9 => some (.cell (cellKey kind i (leAt bs 0 21)))
    | 4 => some (.tcam i (index % 2 ^ 32) (index / 2 ^ 32))
    | 5 => match index / 2 ^ 60 with
      | 0 => (nodeIndex index).map fun (line, w) => .node i line (w / 4)
      | 1 => (ruleIndex index).map fun (n, off) => .rule i n (off / 32)
      | _ => (rootIndex index).map fun t => .reg (Reg.addr .dtc_ROOT [t])
    | 6 | 7 | 8 => some (.cell (cellKey kind 0 index))
    | 0x0A => some (.reg (Reg.addr .fbk_TMPL [index / 8, index % 8]))
    | 0x10 => some (.queue index)
    | 0x11 => some (.sched index)
    | 0x12 => some (.shaper index)
    | 0x13 => some (.policer (if index < 2 ^ 62 then index else excPol (index % 2 ^ 62)))
    | 0x14 =>
      let sel := index / 2 ^ 61 % 4
      let n := index % 2 ^ 61
      some (if index < 2 ^ 63 then .gateEntry (n / 256) (n % 256) sel else .gateCtrl n sel)
    | _ => none

/-- An entry of a table: one the device holds already keeps its location, and another takes the source's where that is
free here (R197, R461). -/
def State.copyCellIn (s : State) (k : Nat) (bs : List Byte) : State :=
  let flags := leAt bs 25 2
  let (id, s) := s.newId
  let e : TEntry :=
    { data := leAt bs 48 16, id, hit := bitOf flags 0, stamp := leAt bs 21 4, owner := flags / 2, loc := leAt bs 27 5 }
  let old := s.entryNow k
  let (loc, s) := match old with
    | some o => (some o.loc, s)
    | none =>
      if !inBuckets k || s.way e.loc = 0 then (some e.loc, s)
      else let p := s.place k false; (p.loc, p.s)
  match loc with
  | none => s
  | some l =>
    let new : Option TEntry := some { e with loc := l }
    let s := (s.putCell k { (s.cell k) with cur := new }).countEntry k old new
    s.when (inBuckets k) (·.setWay l (k + 1))

/-- A segment of a TCAM position. -/
def State.copyTcamIn (s : State) (b pos half : Nat) (bs : List Byte) : State :=
  match s.tcamTableOf b with
  | none => s
  | some t =>
    let n := segBytes (s.tcamWidth t)
    let v := beNat ((bs.drop 32).take n)
    let e := { s.tcamEnt b pos with set := bitOf (leAt bs 0 1) 0 }
    let e := if half = 1 then { e with c := v }
      else { e with v, p := leAt bs 52 2, d := leAt bs 54 4, state := leAt bs 58 1 % 128 }
    (s.tcamPut b pos e.written).tcamShow (s.tcamChain t b)

/-- Half a node line; a slot that a batch in hand has changed stays as it is. -/
def State.copyNodeIn (s : State) (i line half : Nat) (bs : List Byte) : State :=
  let busy (k : Nat) : Bool := (s.dtcPend i).any fun p => match p with
    | .slot l j _ _ => l == line && j == k
    | .root .. => false
  s.each [0, 1, 2, 3] fun s j =>
    s.when (!busy (4 * half + j)) (·.putNode i line (4 * half + j) (BitVec.ofNat 64 (leAt bs (32 + 8 * j) 8)))

/-- A register takes a copied value. -/
def State.copyRegIn (s : State) (a : Nat) (v : Word) : State :=
  match findReg a with
  | some (r, ix) =>
    if !copiedReg r ix then s
    else if r.row.sealing == .tunable then s.regTake (regAccess r ix) r ix v
    else s.wr r ix v
  | none => s

/-- A gate list of a port is changed. -/
def setGateSel (x : GatePort) (sel : Nat) (l : GateList) (t : Nat) : GatePort :=
  if sel = 1 then { x with oper := l, operT := t } else { x with pend := some (l, t) }

/-- A copied entry takes effect. DESIGN CHOICE, log entry 54. -/
def State.copyIn (s : State) (x : CopyItem) (bs : List Byte) : State :=
  let rec' := leAt bs 32 16
  let n := s.fpc.seqNext
  match x with
  | .cell k => s.copyCellIn k bs
  | .tcam b pos h => s.copyTcamIn b pos h bs
  | .node i line h => s.copyNodeIn i line h bs
  | .rule i r q =>
    let a := (s.fld .dtc_TBL_CFG [i] f_dtc_TBL_CFG_rule_base + r) * 128 + 32 * q
    { s with cls := { s.cls with rules := s.cls.rules.writeBytes a ((bs.drop 32).take 32) } }
  | .reg a =>
    let off := match findReg a with | some (.dtc_ROOT, _) => 48 | _ => 32
    s.copyRegIn a (BitVec.ofNat 64 (leAt bs off 8))
  | .gen i => { s with tab := { s.tab with gens := SMap.put 0 s.tab.gens i (BitVec.ofNat 64 (leAt bs 32 8)) } }
  | .queue q => s.applyQueue n q rec'
  | .sched k => s.apply n (.sched (k / 65536) (k % 65536) rec')
  | .shaper m => s.apply n (.shaper m rec')
  | .policer k => s.polWrite k rec' n
  | .gateEntry p e sel =>
    let v := (bitsOf rec' 0 8, rec' / 2 ^ 8)
    s.modGate p fun y =>
      if sel = 0 then { y with adm := SMap.put (0, 0) y.adm e v }
      else
        let (l, t) := gateSel y sel
        setGateSel y sel { l with entries := l.entries.set e v } t
  | .gateCtrl p sel =>
    s.modGate p fun y =>
      if sel = 0 then { y with ctrl := rec' }
      else setGateSel y sel { base := gcBase rec', cycleTicks := gcCycle rec'
                              entries := List.replicate (gcCount rec') (0, 0) } (leAt bs 48 8)

/-- One entry of a COPY record takes effect on the device that is resynchronised. DESIGN CHOICE, log entry 54. -/
def State.copyTake (s : State) (unit index : Nat) (bs : List Byte) : State :=
  match s.copyItem unit index bs with
  | some x => { s with twin := { s.twin with copySeen := x :: s.twin.copySeen } }.copyIn x bs
  | none => s

/-- RALLY_COPY (R454, R467): the entries of the record, 16 words each, from the first index on. -/
def execRallyCopy (s : State) : Res :=
  match s.rallyTake 9 with
  | some (_, w, s) =>
    if s.twinState = 1 ∧ s.twin.phase = 2 ∧ !s.flag .twn_STATUS [] f_twn_STATUS_log_source then
      let n := min (w.getD 3 0) ((w.length - 4 + 15) / 16)
      go (s.each (List.range n) fun s j =>
        s.copyTake (w.getD 0 0) (at64 w 1 + j) (padTo 64 (ofWords ((w.drop (4 + 16 * j)).take 16))))
    else go s
  | none => go s

/-! ### What the source holds at its reset value -/

/-- What a commit of a device that is resynchronised writes counts as received. -/
def State.copyNote (s : State) (l : List Staged) : State :=
  if s.twinState = 1 then
    let items := l.filterMap fun x => match x with
      | .parse a _ | .word a _ | .reg a _ => some (CopyItem.reg a)
      | .queue q _ => some (.queue q)
      | .sched lvl n _ => some (.sched (nodeKey lvl n))
      | .shaper n _ => some (.shaper n)
      | .policer k _ => some (.policer k)
      | _ => none
    { s with twin := { s.twin with copySeen := items ++ s.twin.copySeen } }
  else s

/-- At the end of the copy, what it did not name takes its reset value, which the source did not list.
DESIGN CHOICE, log entry 54. -/
def State.copyRest (s : State) : State :=
  let seen := s.twin.copySeen
  let left := s.copyItems.filter fun x => !seen.contains x && (match x with
    | .reg _ | .queue _ | .sched _ | .shaper _ | .policer _ => true
    | _ => false)
  let s := s.each left fun s x => match x with
    | .reg a => match findReg a with
      | some (r, ix) => s.copyRegIn a (r.resetValue ix)
      | none => s
    | _ => s.copyIn x (List.replicate 64 0)
  { s with twin := { s.twin with copySeen := [] } }

end Sys2Proof.Machine
end

