-- ==== Sys2Proof/Machine/TwinLog.lean ====
section
/-! DEFINITION. The in-step log as it is received: packets, transactions, events, injects, time, folds and the
control records (chapter 12, R454 to R469). -/

namespace Sys2Proof.Machine

/-! ### Packets (R455 to R457, R468) -/

/-- ts_tol as it acts (R480). -/
def State.tsTol (s : State) : Nat := max 1 (s.fld .twn_TUNE [] f_twn_TUNE_ts_tol)

/-- Two timestamps within ts_tol of each other (R456). -/
def State.tsNear (s : State) (a b : Nat) : Bool := decide (a ≤ b + s.tsTol) && decide (b ≤ a + s.tsTol)

/-- One entry of a PKT record (R455): kind, MAC, lchk, timestamp and the words it takes. -/
structure PktEntry where
  kind : Nat
  mac : Nat
  lchk : Nat
  ts : Nat
  words : Nat
  deriving DecidableEq, Repr

/-- The entry at word `i` of a PKT record with base_tick `tick`. -/
def entryAtWord (w : List Nat) (i tick : Nat) : PktEntry :=
  let e := w.getD i 0
  let kind := bitsOf e 22 2
  let ts := if kind = 1 then BitVec.ofNat 64 (at64 w (i + 1))
    else BitVec.ofNat 64 tick + (BitVec.ofNat 14 e).signExtend 64
  { kind, mac := bitsOf e 24 8, lchk := bitsOf e 14 8, ts := ts.toNat, words := if kind = 1 then 3 else 1 }

/-- What the follower's line input holds next for a MAC: a frame, or a frame that its own FIFO dropped. -/
inductive OwnEvent
  | frame (f : RxFrame)
  | drop (d : OwnDrop)
  deriving DecidableEq, Repr

def OwnEvent.ts : OwnEvent → Nat
  | .frame f => f.ts.toNat
  | .drop d => d.ts.toNat

def OwnEvent.len : OwnEvent → Nat
  | .frame f => f.bytes.length
  | .drop d => d.len

/-- The next of the two for MAC `m`, in the order received. -/
def State.ownEvent (s : State) (m : Nat) : Option OwnEvent :=
  match s.nextFrame m, s.twin.ownDrops.find? fun d => d.mac == m with
  | some f, some d => some (if f.fid < d.fid then .frame f else .drop d)
  | some f, none => some (.frame f)
  | none, some d => some (.drop d)
  | none, none => none

/-- It leaves without entering the parser. -/
def State.ownGone (s : State) (m : Nat) : OwnEvent → State
  | .frame f => s.dropFrame m f
  | .drop d => { s with twin := { s.twin with ownDrops := s.twin.ownDrops.filter fun x => x.fid != d.fid } }

/-- Head frames whose own timestamp is below T_join − ts_tol are discarded (R468). -/
def State.joinDiscard (s : State) (m : Nat) : Nat → State
  | 0 => s
  | n + 1 => match s.ownEvent m with
    | some e => if e.ts + s.tsTol < s.twin.joinT then (s.ownGone m e).joinDiscard m n else s
    | none => s

/-- The entry was consumed: the log goes on behind it, `rest` being what follows the record. -/
def State.entryDone (s : State) (w rest : List Nat) (pos : Nat) (e : PktEntry) : State :=
  if w.length ≤ pos + e.words then s.rallyNext rest
  else
    let n := if e.kind = 2 then s.twin.pktCount else s.twin.pktCount + 1
    { s with twin := { s.twin with pktPos := pos + e.words, pktCount := n } }

/-- A check of R456 failed: step ends, and a follower that is leaving step already discards the rest of its log.
DESIGN CHOICE, log entry 55. -/
def State.mismatch (s : State) : State :=
  if s.isFollower then s.stepEnd 12
  else if s.twinState = 3 then s.rallyNext []
  else s.stepRefuse 12

/-- The lag of R457 as packet after packet enters; whether it exceeds lag_limit. DESIGN CHOICE, log entry 54. -/
def State.lagCheck (s : State) (tick : Nat) : State × Bool :=
  let lag := (s.pwr.time.toNat - tick) / 2
  (s.setFld .twn_STATUS [] f_twn_STATUS_lag (min lag 0xFFFF),
    decide (max 1 (s.fld .twn_TUNE [] f_twn_TUNE_lag_limit) < lag))

/-- The first followed entry of a join is in step (R468). -/
def State.joined (s : State) (seq : Nat) : State := if s.twinState = 1 then s.stepOn seq else s

/-- An entry of a join that is not followed (R468): its frame, if it is at the head, leaves with it.
DESIGN CHOICE, log entry 54. -/
def State.entrySkip (s : State) (e : PktEntry) (seq : Nat) : State :=
  let s := match s.ownEvent e.mac with
    | some x => s.when (s.tsNear x.ts e.ts) (·.ownGone e.mac x)
    | none => s
  { s.foldSkip seq with fpc := { (s.foldSkip seq).fpc with seqNext := seq + 1 } }

/-- What a parser entry of a followed packet meets, as for PARSER_ENTRY. -/
structure EntryIn where
  beats : Nat
  d2dFull : Bool
  ue : List (Fin 1024)
  ce : Nat
  fcsDisagree : Bool

/-- A frame enters the follower's parser with the logged number and timestamp, unless its lag ends step (R456, R457).
DESIGN CHOICE, log entry 54. -/
def State.entryFollow (s : State) (w rest : List Nat) (pos tick seq : Nat) (e : PktEntry) (f : RxFrame) (x : EntryIn) :
    State :=
  let s := s.addWrap .twn_CNT [5] f_twn_CNT_count (if x.fcsDisagree then 1 else 0)
  let (s, late) := s.lagCheck tick
  if late && s.isFollower then s.stepEnd 11
  else
    let s := s.joined seq
    let s := (s.addSat .prs_STATUS [] f_prs_STATUS_ce_count x.ce).takeFrame e.mac f x.beats
    (s.enterParser e.mac f.fid f.bytes seq (BitVec.ofNat 64 e.ts) f.ended x.d2dFull x.beats x.ue).entryDone w rest pos e

/-- A FRAME or DROPPED entry that is followed (R456, R457): it waits for its frame, for the MAC's wait slot and for the
frame's first beat. -/
def State.entryFrame (s : State) (w rest : List Nat) (pos tick seq : Nat) (e : PktEntry) (x : EntryIn) : State :=
  let s := s.joinDiscard e.mac 4096
  match s.ownEvent e.mac with
  | none => s
  | some own =>
    if own.len % 256 ≠ e.lchk ∨ !s.tsNear own.ts e.ts then s.mismatch
    else if e.kind = 2 then ((s.joined seq).ownGone e.mac own).entryDone w rest pos e
    else match own with
      | .drop _ => if s.isFollower then s.stepEnd 11 else s.mismatch
      | .frame f =>
        if !s.waitFree e.mac || s.pipeHeld (e.mac / 16) || !(f.ended || decide (1 ≤ x.beats ∧ 64 < f.bytes.length)) then s
        else s.entryFollow w rest pos tick seq e f x

/-- An INJECT entry (R455, R516): the packet of its record enters; a number whose record is missing is skipped. -/
def State.entryInject (s : State) (w rest : List Nat) (pos tick seq : Nat) (e : PktEntry) (x : EntryIn) : State :=
  match s.twin.injects.find? fun p => p.seq == seq with
  | none => ({ s.foldSkip seq with fpc := { (s.foldSkip seq).fpc with seqNext := seq + 1 } }).entryDone w rest pos e
  | some p =>
    if p.mode == 0 && !s.waitFree p.target then s
    else
      let (s, late) := s.lagCheck tick
      if late && s.isFollower then s.stepEnd 11
      else
        let s := s.joined seq
        let s := { s with twin := { s.twin with injects := s.twin.injects.filter fun q => seq < q.seq } }
        let s := s.when (p.mode == 0) (·.addSat .prs_STATUS [] f_prs_STATUS_ce_count x.ce)
        (s.injectEnter p.mode p.dp p.target seq p.prog p.bytes (BitVec.ofNat 64 e.ts) x.d2dFull x.ue).entryDone w rest pos e

/-- RALLY_PKT (R455 to R457, R468): the next entry of the PKT record at the head of the log. A former source that
receives a log is the follower from H on (R469). -/
def execRallyPkt (beats : Nat) (d2dFull : Bool) (ue : List (Fin 1024)) (ce : Nat) (fcsDisagree : Bool) (s : State) :
    Res :=
  match s.rallyHead with
  | some (1, _, w, rest) =>
    let s := s.when (s.isSource && s.flag .twn_STATUS [] f_twn_STATUS_handover) (·.handOver' false)
    let s := s.when (s.isFollower && s.flag .twn_STATUS [] f_twn_STATUS_handover) (·.handOver' false)
    let pos := max 4 s.twin.pktPos
    if !s.following || w.length ≤ pos then go (s.rallyNext rest)
    else if s.stepRests then go s
    else
      let tick := at64 w 2
      let e := entryAtWord w pos tick
      let seq := at64 w 0 + s.twin.pktCount
      let x : EntryIn := { beats, d2dFull, ue, ce, fcsDisagree }
      if e.kind = 3 then go (s.entryInject w rest pos tick seq e x)
      else if e.kind ≠ 2 ∧ e.ts < s.twin.joinT then go (((s.joinDiscard e.mac 4096).entrySkip e seq).entryDone w rest pos e)
      else go (s.entryFrame w rest pos tick seq e x)
  | _ => go s

/-! ### Transactions (R461, R462) -/

/-- RALLY_TXN (R461): the follower begins to stage a forwarded batch once it holds no other. -/
def execRallyTxn (s : State) : Res :=
  match s.rallyHead with
  | some (2, _, w, rest) =>
    let s := s.dropForwarded
    if !s.takesLog then go (s.rallyNext rest)
    else if s.tab.batch.isSome || s.tab.report.isSome then go s
    else
      let bs := ofWords (w.drop 2)
      let h := padTo 64 (bs.take 64)
      let b : Batch :=
        { ring := none, resultAddr := 0, tag := leAt h 0 4, atomic := leAt h 4 1 == 1, stopOnFail := leAt h 5 1 == 1
          ops := chunks64 (bs.drop 64) (leAt h 8 4), stageSince := s.cycle, number := at64 w 0 }
      go (((s.rallyNext rest).setFld .pci_TXN_STATUS [] f_pci_TXN_STATUS_state 1).setBatch b)
  | _ => go s

/-- The forwarded batch in hand, where a record names it. -/
def State.forwarded (s : State) (number : Nat) : Option Batch :=
  match s.tab.batch with
  | some b => if b.ring.isNone && !b.boot && b.number == number then some b else none
  | none => none

/-- A forwarded batch has ended. -/
def State.forwardEnd (s : State) : State :=
  { s with tab := { s.tab with batch := none } }.setFld .pci_TXN_STATUS [] f_pci_TXN_STATUS_state 0

/-- RALLY_COMMIT (R461, R462): the follower commits at S before packet S enters its parser; it waits until it has staged
the operations named, and while an entry is held (R226). -/
def execRallyCommit (s : State) : Res :=
  match s.rallyHead with
  | some (3, 0, w, rest) =>
    let s := s.dropForwarded
    match s.forwarded (at64 w 0) with
    | none => go (s.rallyNext rest)
    | some b =>
      let last := w.getD 2 0 + w.getD 3 0
      if b.results.length < min last b.ops.length then go s
      else match s.batchWaits b with
        | some u =>
          let s := s.setFld .pci_TXN_STATUS [] f_pci_TXN_STATUS_state 2
          go (s.setFld .pci_TXN_STATUS [] f_pci_TXN_STATUS_wait_unit u)
        | none =>
          let mine := b.atomic || (b.ready && b.results.length == last)
          let s := (s.rallyNext rest).when mine fun s => (s.copyNote (b.staged.map (·.2))).commitAt b (at64 w 4)
          go (s.when (b.atomic || decide (b.ops.length ≤ last)) State.forwardEnd)
  | _ => go s

/-- RALLY_ABORT (R461): what the follower staged for the operations named is discarded. -/
def execRallyAbort (s : State) : Res :=
  match s.rallyHead with
  | some (3, 1, w, rest) =>
    let s := s.dropForwarded
    match s.forwarded (at64 w 0) with
    | none => go (s.rallyNext rest)
    | some b =>
      let first := w.getD 2 0
      if b.atomic then go ((s.rallyNext rest).txnUndo b).forwardEnd
      else if b.results.length ≤ first ∧ first < b.ops.length then go s
      else
        let s := s.rallyNext rest
        let s := if b.ready && b.results.length == first + 1 then (s.txnUndo b).setBatch { b with staged := [], ready := false } else s
        go (s.when (b.stopOnFail || decide (b.ops.length ≤ first + 1)) State.forwardEnd)
  | _ => go s

/-- RALLY_STAGED (R461): the follower's report on an operation. The source's own staging decides its status; one that
the follower failed ends step. -/
def execRallyStaged (s : State) : Res :=
  match s.rallyHead with
  | some (4, failed, w, rest) =>
    match s.tab.batch with
    | some b =>
      let n := w.getD 2 0
      if b.ring.isNone || b.number != at64 w 0 then go (s.rallyNext rest)
      else match b.results[n]? with
        | none => if b.ops.length ≤ n ∨ b.failed then go (s.rallyNext rest) else go s
        | some o =>
          let s := (s.rallyNext rest).setBatch { b with peerStaged := max b.peerStaged (n + 1) }
          go (s.when (decide (failed = 1) && o.status != 2) (·.stepEnd 9))
    | none => go (s.rallyNext rest)
  | _ => go s

/-- STAGE_TIMEOUT (R461): no STAGED record within stage_limit, and the pair leaves step; the commit proceeds. -/
def execStageTimeout (s : State) : Res :=
  match s.tab.batch with
  | some b =>
    let limit := max 1 (s.fld .twn_TUNE [] f_twn_TUNE_stage_limit) * cyclesPerUs
    if s.awaitsPeer b && s.passed b.stageSince limit then go (s.stepEnd 10) else go s
  | none => go s

/-! ### Events, injects and time (R454, R458, R459) -/

/-- RALLY_EVENT (R458): a learn event or AGED record is posted as received by a device that takes the log. -/
def execRallyEvent (s : State) : Res :=
  match s.rallyTake 5 with
  | some (low, w, t) => if !s.takesLog then go t else
    let s := t
    let bytes := padTo 64 (ofWords w)
    if low = 0 then
      let s := if s.ringRoom 32 then s.addSat .exm_LEARN_STATUS [] f_exm_LEARN_STATUS_events 1
        else s.addSat .exm_LEARN_STATUS [] f_exm_LEARN_STATUS_ring_drops 1
      go (s.ringPut 32 bytes)
    else go (s.evictPost (leAt bytes 33 1 % 64) bytes)
  | none => go s

/-- RALLY_INJECT (R454): the packet waits for its PKT entry. DESIGN CHOICE, log entry 52. -/
def execRallyInject (s : State) : Res :=
  match s.rallyTake 6 with
  | some (_, w, t) => if !s.takesLog then go t else
    let s := t
    let n := w.getD 2 0
    let (rest, s) := s.injectRest (w.getD 3 0 % 1024)
    let p : RallyInj :=
      { seq := at64 w 0, mode := rest.1, dp := rest.2.1, target := rest.2.2.1, prog := rest.2.2.2
        bytes := (padTo n (ofWords (w.drop 4))).take n }
    go { s with twin := { s.twin with injects := s.twin.injects ++ [p] } }
  | none => go s

/-- The source, from the time it forwards transactions, sends its device time and TAI offset (R454, R459).
DESIGN CHOICE, log entries 1, 52. -/
def State.timeSend (s : State) : State :=
  if s.forwards && s.twin.linkUp && s.passed s.twin.timeAt Config.timeInterval then
    let s := s.rallyPut 7 0 (w64 s.pwr.time.toNat ++ w64 (s.rd .cpr_TAI_OFFSET []).toNat)
    { s with twin := { s.twin with timeAt := s.cycle } }
  else s

/-- RALLY_TIME_SEND (R459): the follower returns the echo, takes the source's TAI offset and steers its device time to
within 4 ticks of the source's; `delay` is the one-way delay it has from the round trip. So does the
device that is to follow, while it is resynchronised. DESIGN CHOICE, log entry 52. -/
def execRallyTimeSend (delay : Nat) (s : State) : Res :=
  match s.rallyHead with
  | some (7, 0, w, rest) =>
    let s := s.rallyNext rest
    let s := s.rallyPut 7 1 w
    if s.isFollower || (s.twinState == 1 && !s.flag .twn_STATUS [] f_twn_STATUS_log_source && decide (2 ≤ s.twin.phase)) then
      let s := s.wr .cpr_TAI_OFFSET [] (BitVec.ofNat 64 (at64 w 2))
      let (e, s) := s.free
      let t := at64 w 0 + delay + e.toNat % 9 - 4
      go { s with pwr := { s.pwr with time := BitVec.ofNat 64 t } }
    else go s
  | _ => go s

/-- RALLY_TIME_ECHO (R459): the source takes the echo of its own record. -/
def execRallyTimeEcho (s : State) : Res :=
  match s.rallyHead with
  | some (7, 1, _, rest) => go (s.rallyNext rest)
  | _ => go s

/-! ### Folds (R463) -/

/-- Two folds of a window are compared once both are known. -/
def State.foldCompare (s : State) (n : Nat) : State :=
  match SMap.find? s.twin.ownFolds n, SMap.find? s.twin.peerFolds n with
  | some a, some b =>
    let s := { s with twin := { s.twin with
      ownFolds := SMap.erase s.twin.ownFolds n, peerFolds := SMap.erase s.twin.peerFolds n } }
    s.when (a != b) (·.stepEnd 13)
  | _, _ => s

/-- RALLY_CHECK (R463). -/
def execRallyCheck (s : State) : Res :=
  match s.rallyTake 8 with
  | some (_, w, s) =>
    if s.isFollower then
      let n := at64 w 0
      go ({ s with twin := { s.twin with
        peerFolds := SMap.insert s.twin.peerFolds n (BitVec.ofNat 64 (at64 w 2)) } }.foldCompare n)
    else go s
  | none => go s

/-- FOLD_WINDOW_CLOSE (R463): the parser has assigned a number beyond the window, and no position of the window is
outstanding; the source sends the fold. -/
def execFoldWindowClose (s : State) : Res :=
  let n := s.twin.nextWindow
  let last := (n + 1) * 2 ^ 20
  if s.inStep && decide (last < s.fpc.seqNext) && decide (last ≤ s.feFloor) then
    let fold := SMap.get 0 s.twin.folds n
    let s := { s with twin := { s.twin with nextWindow := n + 1, folds := SMap.erase s.twin.folds n } }
    if s.isSource then go (s.rallyPut 8 0 (w64 n ++ w64 fold.toNat))
    else go ({ s with twin := { s.twin with ownFolds := SMap.insert s.twin.ownFolds n fold } }.foldCompare n)
  else go s

/-! ### Control records (R464 to R468) -/

/-- COPY_DONE (R468): the follower stops discarding, holds its line input and returns HOLDING.
DESIGN CHOICE, log entry 54. -/
def execCopyDone (s : State) : Res :=
  match s.rallyHead with
  | some (0xA, 1, _, rest) =>
    let s := s.rallyNext rest
    if s.twinState = 1 ∧ s.twin.phase = 2 ∧ !s.flag .twn_STATUS [] f_twn_STATUS_log_source then
      let s := { s.copyRest with twin := { s.copyRest.twin with phase := 3 } }
      go (s.rallyPut 0xA 2 (w64 s.pwr.time.toNat))
    else go s
  | _ => go s

/-- HOLDING (R468): T_join is set, and J is chosen at least 64 cycles later. -/
def execHolding (s : State) : Res :=
  match s.rallyHead with
  | some (0xA, 2, w, rest) =>
    let s := s.rallyNext rest
    if s.twinState = 1 ∧ s.twin.phase = 3 ∧ s.flag .twn_STATUS [] f_twn_STATUS_log_source then
      go { s with twin := { s.twin with joinWait := some (s.cycle + 64, at64 w 0 + 2 * s.tsTol) } }
    else go s
  | _ => go s

/-- JOIN (R468): the log begins with J. DESIGN CHOICE, log entry 54. -/
def execJoin (s : State) : Res :=
  match s.rallyHead with
  | some (0xA, 3, w, rest) =>
    let s := s.rallyNext rest
    if s.twinState = 1 ∧ s.twin.phase = 3 ∧ !s.flag .twn_STATUS [] f_twn_STATUS_log_source then
      go { s with
        twin := { s.twin with phase := 4, joinT := at64 w 2, skipped := [], ownDrops := [], injects := [] }
        fpc := { s.fpc with seqNext := at64 w 0 } }
    else go s
  | _ => go s

/-- LEAVE (R464, R465): the partner ends in-step operation. -/
def execLeave (s : State) : Res :=
  match s.rallyHead with
  | some (0xA, 4, _, rest) =>
    let s := s.rallyNext rest
    if s.inStep then go (s.stepEnd 2)
    else if s.twinState = 1 ∧ 2 ≤ s.twin.phase then go (s.stepRefuse 2)
    else go s
  | _ => go s

end Sys2Proof.Machine
end

