-- ==== Sys2Proof/Machine/Startup.lean ====
section
/-! DEFINITION. Power, resets and start-up: the stages, the image, the settings, the playbook, its fallback and safe
mode; acceptance, management restarts and retirement (chapters 14, 15 and 17: R521 to R532, R541, R559 to R563, R595 to
R597, R615 to R617, R633). -/

namespace Sys2Proof.Machine

/-! ### Power, clocks and resets (R595, R597, R615, R633) -/

/-- POWER_GOOD (R609, R615): PWRGOOD is asserted; the power-on reset is held until its release. -/
def execPowerGood (s : State) : Res :=
  if s.pwr.pwrGood then go s
  else go { s with pwr := { s.pwr with pwrGood := true, pwrAt := s.cycle, inReset := true } }

/-- PLL_LOCK (R595): the root PLL locks and the clocks start. -/
def execPllLock (s : State) : Res :=
  if s.pwr.pwrGood then go { s with pwr := { s.pwr with pllLocked := true } } else go s

/-- PLL_LOCK_LOSS (R597): a device reset, held until lock returns. -/
def execPllLockLoss (s : State) : Res :=
  if s.pwr.pllLocked then go ({ s with pwr := { s.pwr with pllLocked := false } }.deviceReset 5) else go s

/-- POWER_ON_RESET (R615): PWRGOOD is low. -/
def execPowerOnReset (s : State) : Res := go s.powerOnReset

/-- DEVICE_RESET (R615, R617, R633): RESET_N low for 100 cycles or more, or another cause. -/
def execDeviceReset (cause : ResetSource) (s : State) : Res :=
  if !s.pwr.pwrGood then go s
  else match cause with
    | .pin n =>
      if n < 100 then go s
      else
        let s := s.deviceReset 1
        go { s with pwr := { s.pwr with resetPin := true } }
    | .restart => go s.restartReset
    | .resetCtrl => go (s.deviceReset 3)
    | .watchdog => go (s.deviceReset 4)

/-! ### Stages (R494, R521) -/

def State.bootStage (s : State) : Nat := s.fld .glb_BOOT_STATUS [] f_glb_BOOT_STATUS_stage
def State.bootReady (s : State) : Bool := s.flag .glb_BOOT_STATUS [] f_glb_BOOT_STATUS_ready
def State.bootSlot (s : State) : Bool := s.flag .glb_BOOT_STATUS [] f_glb_BOOT_STATUS_slot
def State.bootPlaybook (s : State) : Nat := s.fld .glb_BOOT_STATUS [] f_glb_BOOT_STATUS_playbook

/-- Start-up runs and is in a stage, with the management firmware or the boot ROM at work. -/
def State.inStage (s : State) (n : Nat) : Bool :=
  s.boot.running && !s.pwr.inReset && s.bootStage == n && (decide (n ≤ 1) || s.boot.mgmtUp)

/-- The domains that start-up requests as it enters a stage (R610). -/
def stageDomains (n : Nat) : List Nat :=
  match n with
  | 0 => [1, 20, 23]
  | 2 => [22]
  | 3 => [18, 19]
  | 4 => [2, 3, 4, 5, 6, 7, 8, 9, 10, 11, 14, 15]
  | 6 => [12, 13, 16, 17]
  | _ => []

/-- The domains of a stage are ON. -/
def State.stagePowered (s : State) (n : Nat) : Bool := (stageDomains n).all s.pdOn

/-- fail_code records the first failure of the start (R527). -/
def State.failCode (s : State) (code : Nat) : State :=
  if s.fld .glb_BOOT_STATUS [] f_glb_BOOT_STATUS_fail_code = 0 then
    s.setFld .glb_BOOT_STATUS [] f_glb_BOOT_STATUS_fail_code code
  else s

/-- A stage begins (R521, R537, R610). DESIGN CHOICE, log entry 57. -/
def State.enterStage (s : State) (n : Nat) : State :=
  let s := s.setFld .glb_BOOT_STATUS [] f_glb_BOOT_STATUS_stage n
  let s := { s with boot := { s.boot with stageSince := s.cycle } }
  let s := s.postEvent 0x100 (natLE 1 n ++ natLE 4 ((s.cycle - s.boot.since) / 2000000))
  s.each (stageDomains n) State.pdRequestOn

/-- RESET_RELEASE (R521, R495, R545, R598): with power good, lock and no pin holding it, a reset ends, the straps are
sampled and start-up begins. A slot that was being written is empty; the lifetime record is read.
DESIGN CHOICE, log entry 57. -/
def execResetRelease (twinId : Bool) (sel : Fin 4) (s : State) : Res :=
  if !(s.pwr.inReset && s.pwr.pwrGood && s.pwr.pllLocked) then go s
  else
    let cold := s.fld .cpr_RESET_CAUSE [] f_cpr_RESET_CAUSE_cause == 0
    let s := { s with
      pwr := { s.pwr with inReset := false, resetPin := false, time := 0 }
      boot := { s.boot with running := true, since := if cold then s.pwr.pwrAt else s.cycle } }
    let life := match s.flashLife with | some (_, l) => l | none => s.mgmt.life
    let life := { life with powerCycles := life.powerCycles + (if cold then 1 else 0) }
    let s := { s with mgmt := { s.mgmt with life, lifeAt := s.cycle, lifeWrittenAt := s.cycle, lastAvs := s.cycle } }
    let s := s.setFlag .glb_STRAPS [] f_glb_STRAPS_twin_id twinId
    let s := s.setFld .glb_STRAPS [] f_glb_STRAPS_playbook_sel sel
    let h := s.header
    let fix (b : Bool) (h : Hdr) : Hdr := if h.slotState b = 1 then h.setSlot b 0 0 else h
    let h' := fix true (fix false h)
    let s := s.when (decide (h' ≠ h)) (·.writeHeader h')
    go (s.showSlots.enterStage 0)

/-! ### The image (R522, R523, R545) -/

/-- The slots in the order of trial: the active one first, or the other where boot_fail_count is 3 or more; a HELD slot
after the other. -/
def State.slotOrder (s : State) : List Bool :=
  let h := s.header
  let first := if 3 ≤ h.failCount then !h.active else h.active
  if h.slotState first = 4 ∧ h.slotState (!first) ≠ 4 then [!first, first] else [first, !first]

/-- A slot is rejected without being read: EMPTY or WRITING in a valid header (R545), or by a timeout (R527). -/
def State.slotUnread (s : State) (b : Bool) : Bool :=
  s.boot.slotsOut.contains b ||
    ((s.flash.hdr0.isSome || s.flash.hdr1.isSome) &&
      !(s.header.slotState b == 2 || s.header.slotState b == 3 || s.header.slotState b == 4))

/-- Whether slot `b` holds what an apply wrote and verified, which the boot ROM accepts (R556, R558): its state says so
and its bytes have the header's digest. DESIGN CHOICE, log entry 8. -/
def State.slotVerified (s : State) (b : Bool) : Bool :=
  let h := s.header
  (h.slotState b == 2 || h.slotState b == 3 || h.slotState b == 4) &&
    sha384 (if b then s.flash.slotB else s.flash.slotA) == (if b then h.digestB else h.digestA)

/-- The slots tried in turn: the first accepted, and fail_code of those rejected (R522, R558); one that cannot be read
ends the trial (R527). -/
def State.imageTry (s : State) (a b : ImageInfo) : List Bool → State × Option Bool
  | [] => (s, none)
  | x :: l =>
    let i := if x then b else a
    if s.slotUnread x then s.imageTry a b l
    else if !i.readOk then (s.failCode 0x30, none)
    else if !(i.sigOk || s.slotVerified x) then (s.failCode 1).imageTry a b l
    else if (if i.sigOk then i.secver.val else s.header.secver x) < s.fused then (s.failCode 2).imageTry a b l
    else (s, some x)

/-- Stage 0 recovery (R523, R527): the device stays in stage 0, prints the code, and its xSPI outputs are at high
impedance. DESIGN CHOICE, log entry 57. -/
def State.recovery (s : State) : State :=
  let s := s.setFld .glb_BOOT_STATUS [] f_glb_BOOT_STATUS_stage 0
  { s with boot := { s.boot with running := false }, pwr := { s.pwr with xspiOff := true } }.emit
    (.uart (s.fld .glb_BOOT_STATUS [] f_glb_BOOT_STATUS_fail_code))

/-- NO_IMAGE (R522, R523): no slot was accepted. -/
def State.noImage (s : State) : State := (s.setFld .glb_BOOT_STATUS [] f_glb_BOOT_STATUS_fail_code 3).recovery

/-- The flash ends before an offset (R519). -/
def Flash.endsBefore (f : Flash) (n : Nat) : Bool := decide (f.cs0 + f.cs1 < n)

/-- The chosen image is started (R522, R540, R619). -/
def State.startImage (s : State) (x : Bool) (i : ImageInfo) : State :=
  let h := s.header
  let count := !s.boot.noCount
  let s := { s with boot := { s.boot with failAtStart := h.failCount, noCount := false, image := some i, mgmtUp := true } }
  let s := s.when count (·.writeHeader { h with failCount := min 255 (h.failCount + 1) })
  let s := (s.setFlag .glb_BOOT_STATUS [] f_glb_BOOT_STATUS_slot x).showSlots
  let s := s.setFlag .cpr_WDOG [] f_cpr_WDOG_enable true
  let s := { s with pwr := { s.pwr with wdogSince := s.cycle, wdogFirst := false } }
  (s.emit (.avsTarget s.mgmt.life.avsTarget)).enterStage 2

/-- STAGE_IMAGE_LOAD (stages 0 and 1, R521): in stage 0 the boot ROM reads the flash header, and stage 1 begins; in
stage 1 a slot is chosen, verified and started. `a` and `b` are what the slots hold. The flash is reached through PD01; one
too small for the slots, or that cannot be read, leads to recovery (R519, R527). DESIGN CHOICE, log entries 8, 57. -/
def execStageImageLoad (a b : ImageInfo) (s : State) : Res :=
  if s.inStage 0 && s.pdOn 1 then go (s.enterStage 1)
  else if !s.inStage 1 then go s
  else if s.flash.endsBefore 0x08010000 then go (s.failCode 0x30).recovery
  else match s.imageTry a b s.slotOrder with
    | (t, some x) => go (t.startImage x (if x then b else a))
    | (t, none) =>
      if s.slotOrder.any fun x => !s.slotUnread x && !(if x then b else a).readOk then go t.recovery else go t.noImage

/-! ### Releasing what start-up started; fallback and safe mode (R525, R528, R529) -/

/-- Registers of blocks that stage 3 and later do not start: those below the line MACs but the twin logic's, and the
die-to-die link's. -/
def keptBlock (off : Nat) : Bool :=
  (decide (off < 0x1000000) && !(decide (0x400000 ≤ off) && decide (off < 0x500000))) || decide (0x2700000 ≤ off)

/-- A register as the release of the stages leaves it: software's fields at reset in the blocks that stay, but for the
power domains and the watchdog; every field in the others, but for the channel status of HBM that stays trained.
DESIGN CHOICE, log entry 57. -/
def releasedWord (keepHbm : Bool) (off : Nat) (v : Word) : Word :=
  match findReg off with
  | none => 0
  | some (r, ix) =>
    let soft := (v &&& ~~~ r.writableAt ix) ||| (r.resetValue ix &&& r.writableAt ix)
    match r with
    | .cpr_PD_CTRL | .cpr_WDOG => v
    | .pci_TXN_STATUS => f_pci_TXN_STATUS_state.set v 0
    | .fe_hmc_CH_STATUS | .tm_hmc_CH_STATUS => if keepHbm then v else r.resetValue ix
    | _ => if keptBlock off then soft else r.resetValue ix

/-- The domains that stages 3 to 6 start. -/
def laterDomains (keepHbm : Bool) : List Nat :=
  (if keepHbm then [] else [18, 19]) ++ [2, 3, 4, 5, 6, 7, 8, 9, 10, 11, 12, 13, 14, 15, 16, 17]

/-- Everything that the stages after stage 2 have started is released (R525); in safe mode trained HBM stays (R528).
DESIGN CHOICE, log entry 57. -/
def State.releaseStages (s : State) (keepHbm : Bool) : State :=
  let base : State := State.reset
  let off := laterDomains keepHbm
  let regs := s.regs.foldl (fun m (e : Nat × Word) =>
    match findReg e.1 with
    | some (r, ix) => SMap.put (r.resetValue ix) m e.1 (releasedWord keepHbm e.1 e.2)
    | none => m) []
  let t : State :=
    { base with
      pending := s.pending, cycle := s.cycle, freeCount := s.freeCount, out := s.out, regs
      flash := s.flash, fused := s.fused, boot := { s.boot with baseBegun := false, baseFailed := false, sealed := false }
      mgmt := s.mgmt, host := s.host, cnt := s.cnt, d2d := s.d2d
      hbm := if keepHbm then s.hbm else base.hbm
      pwr := { s.pwr with
        pdWait := s.pwr.pdWait.filter fun n => !off.contains n
        pdSlot := if (s.pwr.pdSlot.map off.contains).getD false then none else s.pwr.pdSlot } }
  t.each off fun t n =>
    ((t.setFlag .cpr_PD_CTRL [n] f_cpr_PD_CTRL_enable false).lcForceOff (pdLc n)).setFlag
      .cpr_PD_STATUS [n] f_cpr_PD_STATUS_waiting false

/-- At a start in stage 7, and in safe mode, the session is resumed: members are forgotten, one that was applying is
COMPLETE and its slot EMPTY, and its WANT is due once a source rejoins (R554, R555). DESIGN CHOICE, log entry 57. -/
def State.resumeSession (s : State) : State :=
  let u := s.flash.current.2
  let s := { s with flash := { s.flash with session := u } }
  match u with
  | none => s.updShow
  | some u =>
    let s := { s with mgmt := { s.mgmt with members := [], wantDue := true } }
    let s := s.when (u.state == 3) (·.markSlot u 0 0 0)
    s.setSession (some { u with state := if s.staged = u.pieceCount then 2 else 1 })

/-- Safe mode (R528, R529). DESIGN CHOICE, log entry 57. -/
def State.enterSafe (s : State) : State :=
  let s := { s with boot := { s.boot with running := false, playbook := none } }
  let s := s.setFlag .glb_BOOT_STATUS [] f_glb_BOOT_STATUS_ready true
  let s := s.enterStage 8
  let s := s.postEvent 0x102 (natLE 1 (s.fld .glb_BOOT_STATUS [] f_glb_BOOT_STATUS_fail_code))
  s.resumeSession

/-- The playbook fails (R525): its fallback is tried once from stage 2, else safe mode. -/
def State.playbookFail (s : State) (code : Nat) (fallback : Option (Fin 4)) : State :=
  let trained := decide (3 < s.bootStage)
  let s := s.failCode code
  let s := s.postEvent 0x101 (natLE 1 code ++ natLE 1 s.bootPlaybook ++ natLE 1 (if s.bootSlot then 1 else 0))
  match if s.boot.fallbackUsed then none else fallback with
  | some n =>
    let s := s.releaseStages false
    let s := s.setFld .glb_BOOT_STATUS [] f_glb_BOOT_STATUS_playbook n
    { s with boot := { s.boot with fallbackUsed := true, playbook := none } }.enterStage 2
  | none => (s.releaseStages trained).enterSafe

/-- The fallback of the playbook in use. -/
def State.fallback (s : State) : Option (Fin 4) :=
  match s.boot.playbook with | some p => p.fallback | none => none

/-! ### Settings and the playbook (R524, R525, R561 to R563) -/

/-- What an image finds of the settings (R561, R562): none written yet, readable in a schema, or unreadable for a reason
and with the schema found. -/
inductive SettingsFound
  | fresh
  | readable (schema : BitVec 16)
  | unreadable (reason : Nat) (found : BitVec 16)
  deriving DecidableEq, Repr

def State.findSettings (s : State) (i : ImageInfo) : SettingsFound :=
  if s.flash.set0 = .erased ∧ s.flash.set1 = .erased then .fresh
  else match s.settings with
    | .valid schema _ _ =>
      let major := schema.toNat / 256
      if major = i.schema.toNat / 256 then .readable schema
      else if !i.reads.contains major then .unreadable 1 schema
      else if i.migrates.contains major then .readable schema
      else .unreadable 2 schema
    | _ => .unreadable 3 0

/-- SETTINGS_HELD (R563): the image marks itself HELD and restarts into the other slot, or safe mode follows.
DESIGN CHOICE, log entry 58. -/
def State.holdSettings (s : State) (i : ImageInfo) (reason : Nat) (found : BitVec 16) : State :=
  let me := s.bootSlot
  let h := s.header
  let s := s.postEvent 0x18A (natLE 1 (if me then 1 else 0) ++ natLE 1 reason ++ natLE 2 found.toNat ++
    natLE 2 i.schema.toNat)
  if (h.slotState (!me) = 2 ∨ h.slotState (!me) = 3) ∧ s.boot.failAtStart < 3 then
    let s := s.writeHeader { h.setSlot me 4 reason with active := !me, failCount := 0 }
    let s := s.deviceReset 2
    { s with boot := { s.boot with noCount := true } }
  else
    let s := s.failCode 0x20
    (s.releaseStages false).enterSafe

/-- The next-boot override in the settings, where it is valid (R524, R561). -/
def State.override (s : State) : Option Nat :=
  match s.settingsRecords.find? fun r => r.1 == 1 with
  | some (_, bs) => let n := leAt bs 0 1; if n < 4 then some n else none
  | none => none

/-- The playbook is chosen (R524); an override is cleared in both copies as it is used. -/
def State.choosePlaybook (s : State) : State :=
  match s.boot.named with
  | some n => s.setFld .glb_BOOT_STATUS [] f_glb_BOOT_STATUS_playbook n
  | none => match s.override with
    | some n =>
      let s := s.writeSettings s.writeSchema (s.settingsRecords.filter fun r => r.1 != 1)
      s.setFld .glb_BOOT_STATUS [] f_glb_BOOT_STATUS_playbook n
    | none =>
      s.setFld .glb_BOOT_STATUS [] f_glb_BOOT_STATUS_playbook (s.fld .glb_STRAPS [] f_glb_STRAPS_playbook_sel)

/-- A playbook's carving needs a tile whose spares are exhausted: a block of its TCAM tables (R25, R246), or a controller
of stacks 4-5 where it carves a region of them, since a region lies over all 64 (R410). DEDUCED, log entry 75. -/
def State.needsSpent (s : State) (pb : PlaybookInfo) : Bool :=
  let t := playbookRegs pb
  (s.spentMacros.any fun x => locClass x == 5 && decide (128 ≤ locIndex x ∧ locIndex x < 192) &&
    (List.range 7).any fun r => t.fld .fe_hmc_REGION [r] f_fe_hmc_REGION_size != 0) ||
  s.spentMacros.any fun x => locClass x == 4 && (List.range 64).any fun i =>
    t.flag .tcm_TBL_CFG [i] f_tcm_TBL_CFG_valid &&
      decide (t.fld .tcm_TBL_CFG [i] f_tcm_TBL_CFG_first_block ≤ locIndex x) &&
      decide (locIndex x < t.fld .tcm_TBL_CFG [i] f_tcm_TBL_CFG_first_block + t.fld .tcm_TBL_CFG [i] f_tcm_TBL_CFG_block_count)

/-- An image provides every engine version that a playbook requires (R525, R532). -/
def imageProvides (i : ImageInfo) (pb : PlaybookInfo) : Bool := pb.engines.all i.engines.contains

/-- FLASH_ERROR after the image was started: safe mode (R519, R527). DESIGN CHOICE, log entry 57. -/
def State.flashFail (s : State) : State :=
  let s := s.failCode 0x30
  let s := s.postEvent 0x101 (natLE 1 0x30 ++ natLE 1 s.bootPlaybook ++ natLE 1 (if s.bootSlot then 1 else 0))
  (s.releaseStages false).enterSafe

/-- The playbook that was chosen holds `pb`: it is checked, and taken or failed (R525, R527). -/
def State.readPlaybook (s : State) (i : ImageInfo) (pb : PlaybookInfo) : State :=
  if !pb.readOk then s.flashFail
  else if !pb.sigOk then s.playbookFail 0x10 pb.fallback
  else if !imageProvides i pb then s.playbookFail 0x11 pb.fallback
  else if playbookBroken pb || s.needsSpent pb then s.playbookFail 0x12 pb.fallback
  else { s with boot := { s.boot with playbook := some pb } }.enterStage 3

/-- STAGE_PLAYBOOK_READ (stage 2): `pb` is what the chosen playbook holds. DESIGN CHOICE, log entry 8. -/
def execStagePlaybookRead (pb : PlaybookInfo) (s : State) : Res :=
  match s.boot.image with
  | none => go s
  | some i =>
    if !(s.inStage 2 && s.stagePowered 2) then go s
    else if s.flash.endsBefore 0x19310000 then go s.flashFail
    else if s.boot.fallbackUsed then go (s.readPlaybook i pb)
    else match s.findSettings i with
      | .unreadable reason found => go (s.holdSettings i reason found)
      | .readable schema =>
        go (({ s with boot := { s.boot with readSchema := some schema } }.choosePlaybook).readPlaybook i pb)
      | .fresh =>
        let s := s.writeOlder i.schema (Config.defaultSettings i.schema.toNat)
        go (({ s with boot := { s.boot with readSchema := some i.schema } }.choosePlaybook).readPlaybook i pb)

/-! ### Stages 3 to 7 (R521) -/

/-- STAGE_HBM_TRAINING (stage 3, R406, R423, R425): each stack reports through its IEEE 1500 port, and every channel trains;
`failed` names those with a lane beyond repair and `idFail` the stacks whose identity could not be read. -/
def execStageHbmTraining (failed : List (Fin 192)) (idFail : List (Fin 6)) (s : State) (reports : List HbmStack := []) :
    Res :=
  if !(s.inStage 3 && s.stagePowered 3) then go s
  else
    let told := (List.range 6).zip reports
    let reports := told.foldl (fun m (e : Nat × HbmStack) => SMap.put {} m e.1 e.2) s.hbm.reports
    let s := { s with hbm := { s.hbm with reports } }
    let repaired (k : Nat) : Nat := (told.map fun e => (e.2.repairs.filter fun r => 32 * e.1 + r.1 == k).length).foldl (· + ·) 0
    let life := s.mgmt.life
    let s := { s with mgmt := { s.mgmt with life := { life with
      hbmLaneRepair := (List.range 192).foldl (fun m k => SMap.put 0 m k (repaired k)) life.hbmLaneRepair } } }
    let bad (k : Nat) : Bool := (failed.any fun x => x.val == k) || idFail.any fun x => x.val == k / 32
    let s := s.each (List.range 192) fun s k =>
      let s := s.hbmRequestLc k true
      if s.hState k ≠ 1 then s
      else if bad k then s.hbmTrainFail k
      else s.hbmTrained k (s.fld .mgs_SENSOR [152 + k / 32] f_mgs_SENSOR_value)
    if !idFail.isEmpty || failed.any fun k => decide (128 ≤ k.val) then go (s.playbookFail 0x14 s.fallback)
    else go (s.enterStage 4)

/-- Registers whose load enables ports and lanes, which is stage 6's work. -/
def enablesLines : Reg → Bool
  | .lmac_PORT_CTRL | .fab_LANE_EN => true
  | _ => false

/-- The playbook's registers that satisfy `p` are loaded. DESIGN CHOICE, log entry 9. -/
def State.loadRegs (s : State) (pb : PlaybookInfo) (p : Reg → Bool) : State :=
  s.each pb.regs fun s (e : BitVec 28 × Word) =>
    match findReg e.1.toNat with
    | some (r, ix) => s.when (p r) (·.regTake ⟨.mgmt, e.1⟩ r ix e.2)
    | none => s

/-- The generators of the exact-match tables are seeded (R196). DESIGN CHOICE, log entry 9. -/
def State.seedTables (s : State) : State :=
  let seed := s.rd .dsp_RNG_SEED []
  s.each (List.range 64) fun s i =>
    { s with tab := { s.tab with
        gens := SMap.put 0 s.tab.gens i (seed ^^^ BitVec.ofNat 64 (0x4000000000000000 + i)) } }

/-- STAGE_ENGINE_LOAD (stage 4): core programs, registers and clusters. DESIGN CHOICE, log entries 9, 68. -/
def execStageEngineLoad (s : State) : Res :=
  match s.boot.playbook with
  | none => go s
  | some pb =>
    if !(s.inStage 4 && s.stagePowered 4) then go s
    else
      let s := { s with fpc := { s.fpc with images := pb.programs } }
      go (((s.loadRegs pb fun r => !enablesLines r).seedTables).enterStage 5)

/-- The positions that `n` entries of a block take in order, where every `interval`-th one is left as a hole while the
others suffice; holes fill from the highest downward (R259). -/
def loadPositions (size interval n : Nat) : List Nat :=
  let isHole (p : Nat) : Bool := p % interval == interval - 1
  let plain := (List.range size).filter fun p => !isHole p
  if n ≤ plain.length then plain.take n
  else
    let extra := (((List.range size).filter isHole).reverse).take (n - plain.length)
    (List.range size).filter fun p => !isHole p || extra.contains p

/-- Positions between two holes of a table (R259, R261): 0 where it leaves none. -/
def State.holeInterval (s : State) (t : Nat) : Nat :=
  match s.fld .tcm_TBL_CFG [t] f_tcm_TBL_CFG_hole_interval with | 0 => 0 | k => 4 * 2 ^ k

/-- The playbook loader lays out the blocks of tables with holes (R259): an entry that the base tables insert goes to its
position in priority order, the earlier of equal ones first; one for which there is no position is left to fail.
DEDUCED, log entry 36. -/
def State.layOut (s : State) (ops : List (List Byte)) : List (List Byte) :=
  ops.zipIdx.map fun (r, n) =>
    match if rowOf r = some .tcamInsert then s.tcamUnit (opInst r) else none with
    | none => r
    | some (t, first) =>
      let interval := s.holeInterval t
      if interval = 0 ∨ first ≠ opInst r ∨ !restZero r (tcamUsed (s.tcamWidth t)) then r
      else
        let same := ops.zipIdx.filter fun (x, _) => rowOf x == some .tcamInsert && opInst x == first
        let before := same.filter fun (x, i) =>
          decide (tcamP r < tcamP x) || (tcamP x == tcamP r && decide (i < n))
        match (loadPositions (chainEntries (s.tcamWidth t)) interval same.length)[before.length]? with
        | some p => r.take 2 ++ [4] ++ (r.drop 3).take 5 ++ natLE 8 p ++ r.drop 16
        | none => r

/-- STAGE_BASE_TABLES (stage 5): the base tables go to the transaction engine as one non-atomic batch; once it has ended,
a failed operation fails the playbook, else stage 6 begins. DESIGN CHOICE, log entry 9. -/
def execStageBaseTables (s : State) : Res :=
  match s.boot.playbook with
  | none => go s
  | some pb =>
    if !s.inStage 5 || s.tab.batch.isSome || s.tab.report.isSome then go s
    else if !s.boot.baseBegun && !pb.baseOps.isEmpty then
      let s := { s with boot := { s.boot with baseBegun := true } }
      let s := s.setFld .pci_TXN_STATUS [] f_pci_TXN_STATUS_state 1
      go (s.setBatch
        { ring := none, resultAddr := 0, tag := 0, atomic := false, stopOnFail := false
          ops := s.layOut pb.baseOps, stageSince := s.cycle, boot := true })
    else if s.boot.baseFailed then go (s.playbookFail 0x15 s.fallback)
    else go (s.enterStage 6)

/-- STAGE_PORT_ENABLE (stage 6, R526, R474): ports and lanes are requested ON, the registers are sealed and ready is set;
without a twin the device takes the serve. -/
def execStagePortEnable (s : State) : Res :=
  match s.boot.playbook with
  | none => go s
  | some pb =>
    if !s.inStage 6 || s.bootReady then go s
    else
      let s := s.loadRegs pb enablesLines
      let s := { s with boot := { s.boot with sealed := true } }
      let s := s.setFlag .glb_BOOT_STATUS [] f_glb_BOOT_STATUS_ready true
      if s.flag .twn_CFG [] f_twn_CFG_enable then go s
      else go (((s.setFlag .twn_STATUS [] f_twn_STATUS_serve true).serveDrive true).healthCheck)

/-- STAGE_RUNNING (stage 7): groundskeeper tasks and the twin logic start, and the session is resumed. -/
def execStageRunning (s : State) : Res :=
  if !(s.inStage 6 && s.bootReady) then go s
  else
    let s := s.enterStage 7
    let s := { s with boot := { s.boot with stage7At := some s.cycle } }
    let s := s.when (s.pdOn 23) (·.startFns 23)
    let s := s.when (s.flag .twn_CFG [] f_twn_CFG_enable) (·.pdRequestOn 21)
    go (s.resumeSession.postEvent 0x1C2 (natLE 8 (s.rd .cpr_RESET_CAUSE []).toNat))

/-- The longest a stage may last, in milliseconds (R521). -/
def stageLimit (n : Nat) : Nat :=
  match n with | 0 => 50 | 1 => 1000 | 2 => 1000 | 3 => 3000 | 4 => 4000 | 5 => 12000 | _ => 1000

/-- BOOT_STAGE_TIMEOUT (R521, R527): an image stage rejects its slot, a later one fails the playbook.
DESIGN CHOICE, log entries 2, 57. -/
def execBootStageTimeout (s : State) : Res :=
  let n := s.bootStage
  if !(s.inStage n && decide (n < 7) && !(n == 6 && s.bootReady) &&
      s.passed s.boot.stageSince (stageLimit n * 2000000)) then go s
  else if n ≤ 1 then
    let s := s.failCode 0x31
    match s.slotOrder.find? fun b => !s.slotUnread b with
    | some x =>
      let s := { s with boot := { s.boot with slotsOut := x :: s.boot.slotsOut, stageSince := s.cycle } }
      go (if s.slotOrder.all s.slotUnread then s.noImage else s)
    | none => go s.noImage
  else go (s.playbookFail 0x31 s.fallback)

/-! ### Acceptance and management restarts (R532, R559, R562) -/

/-- Migrated settings are written in the image's own schema (R562, R565). DESIGN CHOICE, log entry 58. -/
def State.writeMigrated (s : State) (i : ImageInfo) : State :=
  match s.boot.readSchema with
  | some old =>
    if old.toNat / 256 = i.schema.toNat / 256 then s
    else
      let s := s.writeSettings i.schema (Config.migrate old.toNat i.schema.toNat s.settingsRecords)
      let s := { s with boot := { s.boot with readSchema := some i.schema } }
      s.postEvent 0x18B (natLE 2 old.toNat ++ natLE 2 i.schema.toNat)
  | none => s

/-- SLOT_ACCEPTANCE (R545, R559, R522): stage 7 has lasted 60 s; a slot that is READY or HELD becomes GOOD. -/
def execSlotAcceptance (s : State) : Res :=
  match s.boot.stage7At, s.boot.image with
  | some at', some i =>
    if !(s.inStage 7 && !s.boot.accepted && s.passed at' 120000000000) then go s
    else
      let b := s.bootSlot
      let h := s.header
      let st := h.slotState b
      let h := if st = 2 ∨ st = 3 ∨ st = 4 then h.setSlot b 3 0 else h
      let s := s.writeHeader { h with failCount := 0 }
      let s := s.showSlots.postEvent 0x188 (natLE 1 (if b then 1 else 0) ++ natLE 1 i.secver)
      go { s.writeMigrated i with boot := { (s.writeMigrated i).boot with accepted := true } }
  | _, _ => go s

/-- Management events that waited for the firmware are posted (R532). DESIGN CHOICE, log entry 57. -/
def State.postHeld (s : State) : State :=
  { s with mgmt := { s.mgmt with held := [] } }.each s.mgmt.held fun s e => s.postEventAt e.1 e.2.1 e.2.2.1 e.2.2.2

/-- MGMT_RESTART (R532, R554): the management cores come up again with `image`, the image of the slot the header
names active; where it does not provide the engine versions of the playbook that is loaded, or `compatible` says that it
does not serve it for another reason, the previous one runs again. `programs` are its
core programs where they differ from those loaded. DESIGN CHOICE, log entries 8, 57. -/
def execMgmtRestart (image : ImageInfo) (compatible : Bool) (programs : Option (List CoreProgram)) (s : State) : Res :=
  if s.boot.mgmtUp || s.boot.image.isNone || s.pwr.inReset then go s
  else
    let s := { s with boot := { s.boot with mgmtUp := true } }
    let serves := compatible && (match s.boot.playbook with | some pb => imageProvides image pb | none => true)
    let s := s.when (s.bootStage == 7) fun s => s.resumeSession.postHeld
    if !serves then go (s.failCode 0x11)
    else
      let x := s.header.active
      let s := s.when (x != s.bootSlot) fun s =>
        { s with boot := { s.boot with
            accepted := false, stage7At := if s.bootStage = 7 then some s.cycle else s.boot.stage7At
            readSchema := match s.settings with | .valid schema _ _ => some schema | _ => s.boot.readSchema } }
      let s := { s with boot := { s.boot with image := some image } }
      let s := (s.setFlag .glb_BOOT_STATUS [] f_glb_BOOT_STATUS_slot x).showSlots
      match programs with
      | some l =>
        if s.inStep ∨ s.bootStage ≠ 7 then go s
        else go ({ s with fpc := { s.fpc with images := l } }.reloadFrom (List.range 32))
      | none => go s

/-! ### Retirement and the HBM scrub (R541, R542) -/

/-- AVS_LIMIT (R541): at 0.80 V a cluster's margin has stayed below 40 ps for 24 h; the core with the lowest margin,
`weakest`, is retired. -/
def execAvsLimit (c : Fin 32) (weakest : Fin 17) (s : State) : Res :=
  let low := SMap.get 0 s.mgmt.avsLow c.val
  if !(s.taskRuns 7 && s.mgmt.life.avsTarget == 800 && low != 0 && s.passed (low - 1) (86400 * 2000000000)) then go s
  else
    let s := { s with mgmt := { s.mgmt with avsLow := SMap.put 0 s.mgmt.avsLow c.val 0 } }
    let s := (s.postEvent 0x122 (natLE 1 c)).retireCore c weakest 1
    if s.flag .gkp_TASK_CFG [7] f_gkp_TASK_CFG_retire_restart && !s.inStep then
      go ((s.clusterShift c false).clusterShift c true)
    else go s

/-- HBM_SCRUB_STEP (R412, R542): the scrub reads a granule with a request of class SC3 and its own tag, which the controller serves like any
other; what its read meets comes with HBM_READ_DONE (R418, R427). The deep scrub takes task 2's share while it runs. -/
def execHbmScrubStep (chan : Fin 192) (granule : Fin 12582912) (tag : Nat) (overBudget lastOfPass : Bool)
    (s : State) (deep : Bool := false) : Res :=
  if s.hFrozen chan ∨ s.hState chan ≠ 2 then go s
  else go ((if deep then s.deepStep true overBudget lastOfPass
      else s.taskStep 2 (overBudget || s.mgmt.deepHbm) lastOfPass) fun s =>
    s.hbmArrive chan { tag, home := 3, cls := 3, gran := granule, wdata := none, at' := 0, id := 0, scrub := true })

end Sys2Proof.Machine
end

