-- ==== Sys2Proof/Machine/Tick.lean ====
section
/-! DEFINITION. One CLK_CORE cycle of the idle device: device time with its rate and its step, counters that count
cycles and levels, and the times that run by themselves; and the control signals of the die-to-die link (R16, R326,
R332, R455, R477, R569 to R572, R598 to R603, R607, R624). -/

namespace Sys2Proof.Machine

/-! ### Counters that count every cycle (R568 to R570) -/

/-- Cycles of a clock that end in CLK_CORE cycle `c`. -/
def clockCycles (mhz c : Nat) : Nat := (c + 1) * mhz / 2000 - c * mhz / 2000

def sumOver (l : List Nat) (f : Nat → Nat) : Nat := (l.map f).foldl (· + ·) 0

/-- Lookups in flight of the tables of a kind (R570). -/
def State.lookupsOf (s : State) (kind : Nat) : Nat :=
  (s.fpc.lookups.filter fun l =>
    l.result.isNone && s.fld .rau_TBL_DIR [l.table] f_rau_TBL_DIR_kind == kind).length

/-- A level source of a group (R570). DESIGN CHOICE, log entries 62, 69. -/
def State.level (s : State) (g l : Nat) : Nat :=
  let threads (st : Nat) : Nat := ((List.range 128).filter fun t => (s.th g t).state == st).length
  if g < 32 then
    match l with
    | 0 => threads 1
    | 1 => threads 3
    | 2 => (s.queueOf g).length
    | 3 => s.bufUsed g
    | _ => 0
  else if g < 48 then
    if l = 0 then (s.fpc.waits.filter fun e => e.2.isSome && e.1 / 16 == g - 32).length else 0
  else if 111 ≤ g ∧ g < 175 then
    let m := 4 * (g - 111) + l
    if l < 4 ∧ modeLanes (s.portMode m) ≠ 0 then s.rxLevel m / 256 else 0
  else if 175 ≤ g ∧ g < 191 then
    match l with
    | 0 => sumOver (numbersFrom (16 * (g - 175)) 16) (fun b => 3072 - s.bankUsed b) / 64
    | 1 => s.ctxUsed
    | _ => 0
  else if l ≠ 0 then 0
  else if g = 48 then s.fpc.order.length / 16
  else if g = 49 then (s.fpc.lookups.filter fun x => x.result.isNone).length
  else if g = 51 then s.lookupsOf 2
  else if g = 52 then s.lookupsOf 4
  else if 55 ≤ g ∧ g < 79 then
    (s.fpc.lookups.filter fun x =>
      x.result.isNone && s.fld .rau_TBL_DIR [x.table] f_rau_TBL_DIR_kind == 1 && lpmGroup x.id == g).length
  else if 191 ≤ g ∧ g < 207 then
    ((numbersFrom (16 * (g - 191)) 16).filter fun p => s.hasWork p 4 p).length
  else if 210 ≤ g ∧ g < 290 then
    ((s.tm.rxData.map fun e => e.1).filter fun l => l / 4 == g - 210).length
  else if 290 ≤ g ∧ g < 314 then
    sumOver (numbersFrom (8 * (g - 290)) 8) fun k => (s.hchan k).queue.length
  else if g = 314 then s.fld .twn_STATUS [] f_twn_STATUS_lag * 2 / 64
  else 0

/-- One configured counter in this cycle: clock cycles in event mode, the level in threshold mode (R569, R570).
DESIGN CHOICE, log entries 1, 62. -/
def State.cycleCount (s : State) (g k : Nat) : State :=
  let n := clockCycles (groupMHz g) s.cycle
  let mode := s.fld .skp_CNT_CFG [g, k] f_skp_CNT_CFG_mode
  let source := s.fld .skp_CNT_CFG [g, k] f_skp_CNT_CFG_source
  let counts := (mode == 1 && source == 0) ||
    (mode == 2 && decide (source < 16) &&
      decide (s.fld .skp_CNT_CFG [g, k] f_skp_CNT_CFG_threshold < s.level g source))
  if counts && n != 0 && s.groupRuns g then s.cntPlus g k n else s

/-- The counters that are configured, by group and number. -/
def State.configured (s : State) : List (Nat × Nat) :=
  s.regs.filterMap fun e =>
    let i := (e.1 - 0x500000) / 8
    if 0x500000 ≤ e.1 ∧ i < 2568 then some (i / 8, i % 8) else none

/-! ### Device time (R598 to R601) -/

/-- The rate in 10⁻⁹ tick per cycle, within ±500,000 (R606). -/
def State.ratePpb (s : State) : Int := max (-500000) (min 500000 (s.sfld .cpr_TIME_RATE [] f_cpr_TIME_RATE_rate_ppb))

/-- The ticks by which device time advances in this cycle, and the accumulator after it (R599). -/
def State.rateStep (s : State) : Nat × Int :=
  let acc := s.pwr.acc + s.ratePpb
  if 1000000000 ≤ acc then (2, acc - 1000000000)
  else if acc ≤ -1000000000 then (0, acc + 1000000000)
  else (1, acc)

/-- Device time counts: the root PLL is locked and no reset is held (R595, R598). DESIGN CHOICE, log entry 61. -/
def State.clocksRun (s : State) : Bool := s.pwr.pllLocked && !s.pwr.inReset

/-- The step that this cycle takes, if it is due: its tick and its ticks (R600). -/
def State.stepDue (s : State) : Option (Nat × Int) :=
  match s.pwr.step with
  | some (at', d) => if s.clocksRun && decide (at' ≤ s.pwr.time.toNat + s.rateStep.1) then some (at', d) else none
  | none => none

/-- The lowest multiple of `n` at or above `t`, as a number of multiples. -/
def nextMultiple (t n : Nat) : Nat := (t + n - 1) / n

/-- What a step at tick `at'` does to the functions scheduled by device time; `t` is the time it leads to (R601). -/
def State.stepEffects (s : State) (at' t : Nat) : State :=
  if at' < t then
    let passed := decide (nextMultiple at' 5120 * 5120 < t)
    let b := s.tm.refillNext * 5120
    let s := s.when (passed && decide (b < t)) (·.refillAll (s.cycle + 1))
    let s := { s with tm := { s.tm with refillNext := max s.tm.refillNext (nextMultiple t 5120) } }
    let last := (t - 1) / 40000
    if at' ≤ last * 40000 ∧ s.cnt.sweepNext ≤ last then { s with cnt := { s.cnt with sweepNext := last } } else s
  else { s with tm := { s.tm with refillNext := min s.tm.refillNext (nextMultiple t 5120) } }

/-- Device time after this cycle. DESIGN CHOICE, log entries 1, 61. -/
def State.timeTick (s : State) : State :=
  let adv := s.rateStep
  match s.stepDue with
  | some (at', d) =>
    let now : Int := s.pwr.time.toNat + adv.1
    let t := (now + d).toNat
    let s := { s with pwr := { s.pwr with time := BitVec.ofNat 64 t, acc := adv.2, step := none } }
    let s := s.setFlag .cpr_TIME_ADJ [] f_cpr_TIME_ADJ_pending false
    let s := if d = 0 then s else s.stepEffects at' t
    s.postEvent 0x1C3 (natLE 8 at' ++ natLE 8 (BitVec.ofInt 64 d).toNat)
  | none => { s with pwr := { s.pwr with time := s.pwr.time + BitVec.ofNat 64 adv.1, acc := adv.2 } }

/-! ### The cycle -/

/-- PPS_OUT falls pps_width after its rise, and is low where it is not enabled (R603).
DESIGN CHOICE, log entries 1, 61. -/
def State.ppsTick (s : State) : State :=
  s.when (s.pwr.ppsOut && (decide (s.pwr.ppsFall ≤ s.pwr.time.toNat) || !s.ppsOn))
    fun s => { s with pwr := { s.pwr with ppsOut := false } }

/-- In the gap between two holders of the serve no credit hold advances (R477). DESIGN CHOICE, log entry 1. -/
def State.holdTick (s : State) : State :=
  s.when s.gap fun s => { s with tm := { s.tm with queues := s.tm.queues.map fun (e : Nat × Queue) =>
    (e.1, { e.2 with emptySince := e.2.emptySince.map (· + 1) }) } }

/-- A PKT record that has been open for 64 ticks is closed (R455). DESIGN CHOICE, log entry 1. -/
def State.pktTick (s : State) : State :=
  match s.twin.pkt with
  | some (_, tick, _) => s.when (decide (tick + 64 ≤ s.pwr.time.toNat)) State.pktClose
  | none => s

/-- The cycle of rest ends of the functions whose status register is the stored word at an address (R620).
DEDUCED, log entry 71. -/
def State.restWord (s : State) (a : Nat) : State :=
  let at' (r : Reg) : Option Nat :=
    if r.row.base ≤ a then elemIndex r.row.dims (a - r.row.base) >>= List.head? else none
  let one (r : Reg) (f : State → Nat → State) (s : State) : State := match at' r with
    | some i => f s i
    | none => s
  let s := one .fpc_CL_STATUS State.clusterRest s
  let s := one .lmac_PORT_STATUS State.portRest s
  let s := one .pci_RING_STATUS State.ringRest s
  let s := one .gkp_TASK_STATUS State.taskRest s
  let s := one .cpr_PD_STATUS State.pdRest s
  let s := one .tm_hmc_CH_STATUS State.hbmRest s
  one .fe_hmc_CH_STATUS (fun s k => s.hbmRest (128 + k)) s

/-- Every function that rested in OFF or in ON for this cycle begins the transition that is pending (R620).
DEDUCED, log entry 71. -/
def State.restTick (s : State) : State :=
  let s := s.each (s.regs.map (·.1)) State.restWord
  let s := s.each (s.tm.lanes.map (·.1)) State.laneRest
  let on := s.pdOn 14
  let s := { s with tm := { s.tm with queues := s.tm.queues.map fun (e : Nat × Queue) => (e.1, e.2.rested on) } }
  s.stepRest

/-- Device time has gone on from tick `u`: short windows are counted at each tick that it took (R354). -/
def State.windowTick (s : State) (u : Nat) : State :=
  let v := s.pwr.time.toNat
  if v = u + 2 then (s.shortTick u (u + 1)).shortTick (u + 1) v
  else s.when (v != u) (·.shortTick u v)

/-- One CLK_CORE cycle in which no command comes. DESIGN CHOICE, log entries 1, 15. -/
def State.tick (s : State) : State :=
  let s := s.when s.clocksRun fun s =>
    let s := s.each s.configured fun s e => s.cycleCount e.1 e.2
    (((((s.timeTick.ppsTick).windowTick s.pwr.time.toNat).holdTick.pktTick.timeSend).schedSettle).wmTick).laneTick
  let s := { s with cycle := s.cycle + 1 }
  s.when s.clocksRun fun s => s.restTick.startCheck.healthCheck

/-- TIME_STEP (R600): the cycle in which device time would reach A; with no step due it has no effect.
DESIGN CHOICE, log entry 61. -/
def execTimeStep (s : State) : Res :=
  match s.stepDue with
  | some _ => go s.tick
  | none => go s

/-- D2D_CONTROL_SIGNAL (R16): a flit carries a copy of a control signal in its control slot: a whistle, a time adjustment
or a reset from the other die. The first copy with a good CRC on a module that is UP is acted
on, at the same tick; later copies are not. DESIGN CHOICE, log entry 16. -/
def execD2dControlSignal (sig : D2dCopy) (s : State) : Res :=
  if s.pwr.inReset || s.d2dMod sig.m != 2 || !sig.crcOk || decide (sig.n < s.d2d.sigNext) then go s
  else
    let s := { s with d2d := { s.d2d with sigNext := sig.n + 1 } }
    match sig.sig with
    | .whistle => go (s.whistleAct true)
    | .timeAdjust at' step =>
      let s := s.setFld .cpr_TIME_ADJ [] f_cpr_TIME_ADJ_step step.toNat
      let s := s.setFlag .cpr_TIME_ADJ [] f_cpr_TIME_ADJ_pending true
      go { s with pwr := { s.pwr with step := some (at'.toNat, step.toInt) } }
    | .reset => go (s.deviceReset (s.fld .cpr_RESET_CAUSE [] f_cpr_RESET_CAUSE_cause))

end Sys2Proof.Machine
end

