-- ==== Sys2Proof/Machine/Dispatch.lean ====
section
/-! DEFINITION. The dispatch: one arm for each command, each a direct call of its meaning. -/

namespace Sys2Proof.Machine

def exec (i : Instr) (s : State) : Host.Outcome State Fault Refusal :=
  match i with
  | .registerWrite a v => Sys2Proof.Machine.execRegisterWrite a v s
  | .readClearAccess a => Sys2Proof.Machine.execReadClearAccess a s
  | .narrowUnalignedAccess a write data => Sys2Proof.Machine.execNarrowUnalignedAccess a write s data
  | .poisonedWrite a => Sys2Proof.Machine.execPoisonedWrite a s
  | .d2dFlitReceive m dir crcOk seqNo => Sys2Proof.Machine.execD2dFlitReceive m dir crcOk seqNo s
  | .d2dControlSignal sig => Sys2Proof.Machine.execD2dControlSignal sig s
  | .d2dReplayWindow m inFlight => Sys2Proof.Machine.execD2dReplayWindow m s inFlight
  | .d2dLaneLoss m dir inFlight => Sys2Proof.Machine.execD2dLaneLoss m dir s inFlight
  | .d2dModuleTrainDone m ok => Sys2Proof.Machine.execD2dModuleTrainDone m ok s
  | .rxFrameStart m frame => Sys2Proof.Machine.execRxFrameStart m frame s
  | .rxFrameEnd m fcsOk corrected uncorrectable => Sys2Proof.Machine.execRxFrameEnd m fcsOk corrected uncorrectable s
  | .pauseRefresh m c => Sys2Proof.Machine.execPauseRefresh m c s
  | .pauseReceive m => Sys2Proof.Machine.execPauseReceive m s
  | .pfcReceive m => Sys2Proof.Machine.execPfcReceive m s
  | .pauseExpiry m c => Sys2Proof.Machine.execPauseExpiry m c s
  | .parserEntry m beats d2dFull ue ce => Sys2Proof.Machine.execParserEntry m beats d2dFull ue ce s
  | .parseResume m beats d2dFull ue ce => Sys2Proof.Machine.execParseResume m beats d2dFull ue ce s
  | .parseNodeRewrite pipe node => Sys2Proof.Machine.execParseNodeRewrite pipe node s
  | .orderPositionFree pipe => Sys2Proof.Machine.execOrderPositionFree pipe s
  | .orderRelease domain => Sys2Proof.Machine.execOrderRelease domain s
  | .orderSkip domain => Sys2Proof.Machine.execOrderSkip domain s
  | .dispatch pipe => Sys2Proof.Machine.execDispatch pipe s
  | .inputQueueDispatch c => Sys2Proof.Machine.execInputQueueDispatch c s
  | .dcacheLineFill c line way => Sys2Proof.Machine.execDcacheLineFill c line way s
  | .lookupResult id err misses parity => Sys2Proof.Machine.execLookupResult id err s misses parity
  | .rosterWrite c k w => Sys2Proof.Machine.execRosterWrite c k w s
  | .add c t rd ra rb err => Sys2Proof.Machine.execAdd c t rd ra rb s err
  | .sub c t rd ra rb err => Sys2Proof.Machine.execSub c t rd ra rb s err
  | .and c t rd ra rb err => Sys2Proof.Machine.execAnd c t rd ra rb s err
  | .or c t rd ra rb err => Sys2Proof.Machine.execOr c t rd ra rb s err
  | .xor c t rd ra rb err => Sys2Proof.Machine.execXor c t rd ra rb s err
  | .shl c t rd ra rb err => Sys2Proof.Machine.execShl c t rd ra rb s err
  | .shr c t rd ra rb err => Sys2Proof.Machine.execShr c t rd ra rb s err
  | .sar c t rd ra rb err => Sys2Proof.Machine.execSar c t rd ra rb s err
  | .rotr c t rd ra rb err => Sys2Proof.Machine.execRotr c t rd ra rb s err
  | .slt c t rd ra rb err => Sys2Proof.Machine.execSlt c t rd ra rb s err
  | .sltu c t rd ra rb err => Sys2Proof.Machine.execSltu c t rd ra rb s err
  | .minu c t rd ra rb err => Sys2Proof.Machine.execMinu c t rd ra rb s err
  | .maxu c t rd ra rb err => Sys2Proof.Machine.execMaxu c t rd ra rb s err
  | .mul c t rd ra rb err => Sys2Proof.Machine.execMul c t rd ra rb s err
  | .mulhu c t rd ra rb err => Sys2Proof.Machine.execMulhu c t rd ra rb s err
  | .csum c t rd ra rb err => Sys2Proof.Machine.execCsum c t rd ra rb s err
  | .popc c t rd ra err => Sys2Proof.Machine.execPopc c t rd ra s err
  | .clz c t rd ra err => Sys2Proof.Machine.execClz c t rd ra s err
  | .bswap c t rd ra err => Sys2Proof.Machine.execBswap c t rd ra s err
  | .bswap32 c t rd ra err => Sys2Proof.Machine.execBswap32 c t rd ra s err
  | .bswap16 c t rd ra err => Sys2Proof.Machine.execBswap16 c t rd ra s err
  | .addi c t rd ra imm err => Sys2Proof.Machine.execAddi c t rd ra imm s err
  | .andi c t rd ra imm err => Sys2Proof.Machine.execAndi c t rd ra imm s err
  | .ori c t rd ra imm err => Sys2Proof.Machine.execOri c t rd ra imm s err
  | .xori c t rd ra imm err => Sys2Proof.Machine.execXori c t rd ra imm s err
  | .shi c t kind rd ra amt err => Sys2Proof.Machine.execShi c t kind rd ra amt s err
  | .lui c t rd imm err => Sys2Proof.Machine.execLui c t rd imm s err
  | .slti c t rd ra imm err => Sys2Proof.Machine.execSlti c t rd ra imm s err
  | .sltiu c t rd ra imm err => Sys2Proof.Machine.execSltiu c t rd ra imm s err
  | .ext c t rd ra pos wm1 err => Sys2Proof.Machine.execExt c t rd ra pos wm1 s err
  | .exts c t rd ra pos wm1 err => Sys2Proof.Machine.execExts c t rd ra pos wm1 s err
  | .ins c t rd ra pos wm1 err => Sys2Proof.Machine.execIns c t rd ra pos wm1 s err
  | .mask c t rd ra pos wm1 err => Sys2Proof.Machine.execMask c t rd ra pos wm1 s err
  | .bcc c t cond ra rb hint off err => Sys2Proof.Machine.execBcc c t cond ra rb hint off s err
  | .j c t target err => Sys2Proof.Machine.execJ c t target s err
  | .jal c t target err => Sys2Proof.Machine.execJal c t target s err
  | .jr c t ra err => Sys2Proof.Machine.execJr c t ra s err
  | .hld c t rd ra off size sx err => Sys2Proof.Machine.execHld c t rd ra off size sx s err
  | .hst c t rd ra off size err => Sys2Proof.Machine.execHst c t rd ra off size s err
  | .movmg c t rd idx err => Sys2Proof.Machine.execMovmg c t rd idx s err
  | .movgm c t rd idx err => Sys2Proof.Machine.execMovgm c t rd idx s err
  | .lread c t rd hi l err => Sys2Proof.Machine.execLread c t rd hi l s err
  | .ld c t rd ra off size sx err => Sys2Proof.Machine.execLd c t rd ra off size sx err s
  | .st c t rd ra off size err => Sys2Proof.Machine.execSt c t rd ra off size s err
  | .amoAdd c t rd ra rb err => Sys2Proof.Machine.execAmoAdd c t rd ra rb err s
  | .amoAnd c t rd ra rb err => Sys2Proof.Machine.execAmoAnd c t rd ra rb err s
  | .amoOr c t rd ra rb err => Sys2Proof.Machine.execAmoOr c t rd ra rb err s
  | .amoXor c t rd ra rb err => Sys2Proof.Machine.execAmoXor c t rd ra rb err s
  | .amoSwap c t rd ra rb err => Sys2Proof.Machine.execAmoSwap c t rd ra rb err s
  | .amoMaxu c t rd ra rb err => Sys2Proof.Machine.execAmoMaxu c t rd ra rb err s
  | .amoMinu c t rd ra rb err => Sys2Proof.Machine.execAmoMinu c t rd ra rb err s
  | .amoCas c t rd ra rb err => Sys2Proof.Machine.execAmoCas c t rd ra rb err s
  | .fence c t err => Sys2Proof.Machine.execFence c t s err
  | .cinv c t ra err => Sys2Proof.Machine.execCinv c t ra s err
  | .dma c t ra rb rc err => Sys2Proof.Machine.execDma c t ra rb rc s err
  | .dmaComplete id err => Sys2Proof.Machine.execDmaComplete id err s
  | .lkp c t l table ks koff err => Sys2Proof.Machine.execLkp c t l table ks koff s err
  | .lkw c t l err => Sys2Proof.Machine.execLkw c t l s err
  | .passRes c t rd ch rmt cl err => Sys2Proof.Machine.execPassRes c t rd ch rmt cl s err
  | .passCommit c t rd err => Sys2Proof.Machine.execPassCommit c t rd s err
  | .passRecv c t ch soff rmt err => Sys2Proof.Machine.execPassRecv c t ch soff rmt err s
  | .signal c t flag rmt cl err => Sys2Proof.Machine.execSignal c t flag rmt cl s err
  | .wait c t flag rmt err => Sys2Proof.Machine.execWait c t flag rmt s err
  | .remoteOpArrive => Sys2Proof.Machine.execRemoteOpArrive s
  | .nop c t err => Sys2Proof.Machine.execNop c t s err
  | .yield c t err => Sys2Proof.Machine.execYield c t s err
  | .halt c t err => Sys2Proof.Machine.execHalt c t s err
  | .rnd c t rd err => Sys2Proof.Machine.execRnd c t rd s err
  | .score c t rd ra err => Sys2Proof.Machine.execScore c t rd ra s err
  | .cntAdd c t ra rb err => Sys2Proof.Machine.execCntAdd c t ra rb s err
  | .cntAddn c t ra rb rc err => Sys2Proof.Machine.execCntAddn c t ra rb rc s err
  | .polChg c t ra rb err => Sys2Proof.Machine.execPolChg c t ra rb s err
  | .lrn c t ra err => Sys2Proof.Machine.execLrn c t ra s err
  | .dcmt c t err => Sys2Proof.Machine.execDcmt c t s err
  | .emit c t ra err => Sys2Proof.Machine.execEmit c t ra s err
  | .drop c t imm8 err => Sys2Proof.Machine.execDrop c t imm8 s err
  | .punt c t ra err => Sys2Proof.Machine.execPunt c t ra s err
  | .mirror c t ra err => Sys2Proof.Machine.execMirror c t ra s err
  | .commitComplete => Sys2Proof.Machine.execCommitComplete s
  | .policerCharge => Sys2Proof.Machine.execPolicerCharge s
  | .coreFail c p => Sys2Proof.Machine.execCoreFail c p s
  | .deadBall c => Sys2Proof.Machine.execDeadBall c s
  | .dbResume c => Sys2Proof.Machine.execDbResume c s
  | .longWait c t => Sys2Proof.Machine.execLongWait c t s
  | .dbgHalt c t => Sys2Proof.Machine.execDbgHalt c t s
  | .dbgResume c t => Sys2Proof.Machine.execDbgResume c t s
  | .dbgStep c t err => Sys2Proof.Machine.execDbgStep c t err s
  | .releaseSlot c ch i1 => Sys2Proof.Machine.execReleaseSlot c ch i1 s
  | .clusterEnable c on => Sys2Proof.Machine.execClusterEnable c on s
  | .clusterStartDone c failed => Sys2Proof.Machine.execClusterStartDone c failed s
  | .clusterDrainLimit c => Sys2Proof.Machine.execClusterDrainLimit c s
  | .clusterStopDone c => Sys2Proof.Machine.execClusterStopDone c s
  | .txnBatchTake desc header records => Sys2Proof.Machine.execTxnBatchTake desc header records s
  | .lpmInsert ue => Sys2Proof.Machine.execLpmInsert ue s
  | .lpmDelete ue => Sys2Proof.Machine.execLpmDelete ue s
  | .lpmModify ue => Sys2Proof.Machine.execLpmModify ue s
  | .exmInsert ue => Sys2Proof.Machine.execExmInsert ue s
  | .exmDelete ue => Sys2Proof.Machine.execExmDelete ue s
  | .exmModify ue => Sys2Proof.Machine.execExmModify ue s
  | .fbkInsert ue => Sys2Proof.Machine.execFbkInsert ue s
  | .fbkDelete ue => Sys2Proof.Machine.execFbkDelete ue s
  | .fbkModify ue => Sys2Proof.Machine.execFbkModify ue s
  | .fbkTemplateWrite ue => Sys2Proof.Machine.execFbkTemplateWrite ue s
  | .parseWrite ue => Sys2Proof.Machine.execParseWrite ue s
  | .nhopWrite ue => Sys2Proof.Machine.execNhopWrite ue s
  | .groupDescWrite ue => Sys2Proof.Machine.execGroupDescWrite ue s
  | .poolSlotWrite ue => Sys2Proof.Machine.execPoolSlotWrite ue s
  | .groupFill ue => Sys2Proof.Machine.execGroupFill ue s
  | .defaultDataWrite ue => Sys2Proof.Machine.execDefaultDataWrite ue s
  | .tcamWrite ue => Sys2Proof.Machine.execTcamWrite ue s
  | .tcamDelete ue => Sys2Proof.Machine.execTcamDelete ue s
  | .tcamInsert ue => Sys2Proof.Machine.execTcamInsert ue s
  | .dtcInsert ue => Sys2Proof.Machine.execDtcInsert ue s
  | .dtcDelete ue => Sys2Proof.Machine.execDtcDelete ue s
  | .dtcNodeWrite ue => Sys2Proof.Machine.execDtcNodeWrite ue s
  | .dtcRuleWrite ue => Sys2Proof.Machine.execDtcRuleWrite ue s
  | .dtcRootWrite ue => Sys2Proof.Machine.execDtcRootWrite ue s
  | .queueWrite ue => Sys2Proof.Machine.execQueueWrite ue s
  | .schedWrite ue => Sys2Proof.Machine.execSchedWrite ue s
  | .shaperWrite ue => Sys2Proof.Machine.execShaperWrite ue s
  | .policerWrite ue => Sys2Proof.Machine.execPolicerWrite ue s
  | .excPolicerWrite ue => Sys2Proof.Machine.execExcPolicerWrite ue s
  | .gateEntryWrite ue => Sys2Proof.Machine.execGateEntryWrite ue s
  | .gateControlWrite ue => Sys2Proof.Machine.execGateControlWrite ue s
  | .counterClear ue => Sys2Proof.Machine.execCounterClear ue s
  | .txnRegWrite ue => Sys2Proof.Machine.execTxnRegWrite ue s
  | .ageTick ue => Sys2Proof.Machine.execAgeTick ue s
  | .txnRead ue => Sys2Proof.Machine.execTxnRead ue s
  | .txnCommit => Sys2Proof.Machine.execTxnCommit s
  | .commitWaitEnd => Sys2Proof.Machine.execCommitWaitEnd s
  | .txnWaitTimeout => Sys2Proof.Machine.execTxnWaitTimeout s
  | .entryStateRelease => Sys2Proof.Machine.execEntryStateRelease s
  | .heldCommitDeliver => Sys2Proof.Machine.execHeldCommitDeliver s
  | .ageWalkStep i1 => Sys2Proof.Machine.execAgeWalkStep i1 s
  | .auditStep a header records again => Sys2Proof.Machine.execAuditStep a header records again s
  | .tcamScrub flips => Sys2Proof.Machine.execTcamScrub flips s
  | .admission => Sys2Proof.Machine.execAdmission s
  | .spillStep q found => Sys2Proof.Machine.execSpillStep q found s
  | .spillWriteDone q i1 => Sys2Proof.Machine.execSpillWriteDone q i1 s
  | .refillReadDone q i1 ok found => Sys2Proof.Machine.execRefillReadDone q i1 ok s found
  | .mirrorRecordReadDone q ue found => Sys2Proof.Machine.execMirrorRecordReadDone q ue s found
  | .queueStartDone q => Sys2Proof.Machine.execQueueStartDone q s
  | .queueFlushDone q => Sys2Proof.Machine.execQueueFlushDone q s
  | .portSelection p found => Sys2Proof.Machine.execPortSelection p found s
  | .ingressSelection found => Sys2Proof.Machine.execIngressSelection found s
  | .creditHoldExpiry q => Sys2Proof.Machine.execCreditHoldExpiry q s
  | .shaperRefill => Sys2Proof.Machine.execShaperRefill s
  | .gateListSwitch p => Sys2Proof.Machine.execGateListSwitch p s
  | .txFrame m => Sys2Proof.Machine.execTxFrame m s
  | .tsFifoPop m => Sys2Proof.Machine.execTsFifoPop m s
  | .portEnable m v => Sys2Proof.Machine.execPortEnable m v s
  | .portStartDone m => Sys2Proof.Machine.execPortStartDone m s
  | .linkUp m => Sys2Proof.Machine.execLinkUp m s
  | .linkDown m => Sys2Proof.Machine.execLinkDown m s
  | .portStopDone m => Sys2Proof.Machine.execPortStopDone m s
  | .dataCellReceive => Sys2Proof.Machine.execDataCellReceive s
  | .fabricCellReceive l header payload => Sys2Proof.Machine.execFabricCellReceive l header payload s
  | .fabricRequest => Sys2Proof.Machine.execFabricRequest s
  | .fabricGrant => Sys2Proof.Machine.execFabricGrant s
  | .grantIssue p => Sys2Proof.Machine.execGrantIssue p s
  | .flowEntryExpiry src sys cls => Sys2Proof.Machine.execFlowEntryExpiry src sys cls s
  | .requestInterval q => Sys2Proof.Machine.execRequestInterval q s
  | .ctrlFlush dst pair => Sys2Proof.Machine.execCtrlFlush dst pair s
  | .cellHandoff => Sys2Proof.Machine.execCellHandoff s
  | .reasmTimeout src pkt => Sys2Proof.Machine.execReasmTimeout src pkt s
  | .linkHello l => Sys2Proof.Machine.execLinkHello l s
  | .linkReach l => Sys2Proof.Machine.execLinkReach l s
  | .linkSync l => Sys2Proof.Machine.execLinkSync l s
  | .linkCredit l => Sys2Proof.Machine.execLinkCredit l s
  | .linkStatusSend l => Sys2Proof.Machine.execLinkStatusSend l s
  | .reachRefresh l => Sys2Proof.Machine.execReachRefresh l s
  | .laneEnable i1 v => Sys2Proof.Machine.execLaneEnable i1 v s
  | .laneSignalDone l => Sys2Proof.Machine.execLaneSignalDone l s
  | .laneSignalTimeout l => Sys2Proof.Machine.execLaneSignalTimeout l s
  | .laneHelloSend l => Sys2Proof.Machine.execLaneHelloSend l s
  | .laneHelloTimeout l => Sys2Proof.Machine.execLaneHelloTimeout l s
  | .laneErrorRetrain l corrected uncorrectable codewords => Sys2Proof.Machine.execLaneErrorRetrain l corrected uncorrectable codewords s
  | .laneStopDone l => Sys2Proof.Machine.execLaneStopDone l s
  | .hbmRequest k tag cls gran wdata more => Sys2Proof.Machine.execHbmRequest k tag cls gran wdata s more
  | .hbmSchedule k => Sys2Proof.Machine.execHbmSchedule k s
  | .hbmPromotion k => Sys2Proof.Machine.execHbmPromotion k s
  | .hbmReadDone k corrected ue => Sys2Proof.Machine.execHbmReadDone k corrected ue s
  | .hbmWriteDone k => Sys2Proof.Machine.execHbmWriteDone k s
  | .rowIdleTimeout k bank => Sys2Proof.Machine.execRowIdleTimeout k bank s
  | .hbmRefresh k bank postpone all => Sys2Proof.Machine.execHbmRefresh k bank postpone s all
  | .caParityError k cmd vector => Sys2Proof.Machine.execCaParityError k cmd vector s
  | .capInfoRead k => Sys2Proof.Machine.execCapInfoRead k s
  | .channelRelease k => Sys2Proof.Machine.execChannelRelease k s
  | .channelStopDone k => Sys2Proof.Machine.execChannelStopDone k s
  | .channelStartDone k failed temp => Sys2Proof.Machine.execChannelStartDone k failed temp s
  | .writePattern k pc pattern bursts saveUe => Sys2Proof.Machine.execWritePattern k pc pattern bursts saveUe s
  | .readCompare k pc pattern bursts => Sys2Proof.Machine.execReadCompare k pc pattern bursts s
  | .caLoopback k => Sys2Proof.Machine.execCaLoopback k s
  | .setRdDelay k pc lane value => Sys2Proof.Machine.execSetRdDelay k pc lane value s
  | .setWrDelay k pc lane value => Sys2Proof.Machine.execSetWrDelay k pc lane value s
  | .setVref k pc lane value => Sys2Proof.Machine.execSetVref k pc lane value s
  | .setCaDelay k pc lane value => Sys2Proof.Machine.execSetCaDelay k pc lane value s
  | .trainCommandDone k errCount errMask saveUe => Sys2Proof.Machine.execTrainCommandDone k errCount errMask s saveUe
  | .oscCheck k => Sys2Proof.Machine.execOscCheck k s
  | .tempRetrain k temp => Sys2Proof.Machine.execTempRetrain k temp s
  | .rallyFrameReceive i1 header payload => Sys2Proof.Machine.execRallyFrameReceive i1 header payload s
  | .rallyResend => Sys2Proof.Machine.execRallyResend s
  | .rallyLost => Sys2Proof.Machine.execRallyLost s
  | .rallyLaneState i1 ev => Sys2Proof.Machine.execRallyLaneState i1 ev s
  | .rallyHello i1 => Sys2Proof.Machine.execRallyHello i1 s
  | .rallyPkt beats d2dFull ue ce fcsDisagree => Sys2Proof.Machine.execRallyPkt beats d2dFull ue ce fcsDisagree s
  | .rallyTxn => Sys2Proof.Machine.execRallyTxn s
  | .rallyCommit => Sys2Proof.Machine.execRallyCommit s
  | .rallyAbort => Sys2Proof.Machine.execRallyAbort s
  | .rallyStaged => Sys2Proof.Machine.execRallyStaged s
  | .stageTimeout => Sys2Proof.Machine.execStageTimeout s
  | .rallyEvent => Sys2Proof.Machine.execRallyEvent s
  | .rallyInject => Sys2Proof.Machine.execRallyInject s
  | .rallyTimeSend delay => Sys2Proof.Machine.execRallyTimeSend delay s
  | .rallyTimeEcho => Sys2Proof.Machine.execRallyTimeEcho s
  | .rallyCheck => Sys2Proof.Machine.execRallyCheck s
  | .foldWindowClose => Sys2Proof.Machine.execFoldWindowClose s
  | .rallyCopy => Sys2Proof.Machine.execRallyCopy s
  | .resyncCopySend => Sys2Proof.Machine.execResyncCopySend s
  | .copyDone => Sys2Proof.Machine.execCopyDone s
  | .holding => Sys2Proof.Machine.execHolding s
  | .join => Sys2Proof.Machine.execJoin s
  | .leave => Sys2Proof.Machine.execLeave s
  | .handover => Sys2Proof.Machine.execHandover s
  | .inStepEnable on => Sys2Proof.Machine.execInStepEnable on s
  | .relinquish => Sys2Proof.Machine.execRelinquish s
  | .handoverTimeout => Sys2Proof.Machine.execHandoverTimeout s
  | .umpireGrant f => Sys2Proof.Machine.execUmpireGrant f s
  | .umpirePeer f => Sys2Proof.Machine.execUmpirePeer f s
  | .heartbeatSend => Sys2Proof.Machine.execHeartbeatSend s
  | .leaseExpiry => Sys2Proof.Machine.execLeaseExpiry s
  | .ringDoorbell r pidx => Sys2Proof.Machine.execRingDoorbell r pidx s
  | .ringCidxWrite r cidx => Sys2Proof.Machine.execRingCidxWrite r cidx s
  | .ringCfgWrite r isBase v => Sys2Proof.Machine.execRingCfgWrite r isBase v s
  | .ringStartDone r => Sys2Proof.Machine.execRingStartDone r s
  | .ringStopDone r => Sys2Proof.Machine.execRingStopDone r s
  | .dmaReadError r use status => Sys2Proof.Machine.execDmaReadError r use status s
  | .coalesceTimer r => Sys2Proof.Machine.execCoalesceTimer r s
  | .vfRingsWrite v w => Sys2Proof.Machine.execVfRingsWrite v w s
  | .flr fn => Sys2Proof.Machine.execFlr fn s
  | .perst => Sys2Proof.Machine.execPerst s
  | .puntDeliver descs => Sys2Proof.Machine.execPuntDeliver descs s
  | .injectDescriptor desc buf => Sys2Proof.Machine.execInjectDescriptor desc buf s
  | .injectEntry r d2dFull ue ce => Sys2Proof.Machine.execInjectEntry r d2dFull ue ce s
  | .powerGood => Sys2Proof.Machine.execPowerGood s
  | .pllLock => Sys2Proof.Machine.execPllLock s
  | .pllLockLoss => Sys2Proof.Machine.execPllLockLoss s
  | .powerOnReset => Sys2Proof.Machine.execPowerOnReset s
  | .deviceReset cause => Sys2Proof.Machine.execDeviceReset cause s
  | .resetKeyWrite key => Sys2Proof.Machine.execResetKeyWrite key s
  | .resetRelease twinId sel => Sys2Proof.Machine.execResetRelease twinId sel s
  | .stageImageLoad a b => Sys2Proof.Machine.execStageImageLoad a b s
  | .stagePlaybookRead pb => Sys2Proof.Machine.execStagePlaybookRead pb s
  | .stageHbmTraining failed idFail reports => Sys2Proof.Machine.execStageHbmTraining failed idFail s reports
  | .stageEngineLoad => Sys2Proof.Machine.execStageEngineLoad s
  | .stageBaseTables => Sys2Proof.Machine.execStageBaseTables s
  | .stagePortEnable => Sys2Proof.Machine.execStagePortEnable s
  | .stageRunning => Sys2Proof.Machine.execStageRunning s
  | .bootStageTimeout => Sys2Proof.Machine.execBootStageTimeout s
  | .slotAcceptance => Sys2Proof.Machine.execSlotAcceptance s
  | .getInfo d => Sys2Proof.Machine.execGetInfo d s
  | .restart d => Sys2Proof.Machine.execRestart d s
  | .setOverride d => Sys2Proof.Machine.execSetOverride d s
  | .setTime d => Sys2Proof.Machine.execSetTime d s
  | .logRead d => Sys2Proof.Machine.execLogRead d s
  | .lifeRead d => Sys2Proof.Machine.execLifeRead d s
  | .sensorRead d => Sys2Proof.Machine.execSensorRead d s
  | .mailboxUnknownOpcode opcode d => Sys2Proof.Machine.execMailboxUnknownOpcode opcode d s
  | .mgmtRestart image compatible programs => Sys2Proof.Machine.execMgmtRestart image compatible programs s
  | .sensorSample i1 v => Sys2Proof.Machine.execSensorSample i1 v s
  | .droopDetect i1 drop ns => Sys2Proof.Machine.execDroopDetect i1 s drop ns
  | .logFlashWrite => Sys2Proof.Machine.execLogFlashWrite s
  | .lifetimeWrite => Sys2Proof.Machine.execLifetimeWrite s
  | .avsCheck margins unheld => Sys2Proof.Machine.execAvsCheck margins unheld s
  | .avsLimit c weakest => Sys2Proof.Machine.execAvsLimit c weakest s
  | .deepScrubStart => Sys2Proof.Machine.execDeepScrubStart s
  | .yearlyRecal => Sys2Proof.Machine.execYearlyRecal s
  | .sramScrubStep found overBudget lastOfPass deep => Sys2Proof.Machine.execSramScrubStep found overBudget lastOfPass s deep
  | .hbmScrubStep chan granule tag overBudget lastOfPass deep => Sys2Proof.Machine.execHbmScrubStep chan granule tag overBudget lastOfPass s deep
  | .serdesAdaptStep quad margin overBudget lastOfPass => Sys2Proof.Machine.execSerdesAdaptStep quad margin overBudget lastOfPass s
  | .nvmWearStep => Sys2Proof.Machine.execNvmWearStep s
  | .taskEnable t v => Sys2Proof.Machine.execTaskEnable t v s
  | .taskStopDone t => Sys2Proof.Machine.execTaskStopDone t s
  | .wdogKick => Sys2Proof.Machine.execWdogKick s
  | .wdogExpiry => Sys2Proof.Machine.execWdogExpiry s
  | .updOpen src d buf sigOk => Sys2Proof.Machine.execUpdOpen src d buf sigOk s
  | .updPiece src d buf => Sys2Proof.Machine.execUpdPiece src d buf s
  | .updStatus src d => Sys2Proof.Machine.execUpdStatus src d s
  | .updBitmap src d => Sys2Proof.Machine.execUpdBitmap src d s
  | .updCancel src d => Sys2Proof.Machine.execUpdCancel src d s
  | .updApply src d => Sys2Proof.Machine.execUpdApply src d s
  | .updApplyDone ownCheckOk flashError => Sys2Proof.Machine.execUpdApplyDone ownCheckOk flashError s
  | .updActivate src d => Sys2Proof.Machine.execUpdActivate src d s
  | .updCommitVersion src d cut => Sys2Proof.Machine.execUpdCommitVersion src d s cut
  | .settingsReset src d => Sys2Proof.Machine.execSettingsReset src d s
  | .sessionExpiry => Sys2Proof.Machine.execSessionExpiry s
  | .pieceWant => Sys2Proof.Machine.execPieceWant s
  | .pieceData => Sys2Proof.Machine.execPieceData s
  | .pieceResult => Sys2Proof.Machine.execPieceResult s
  | .cntCfgWrite g k v => Sys2Proof.Machine.execCntCfgWrite g k v s
  | .clearGroup g => Sys2Proof.Machine.execClearGroup g s
  | .sweep busy => Sys2Proof.Machine.execSweep s busy
  | .whistleFire => Sys2Proof.Machine.execWhistleFire s
  | .whistleAtReached => Sys2Proof.Machine.execWhistleAtReached s
  | .whistleSetReady busy => Sys2Proof.Machine.execWhistleSetReady s busy
  | .whistleRelease => Sys2Proof.Machine.execWhistleRelease s
  | .traceTimeout slot => Sys2Proof.Machine.execTraceTimeout slot s
  | .traceDisable => Sys2Proof.Machine.execTraceDisable s
  | .traceMsiTimer => Sys2Proof.Machine.execTraceMsiTimer s
  | .timeAdjGo step => Sys2Proof.Machine.execTimeAdjGo step s
  | .timeStep => Sys2Proof.Machine.execTimeStep s
  | .ppsInEdge => Sys2Proof.Machine.execPpsInEdge s
  | .ppsLost => Sys2Proof.Machine.execPpsLost s
  | .ppsOutRise => Sys2Proof.Machine.execPpsOutRise s
  | .pdEnable n on => Sys2Proof.Machine.execPdEnable n on s
  | .pdRampSlotTake lowRail => Sys2Proof.Machine.execPdRampSlotTake lowRail s
  | .pdStartDone n => Sys2Proof.Machine.execPdStartDone n s
  | .pdStopDone n => Sys2Proof.Machine.execPdStopDone n s
  | .jtagExtest tdi => Sys2Proof.Machine.execJtagExtest tdi s
  | .jtagIdcode => Sys2Proof.Machine.execJtagIdcode s
  | .jtagSamplePreload pins tdi => Sys2Proof.Machine.execJtagSamplePreload pins tdi s
  | .jtagClamp => Sys2Proof.Machine.execJtagClamp s
  | .jtagHighz => Sys2Proof.Machine.execJtagHighz s
  | .jtagDebug img => Sys2Proof.Machine.execJtagDebug s img
  | .jtagBypass => Sys2Proof.Machine.execJtagBypass s
  | .jtagTrst => Sys2Proof.Machine.execJtagTrst s
  | .illegal c t w => Sys2Proof.Machine.execIllegal c t w s
  | .peerExpiry => Sys2Proof.Machine.execPeerExpiry s
  | .taskStartDone t => Sys2Proof.Machine.execTaskStartDone t s
  | .perstRelease => Sys2Proof.Machine.execPerstRelease s
  | .msixVectorUnmask fn vec => Sys2Proof.Machine.execMsixVectorUnmask fn vec s

end Sys2Proof.Machine
end

