-- ==== Sys2Proof/Machine/FlashMap.lean ====
section
/-! DEFINITION. The flash as bytes: its areas, and the records in them (R519, R520, R536, R538, R544, R554, R561). -/

namespace Sys2Proof.Machine

/-- A digest as bytes, its first byte first. -/
def digestBytes (d : BitVec 384) : List Byte := natBE 48 d.toNat

/-- A header record (R520, R544): 4 KiB, with the digest of its first 4,064 bytes, truncated to 32 bytes, at the end. -/
def Hdr.bytes (h : Hdr) : List Byte :=
  let body := padTo 4064 (natLE 4 0x564B4844 ++ natLE 2 1 ++ natLE 1 (if h.active then 1 else 0) ++ natLE 1 h.failCount ++
    natLE 8 h.seq ++ natLE 1 h.stateA ++ natLE 1 h.stateB ++ natLE 1 h.reasonA ++ natLE 1 h.reasonB ++
    digestBytes h.digestA ++ digestBytes h.digestB ++ natLE 1 h.secverA ++ natLE 1 h.secverB)
  body ++ (digestBytes (sha384 body)).take 32

/-- The body of a settings copy: records of type, length and a value padded to 4 bytes (R561). -/
def settingsBody (records : List (Nat × List Byte)) : List Byte :=
  records.flatMap fun r => natLE 2 r.1 ++ natLE 2 r.2.length ++ padTo ((r.2.length + 3) / 4 * 4) r.2

/-- A settings copy (R561): a header of 128 bytes and the body; the bytes of one that is not valid are not held. -/
def Settings.bytes : Settings → Option (List Byte)
  | .erased => some []
  | .invalid => none
  | .valid schema seq records =>
    let body := settingsBody records
    some (padTo 128 (padTo 8 (natLE 4 0x564B5354 ++ natLE 2 schema.toNat) ++ natLE 8 seq ++
      padTo 16 (natLE 4 body.length) ++ digestBytes (sha384 body)) ++ body)

/-- A session record (R554), with the digest of its first 128 bytes; one without a session has state 0 (R566).
DESIGN CHOICE, log entry 80. -/
def sessionRecord (n : Nat) (u : Option Session) : List Byte :=
  let body := match u with
    | some u => padTo 8 (natLE 4 0x564B5553 ++ natLE 1 u.state) ++ natLE 8 n ++ digestBytes u.target ++
        digestBytes u.base ++ padTo 4 (natLE 1 u.holder ++ natLE 1 u.kind ++ natLE 1 u.dest) ++
        natLE 4 u.pieceCount ++ natLE 8 u.lastActivity
    | none => padTo 8 (natLE 4 0x564B5553) ++ natLE 8 n
  let body := padTo 128 body
  body ++ digestBytes (sha384 body)

/-- The areas of the flash (R519). -/
inductive FlashArea
  | header
  | slot (b : Bool)
  | playbook (n : Nat)
  | settings (k : Nat)
  | log
  | life
  | staging
  | spare
  deriving DecidableEq, Repr

/-- The area that holds an offset, and the offset in it (R519). -/
def flashArea (off : Nat) : FlashArea × Nat :=
  if off < 0x10000 then (.header, off)
  else if off < 0x4010000 then (.slot false, off - 0x10000)
  else if off < 0x8010000 then (.slot true, off - 0x4010000)
  else if off < 0x14010000 then (.playbook ((off - 0x8010000) / 0x3000000), (off - 0x8010000) % 0x3000000)
  else if off < 0x14210000 then (.settings ((off - 0x14010000) / 0x100000), (off - 0x14010000) % 0x100000)
  else if off < 0x15210000 then (.log, off - 0x14210000)
  else if off < 0x15310000 then (.life, off - 0x15210000)
  else if off < 0x19310000 then (.staging, off - 0x15310000)
  else (.spare, off - 0x19310000)

/-- The device that holds an offset, by its chip select, and the offset in that device (R519). -/
def Flash.select (f : Flash) (off : Nat) : Option (Nat × Nat) :=
  if off < f.cs0 then some (0, off) else if off < f.cs0 + f.cs1 then some (1, off - f.cs0) else none

/-- A byte of a record that begins an area; flash that is erased reads as ones. -/
def recordByte (bs : Option (List Byte)) (o : Nat) : Option Byte := bs.map fun bs => bs.getD o 0xFF

/-- A byte of the staging area (R554); a piece's sector beyond its bytes is erased. -/
def Flash.stagingByte (f : Flash) (bitmap : List Byte) (o : Nat) : Byte :=
  let sector := o / 0x10000
  if sector < 2 then
    match SMap.find? f.recs (o / 0x1000) with
    | some r => (sessionRecord r.1 r.2).getD (o % 0x1000) 0xFF
    | none => 0xFF
  else if sector = 2 then bitmap.getD (o - 0x20000) 0xFF
  else if sector = 3 then (((f.session.orElse fun _ => f.retained).map (·.manifest)).getD []).getD (o - 0x30000) 0xFF
  else ((SMap.find? f.pieces (sector - 4)).getD []).getD (o % 0x10000) 0xFF

/-- A byte of the flash (R519); none where its content is not held: a header or settings copy that is not valid, a half of
the lifetime record that is not, and the spare area. -/
def State.flashByte (s : State) (off : Nat) : Option Byte :=
  let f := s.flash
  match flashArea off with
  | (.header, o) => recordByte ((if o < 0x8000 then f.hdr0 else f.hdr1).map Hdr.bytes) (o % 0x8000)
  | (.slot b, o) => some ((if b then f.slotB else f.slotA).getD o 0xFF)
  | (.playbook n, o) => some ((SMap.get [] f.playbooks n).getD o 0xFF)
  | (.settings k, o) => recordByte (if k = 0 then f.set0 else f.set1).bytes o
  | (.log, o) => some (((SMap.find? f.log (o / 64)).map LogEntry.bytes).getD [] |>.getD (o % 64) 0xFF)
  | (.life, o) => recordByte
      ((if o < 0x80000 then f.life0 else f.life1).map fun l => Config.lifeBytes (l.1 :: l.2.scalars)) (o % 0x80000)
  | (.staging, o) => some (f.stagingByte s.stagingBitmap o)
  | (.spare, _) => none

end Sys2Proof.Machine
end

