-- ==== Sys2Proof/WellFormed.lean ====
section
/-! DEFINITION. Well-formed commands: the bounds of operands that their types do not give. -/

namespace Sys2Proof

/-- A virtual function's number is 1-63 (R490). -/
def Fn.wf : Fn → Bool
  | .pf _ => true
  | .vf v => v != 0

/-- A register access names a BAR that its function implements (R491). -/
def Access.wf (a : Access) : Bool :=
  match a.who with
  | .mgmt => true
  | .host (.pf _) b => b != .bar2
  | .host (.vf v) _ => v != 0

/-- Data of a device read are of the length asked for. -/
def DmaRead.wf (len : Nat) : DmaRead → Bool
  | .data bs => bs.length == len
  | .failed _ => true

/-- An image reads settings majors of one byte and migrates only majors it reads (R561, R562). -/
def ImageInfo.wf (i : ImageInfo) : Bool :=
  i.reads.all (· < 256) && i.migrates.all i.reads.contains

/-- A core program fits its cluster's memories (R68, R116). -/
def CoreProgram.wf (p : CoreProgram) : Bool :=
  decide (p.words.length ≤ 131072) && decide (p.shared.length ≤ 1048576) && decide (p.chanCfg.length ≤ 64) &&
    decide (p.evtCfg.length ≤ 32)

/-- A playbook names at most three compatible step_ids (R452, R488), one program for a cluster, and base-table operations of
64 bytes each, at most as many as a batch may hold (R218, R220). -/
def PlaybookInfo.wf (p : PlaybookInfo) : Bool :=
  decide (p.compatible.length ≤ 3) && p.programs.all CoreProgram.wf &&
    decide ((p.programs.map fun g => g.cluster.val).Nodup) &&
    p.baseOps.all (·.length == 64) && decide (p.baseOps.length ≤ 65536)

/-- The operands of a command are of the form its row gives them. -/
def Instr.wf : Instr → Bool
  | .registerWrite a _ | .readClearAccess a | .narrowUnalignedAccess a .. | .poisonedWrite a => a.wf
  | .rxFrameStart _ frame => decide (0 < frame.length)
  | .fabricCellReceive _ _ payload => payload.length == 256
  | .rallyFrameReceive _ _ payload => payload.length == 256
  | .hbmRequest _ _ _ _ (some bs) more => bs.length == 64 * (more.val + 1)
  | .txnBatchTake desc header _ => desc.wf 64 && header.wf 64
  | .injectDescriptor desc _ => desc.wf 64
  | .flr fn => fn.wf
  | .msixVectorUnmask fn _ => fn.wf
  | .stageImageLoad a b => a.wf && b.wf
  | .stagePlaybookRead pb => pb.wf
  | .mgmtRestart image _ programs => image.wf && (programs.getD []).all CoreProgram.wf
  | .avsCheck margins _ => margins.length == 32
  | .puntDeliver descs => descs.all (DmaRead.wf 64)
  | .pdRampSlotTake (some (i, _)) => decide (48 ≤ i.val) && decide (i.val < 112)
  | _ => true

end Sys2Proof
end

