-- ==== Sys2Proof/Safety.lean ====
section
/-! DEFINITION. What counts as a safe state and a safe run of the device: its memories and its register store in their
canonical forms, its waiting commands well-formed, its threads in their bounds, and steps that neither fault nor are
refused; and which parts of the state the commands of each unit may change. -/

namespace Sys2Proof.Machine

/-- The memories of a thread are in canonical form. -/
def Thread.memOk (t : Thread) : Bool := t.hdr.wf && t.scratch.wf && t.prepend.wf

/-- Every addressed memory of the device is in canonical form: shared memory, channel memory, the program-data window,
the rule memory and HBM, and the header window, scratch and prepend area of every thread. -/
def State.memoriesOk (s : State) : Bool :=
  s.fpc.shared.wf && s.fpc.chanMem.wf && s.fpc.pdata.wf && s.cls.rules.wf && s.hbm.mem.wf &&
    s.fpc.threads.all fun e => e.2.memOk

/-- What a thread holds stays in its bounds: its pc names a word of instruction SRAM (R68), and it has at most four live
reservations (R91), 32 deferred updates (R146) and four mirrors (R150). -/
def Thread.boundsOk (t : Thread) : Bool :=
  decide (t.pc < 131072) && decide (t.live.length ≤ 4) && decide (t.deferred.length ≤ 32) &&
    decide (t.mirrors.length ≤ 4)

/-- Every thread stays in its bounds, and has at most four DMAs under way (R141). -/
def State.threadsOk (s : State) : Bool :=
  (s.fpc.threads.all fun e => e.2.boundsOk) &&
    s.fpc.dmas.all fun d => decide ((s.fpc.dmas.filter fun x => x.cluster == d.cluster && x.thread == d.thread).length ≤ 4)

/-- The register stored at an offset is not listed with its reset value, and offsets rise. -/
def regsOkFrom : Nat → SMap Word → Bool
  | _, [] => true
  | b, (off, v) :: l =>
    decide (b ≤ off) && regsOkFrom (off + 1) l &&
      (match findReg off with
       | some (r, ix) => r.addr ix == off && v != r.resetValue ix
       | none => false)

/-- The register store is in canonical form. -/
def State.regsOk (s : State) : Bool := regsOkFrom 0 s.regs

/-- The waiting commands have well-formed operands. -/
def State.pendingOk (s : State) : Bool := s.pending.all Instr.wf

/-- A state is safe. -/
def State.safe (s : State) : Bool := s.memoriesOk && s.threadsOk && s.regsOk && s.pendingOk

/-- The unit that a command belongs to; `whole` for the commands that may clear or reset the device, or act for several
units. -/
inductive Family
  | access | jtag | line | kryx | cluster | forwarding | table | engine | queue | fabric | hbm | ring | d2d | counter
  | management | twin | domain | whole
  deriving DecidableEq, Repr

/-- The unit of a command. -/
def familyOf : Instr → Family
  | .readClearAccess .. | .narrowUnalignedAccess .. | .poisonedWrite .. => .access
  | .jtagExtest .. | .jtagIdcode .. | .jtagSamplePreload .. | .jtagClamp .. | .jtagHighz .. | .jtagDebug ..
  | .jtagBypass .. | .jtagTrst .. => .jtag
  | .rxFrameStart .. | .pauseRefresh .. | .pauseReceive .. | .pfcReceive .. | .pauseExpiry .. | .rxFrameEnd ..
  | .txFrame .. | .tsFifoPop .. | .portEnable .. | .portStartDone .. | .linkUp .. | .linkDown ..
  | .portStopDone .. => .line
  | .add .. | .sub .. | .and .. | .or .. | .xor .. | .shl .. | .shr .. | .sar .. | .rotr .. | .slt .. | .sltu ..
  | .minu .. | .maxu .. | .mul .. | .mulhu .. | .csum .. | .popc .. | .clz .. | .bswap .. | .bswap32 .. | .bswap16 ..
  | .addi .. | .andi .. | .ori .. | .xori .. | .shi .. | .lui .. | .slti .. | .sltiu .. | .ext .. | .exts .. | .ins ..
  | .mask .. | .bcc .. | .j .. | .jal .. | .jr .. | .hld .. | .hst .. | .movmg .. | .movgm .. | .lread .. | .ld ..
  | .st .. | .amoAdd .. | .amoAnd .. | .amoOr .. | .amoXor .. | .amoSwap .. | .amoMaxu .. | .amoMinu .. | .amoCas ..
  | .fence .. | .cinv .. | .dma .. | .lkp .. | .lkw .. | .passRes .. | .passCommit .. | .passRecv .. | .signal ..
  | .wait .. | .nop .. | .yield .. | .halt .. | .rnd .. | .score .. | .cntAdd .. | .cntAddn .. | .polChg .. | .lrn ..
  | .dcmt .. | .emit .. | .drop .. | .punt .. | .mirror .. | .illegal .. => .kryx
  | .dispatch .. | .inputQueueDispatch .. | .dcacheLineFill .. | .rosterWrite .. | .dmaComplete ..
  | .remoteOpArrive .. | .coreFail .. | .deadBall .. | .dbResume .. | .longWait .. | .dbgHalt .. | .dbgResume ..
  | .dbgStep .. | .releaseSlot .. | .clusterEnable .. | .clusterStartDone .. | .clusterDrainLimit ..
  | .clusterStopDone .. => .cluster
  | .parserEntry .. | .parseResume .. | .parseNodeRewrite .. | .orderPositionFree .. | .orderRelease ..
  | .orderSkip .. | .lookupResult .. | .commitComplete .. | .policerCharge .. | .puntDeliver .. | .injectDescriptor ..
  | .injectEntry .. => .forwarding
  | .lpmInsert .. | .lpmDelete .. | .lpmModify .. | .exmInsert .. | .exmDelete .. | .exmModify .. | .fbkInsert ..
  | .fbkDelete .. | .fbkModify .. | .fbkTemplateWrite .. | .parseWrite .. | .nhopWrite .. | .groupDescWrite ..
  | .poolSlotWrite .. | .groupFill .. | .defaultDataWrite .. | .counterClear .. | .ageTick .. | .tcamWrite ..
  | .tcamDelete .. | .tcamInsert .. | .dtcInsert .. | .dtcDelete .. | .dtcNodeWrite .. | .dtcRuleWrite ..
  | .dtcRootWrite .. | .queueWrite .. | .schedWrite .. | .shaperWrite .. | .excPolicerWrite ..
  | .gateEntryWrite .. | .gateControlWrite .. | .auditStep .. | .tcamScrub .. => .table
  | .txnBatchTake .. | .txnWaitTimeout .. | .entryStateRelease .. | .ageWalkStep .. => .engine
  | .admission .. | .spillStep .. | .spillWriteDone .. | .refillReadDone .. | .mirrorRecordReadDone ..
  | .queueStartDone .. | .queueFlushDone .. | .portSelection .. | .ingressSelection .. | .creditHoldExpiry ..
  | .shaperRefill .. | .gateListSwitch .. => .queue
  | .dataCellReceive .. | .fabricCellReceive .. | .fabricRequest .. | .fabricGrant .. | .grantIssue ..
  | .flowEntryExpiry .. | .requestInterval .. | .ctrlFlush .. | .cellHandoff .. | .reasmTimeout .. | .linkHello ..
  | .linkReach .. | .linkSync .. | .linkCredit .. | .linkStatusSend .. | .reachRefresh .. | .laneEnable ..
  | .laneSignalDone .. | .laneSignalTimeout .. | .laneHelloSend .. | .laneHelloTimeout .. | .laneErrorRetrain ..
  | .laneStopDone .. => .fabric
  | .hbmRequest .. | .hbmSchedule .. | .hbmPromotion .. | .hbmReadDone .. | .hbmWriteDone .. | .rowIdleTimeout ..
  | .hbmRefresh .. | .caParityError .. | .capInfoRead .. | .channelRelease .. | .channelStopDone ..
  | .channelStartDone .. | .writePattern .. | .readCompare .. | .caLoopback .. | .setRdDelay .. | .setWrDelay ..
  | .setVref .. | .setCaDelay .. | .trainCommandDone .. | .oscCheck .. | .tempRetrain .. => .hbm
  | .ringDoorbell .. | .ringCidxWrite .. | .ringCfgWrite .. | .ringStartDone .. | .ringStopDone .. | .dmaReadError ..
  | .coalesceTimer .. | .vfRingsWrite .. | .flr .. | .perst .. | .perstRelease .. | .msixVectorUnmask .. => .ring
  | .d2dFlitReceive .. | .d2dReplayWindow .. | .d2dLaneLoss .. | .d2dModuleTrainDone .. => .d2d
  | .cntCfgWrite .. | .clearGroup .. | .sweep .. | .whistleFire .. | .whistleAtReached .. | .whistleSetReady ..
  | .whistleRelease .. | .traceTimeout .. | .traceDisable .. | .traceMsiTimer .. | .timeAdjGo .. | .ppsInEdge ..
  | .ppsLost .. | .ppsOutRise .. => .counter
  | .getInfo .. | .setOverride .. | .setTime .. | .logRead .. | .lifeRead .. | .sensorRead ..
  | .mailboxUnknownOpcode .. | .droopDetect .. | .logFlashWrite .. | .lifetimeWrite .. | .avsCheck ..
  | .deepScrubStart .. | .yearlyRecal .. | .serdesAdaptStep .. | .nvmWearStep .. | .taskEnable ..
  | .taskStopDone .. | .wdogKick .. | .taskStartDone .. | .updOpen .. | .updPiece .. | .updStatus .. | .updBitmap ..
  | .updCancel .. | .updApply .. | .updApplyDone .. | .updActivate .. | .sessionExpiry ..
  | .pieceWant .. | .pieceData .. | .pieceResult .. => .management
  | .rallyFrameReceive .. | .rallyResend .. | .rallyLost .. | .rallyLaneState .. | .rallyHello .. | .handover ..
  | .inStepEnable .. | .relinquish .. | .handoverTimeout .. | .umpireGrant .. | .umpirePeer .. | .heartbeatSend ..
  | .leaseExpiry .. | .peerExpiry .. | .rallyPkt .. | .rallyTxn .. | .rallyAbort .. | .rallyStaged ..
  | .stageTimeout .. | .rallyEvent .. | .rallyInject .. | .rallyTimeSend .. | .rallyTimeEcho .. | .rallyCheck ..
  | .foldWindowClose .. | .holding .. | .join .. | .leave .. | .resyncCopySend .. => .twin
  | .pdEnable .. | .pdRampSlotTake .. | .pdStartDone .. | .pdStopDone .. => .domain
  | .registerWrite .. | .resetKeyWrite .. | .d2dControlSignal .. | .timeStep .. | .txnCommit .. | .commitWaitEnd ..
  | .heldCommitDeliver .. | .txnRegWrite .. | .rallyCommit .. | .copyDone .. | .rallyCopy .. | .powerGood ..
  | .pllLock .. | .pllLockLoss .. | .powerOnReset .. | .deviceReset .. | .resetRelease .. | .stageImageLoad ..
  | .stagePlaybookRead .. | .stageHbmTraining .. | .stageEngineLoad .. | .stageBaseTables .. | .stagePortEnable ..
  | .stageRunning .. | .bootStageTimeout .. | .slotAcceptance .. | .mgmtRestart .. | .avsLimit .. | .hbmScrubStep ..
  | .restart .. | .sensorSample .. | .wdogExpiry .. | .settingsReset .. | .policerWrite .. | .txnRead .. | .sramScrubStep ..
  | .updCommitVersion .. => .whole

/-- What a command of a unit leaves: every part of the state that is not named here is as it was. -/
def Family.leaves (f : Family) (s t : State) : Prop :=
  match f with
  | .access =>
    t = { s with out := t.out, regs := t.regs, host := t.host, mgmt := t.mgmt, line := t.line, tm := t.tm }
  | .jtag =>
    t = { s with out := t.out, boot := t.boot, pwr := t.pwr }
  | .line =>
    t = { s with out := t.out, regs := t.regs, host := t.host, mgmt := t.mgmt, cnt := t.cnt, pwr := t.pwr,
                 line := t.line, twin := t.twin, tm := t.tm }
  | .kryx =>
    t = { s with out := t.out, regs := t.regs, host := t.host, mgmt := t.mgmt, cnt := t.cnt, fpc := t.fpc,
                 twin := t.twin }
  | .cluster =>
    t = { s with freeCount := t.freeCount, out := t.out, regs := t.regs, host := t.host, mgmt := t.mgmt,
                 cnt := t.cnt, pwr := t.pwr, fpc := t.fpc, tab := t.tab, cls := t.cls, twin := t.twin, tm := t.tm,
                 hbm := t.hbm }
  | .forwarding =>
    t = { s with freeCount := t.freeCount, out := t.out, regs := t.regs, host := t.host, mgmt := t.mgmt,
                 cnt := t.cnt, fpc := t.fpc, tab := t.tab, line := t.line, cls := t.cls, pols := t.pols,
                 twin := t.twin, adm := t.adm, tm := t.tm, hbm := t.hbm }
  | .table =>
    t = { s with freeCount := t.freeCount, out := t.out, regs := t.regs, host := t.host, mgmt := t.mgmt,
                 cnt := t.cnt, fpc := t.fpc, tab := t.tab, cls := t.cls, twin := t.twin, tm := t.tm, hbm := t.hbm }
  | .engine =>
    t = { s with freeCount := t.freeCount, out := t.out, regs := t.regs, host := t.host, boot := t.boot,
                 mgmt := t.mgmt, cnt := t.cnt, fpc := t.fpc, tab := t.tab, cls := t.cls,
                 twin := t.twin, tm := t.tm }
  | .queue =>
    t = { s with freeCount := t.freeCount, out := t.out, regs := t.regs, host := t.host, mgmt := t.mgmt,
                 cnt := t.cnt, pwr := t.pwr, fpc := t.fpc, tab := t.tab, cls := t.cls, twin := t.twin, adm := t.adm,
                 tm := t.tm, hbm := t.hbm }
  | .fabric =>
    t = { s with freeCount := t.freeCount, out := t.out, regs := t.regs, host := t.host, mgmt := t.mgmt,
                 cnt := t.cnt, pwr := t.pwr, adm := t.adm, tm := t.tm }
  | .hbm =>
    t = { s with freeCount := t.freeCount, out := t.out, regs := t.regs, host := t.host, mgmt := t.mgmt,
                 cnt := t.cnt, fpc := t.fpc, tab := t.tab, cls := t.cls, twin := t.twin, tm := t.tm, hbm := t.hbm }
  | .ring =>
    t = { s with freeCount := t.freeCount, out := t.out, regs := t.regs, host := t.host, mgmt := t.mgmt,
                 tab := t.tab }
  | .d2d =>
    t = { s with out := t.out, regs := t.regs, host := t.host, mgmt := t.mgmt, cnt := t.cnt, d2d := t.d2d }
  | .counter =>
    t = { s with freeCount := t.freeCount, out := t.out, regs := t.regs, host := t.host, mgmt := t.mgmt,
                 cnt := t.cnt, pwr := t.pwr, d2d := t.d2d }
  | .management =>
    t = { s with freeCount := t.freeCount, out := t.out, regs := t.regs, host := t.host, flash := t.flash,
                 mgmt := t.mgmt, cnt := t.cnt, pwr := t.pwr, twin := t.twin }
  | .twin =>
    t = { s with freeCount := t.freeCount, out := t.out, regs := t.regs, host := t.host, mgmt := t.mgmt,
                 cnt := t.cnt, pwr := t.pwr, fpc := t.fpc, tab := t.tab, line := t.line, cls := t.cls,
                 pols := t.pols, twin := t.twin, adm := t.adm, tm := t.tm }
  | .domain =>
    t = { s with out := t.out, regs := t.regs, host := t.host, mgmt := t.mgmt, cnt := t.cnt, pwr := t.pwr,
                 fpc := t.fpc, tab := t.tab, twin := t.twin, tm := t.tm, hbm := t.hbm }
  | .whole => True

/-- `k` steps from a state end in a next state. -/
def Runs (k : Nat) (s t : State) : Prop := Sys2Proof.core.run k s = .next t

end Sys2Proof.Machine
end

