-- ==== Sys2Proof/Certificates/Slice0/Obligations.lean ====
section
/-! DEFINITION. The statements for the provers: what the commands do, by the rules of the spec, family by family, and
what every command keeps. -/

open Sys2Proof Sys2Proof.Machine

/-- The command completes: it answers a next state, and the next state has the property. -/
def Sys2Proof.Machine.Effects (c : Instr) (s : State) (P : State → Prop) : Prop := ∃ t, exec c s = .next t ∧ P t

/-- Thread `th` of cluster `c` is RUNNING, is not being stepped, and the word at its pc holds no error that stands (R85,
R111, R120). -/
def Sys2Proof.Machine.State.running (s : State) (c : Fin 32) (th : Fin 128) : Prop :=
  (s.th c th).state = 2 ∧ (s.th c th).stepping = false ∧ s.fetchFails c th .clean = false

/-! ### Register accesses (R6 to R12, R489, R508, R526) -/

/-- An aligned access that reaches the BAR0 map: the management cores' outside a reset, or the host's through PF0 BAR0
with PERST_N released and BOOT_STATUS.ready set (R505, R518). -/
def Sys2Proof.Machine.State.reaches (s : State) (a : Access) : Bool :=
  !s.pwr.inReset && a.off.toNat % 8 == 0 &&
    (a.who == .mgmt || (a.who == .host (.pf 0) .bar0 && !s.host.perst &&
      s.flag .glb_BOOT_STATUS [] f_glb_BOOT_STATUS_ready))

/-- Registers whose write has behaviour of its own beside storing bits. -/
def Sys2Proof.Machine.ownWrite (r : Reg) : Bool :=
  match r with
  | .cpr_TIME_ADJ | .cpr_RESET_CTRL | .cpr_WDOG | .cpr_PD_CTRL | .gkp_TASK_CFG | .pci_VF_RINGS | .pci_RING_BASE
  | .pci_RING_CFG | .pci_RING_PIDX | .pci_RING_CIDX | .pci_RING_WB | .twn_CTRL | .twn_HEALTH_WT | .skp_CNT_CFG
  | .skp_CLEAR | .skp_WHISTLE_CTRL | .skp_WHISTLE_AT | .skp_TRACE_CFG | .skp_TRACE_CIDX | .lmac_PORT_CTRL
  | .lmac_PORT_FC | .fbk_TMPL | .dsp_DISP_CFG | .fpc_CL_CTRL | .fpc_DBG_CTRL | .fpc_ROSTER | .msc_SA_PN | .fab_LANE_EN
  | .tm_hmc_CH_CTRL | .fe_hmc_CH_CTRL | .tm_hmc_TRAIN_CTRL | .fe_hmc_TRAIN_CTRL => true
  | r => stepRestricted r

/-- Registers whose read shows a value that is not stored, or does more than clear RC fields. -/
def Sys2Proof.Machine.ownRead (r : Reg) : Bool :=
  match r with
  | .glb_BOOT_STATUS | .glb_LC_SUMMARY | .cpr_TIME | .fpc_THREAD_STATE | .tgt_PORT_STATUS | .lmac_TS_FIFO
  | .lmac_PORT_STATUS | .qmg_CH_STATUS | .fbk_TMPL | .qmg_WM_PEAK | .tm_hmc_CAP_INFO | .fe_hmc_CAP_INFO => true
  | _ => false

/-- REGISTER_WRITE to a register without behaviour of its own (R8, R9, R10): an RW field takes the written bits, a bit of
a W1C field is cleared by a 1 and kept by a 0, RO and RC fields keep their values, and nothing else changes; a template word
takes the bits that R185 gives it; a write where no register stands changes nothing. -/
def Obligations.PlainRegisterWriteFollowsFieldTypes : Prop :=
  ∀ (s : State) (a : Access) (v : Word), s.reaches a = true → s.tmClosed a.off.toNat = false →
    (∀ r ix, findReg a.off.toNat = some (r, ix) → ownWrite r = false → s.sealsOff r = false →
      Effects (.registerWrite a v) s fun t =>
        (∀ e ∈ r.row.fields, ∀ i < e.1.width,
          (e.1.get (t.rd r ix)).testBit i =
            match e.2 with
            | .rw => (e.1.get v).testBit i
            | .w1c => (e.1.get (s.rd r ix)).testBit i && !(e.1.get v).testBit i
            | .ro | .rc => (e.1.get (s.rd r ix)).testBit i
            | .wo | .w1s => (e.1.get (t.rd r ix)).testBit i) ∧
        (∀ r' ix', r'.addr ix' ≠ a.off.toNat → t.rd r' ix' = s.rd r' ix') ∧ { t with regs := s.regs } = s) ∧
    (∀ n w, findReg a.off.toNat = some (.fbk_TMPL, [n, w]) → s.boot.sealed = false →
      Effects (.registerWrite a v) s fun t =>
        t.rd .fbk_TMPL [n, w] &&& templateBits w = v &&& templateBits w ∧
        (∀ r' ix', r'.addr ix' ≠ a.off.toNat → t.rd r' ix' = s.rd r' ix') ∧ { t with regs := s.regs } = s) ∧
    (findReg a.off.toNat = none → exec (.registerWrite a v) s = .next s)

/-- READ_CLEAR_ACCESS (R8, R9, R185, R319, R374): the data show each field's value, or zero for WO fields; RC fields are zero
afterwards, and nothing else changes; a template word shows the bits R185 gives it, and rx_paused and a channel's free and held
blocks show what holds now; an address that holds no register reads zero, and a write to it is discarded. -/
def Obligations.RegisterReadShowsFieldsAndClearsRc : Prop :=
  ∀ (s : State) (a : Access), s.reaches a = true → s.tmClosed a.off.toNat = false →
    (∀ r ix, findReg a.off.toNat = some (r, ix) → regHeld r ix = true → ownRead r = false →
      Effects (.readClearAccess a) s fun t =>
        ∃ w, t.out = .readData w :: s.out ∧
        (∀ e ∈ r.row.fields,
          (e.2 ≠ .wo → e.2 ≠ .w1s → e.1.get w = e.1.get (s.rd r ix)) ∧ (e.2 = .wo → e.1.get w = 0) ∧
          e.1.get (t.rd r ix) = if e.2 = .rc then 0 else e.1.get (s.rd r ix)) ∧
        (∀ r' ix', r'.addr ix' ≠ a.off.toNat → t.rd r' ix' = s.rd r' ix') ∧
        { t with regs := s.regs, out := s.out } = s) ∧
    (∀ n w, findReg a.off.toNat = some (.fbk_TMPL, [n, w]) → Effects (.readClearAccess a) s fun t =>
      t.out = .readData (s.rd .fbk_TMPL [n, w] &&& templateBits w) :: s.out ∧ ∀ r ix, t.rd r ix = s.rd r ix) ∧
    (∀ m, findReg a.off.toNat = some (.lmac_PORT_STATUS, [m]) → Effects (.readClearAccess a) s fun t =>
      ∃ w, t.out = .readData w :: s.out ∧ f_lmac_PORT_STATUS_rx_paused.get w = s.rxPaused m) ∧
    (∀ c, findReg a.off.toNat = some (.qmg_CH_STATUS, [c]) → Effects (.readClearAccess a) s fun t =>
      ∃ w, t.out = .readData w :: s.out ∧
      f_qmg_CH_STATUS_free_blocks.get w = s.chanFree c % 2 ^ f_qmg_CH_STATUS_free_blocks.width ∧
      f_qmg_CH_STATUS_held_blocks.get w =
        ((s.chanBlocks c).filter (·.2.2)).length % 2 ^ f_qmg_CH_STATUS_held_blocks.width) ∧
    (findReg a.off.toNat = none →
      Effects (.readClearAccess a) s fun t => t = { s with out := .readData 0 :: s.out } ∧
      ∀ v : Word, exec (.registerWrite a v) s = .next s)

/-- NARROW_UNALIGNED_ACCESS (R7): an access through PF0 BAR0 or of the management cores that is narrow or unaligned
returns all-ones or is discarded, and is counted and recorded in ERR_STATUS as kind 1 at its offset; the other
registers outside the PCI block, and every memory and queue, keep their values. -/
def Obligations.NarrowAccessIsDiscardedAndRecorded : Prop :=
  ∀ (s : State) (a : Access) (write : Bool), s.reaches { a with off := 0 } = true →
    Effects (.narrowUnalignedAccess a write) s fun t =>
      (write = false → .readData 0xFFFFFFFFFFFFFFFF ∈ t.out) ∧
      t.fld .pci_ERR_STATUS [] f_pci_ERR_STATUS_count =
        min (s.fld .pci_ERR_STATUS [] f_pci_ERR_STATUS_count + 1) 0xFFFF ∧
      t.fld .pci_ERR_STATUS [] f_pci_ERR_STATUS_last_kind = 1 ∧
      t.fld .pci_ERR_STATUS [] f_pci_ERR_STATUS_last_offset = a.off.toNat ∧
      (∀ r ix, r.addr ix < 0x300000 ∨ 0x400000 ≤ r.addr ix → t.rd r ix = s.rd r ix) ∧
      t.fpc = s.fpc ∧ t.tm = s.tm ∧ t.hbm = s.hbm ∧ t.pending = s.pending

/-- Accesses that are turned away are recorded by kind (R18, R489, R508, R526): a poisoned write of the host is kind 5, a
write to a register that is sealed kind 3, and an access to the Shoilany range while the die-to-die link is FAILED kind
2, where a read returns all-ones; no register outside the PCI block changes. -/
def Obligations.RefusedAccessesAreRecordedByKind : Prop :=
  ∀ (s : State) (a : Access) (v : Word), s.reaches a = true →
    let recorded (kind : Nat) (t : State) : Prop :=
      t.fld .pci_ERR_STATUS [] f_pci_ERR_STATUS_last_kind = kind ∧
      t.fld .pci_ERR_STATUS [] f_pci_ERR_STATUS_count =
        min (s.fld .pci_ERR_STATUS [] f_pci_ERR_STATUS_count + 1) 0xFFFF ∧
      t.fld .pci_ERR_STATUS [] f_pci_ERR_STATUS_last_offset = a.off.toNat ∧
      ∀ r ix, r.addr ix < 0x300000 ∨ 0x400000 ≤ r.addr ix → t.rd r ix = s.rd r ix
    (a.who ≠ .mgmt → Effects (.poisonedWrite a) s (recorded 5)) ∧
    (∀ r ix, findReg a.off.toNat = some (r, ix) → s.boot.sealed = true →
      r.row.sealing = .sealed ∨ r.row.sealing = .txnOnly → s.tmClosed a.off.toNat = false →
      Effects (.registerWrite a v) s (recorded 3)) ∧
    (s.d2dHealth = 2 → 0x2000000 ≤ a.off.toNat →
      Effects (.registerWrite a v) s (recorded 2) ∧
      Effects (.readClearAccess a) s fun t => recorded 2 t ∧ .readData 0xFFFFFFFFFFFFFFFF ∈ t.out)

/-! ### The die-to-die link (R16 to R21) -/

/-- The spare lanes in use of a direction (R20). -/
def Sys2Proof.Machine.sparesFld : D2dDir → Fld
  | .toShoilany => f_d2d_MOD_STATUS_tx_spares_used
  | .toPyrlys => f_d2d_MOD_STATUS_rx_spares_used

/-- The commands of the die-to-die link on a module that is UP or training (R16, R17, R20, R21): a flit with a bad CRC is
counted and replayed and is not restored to order; a good one in order advances the order of its direction alone, and
one ahead of it is held; a window past one replay in 10⁶ flits, or a lane lost with four spares in use, starts
retraining, where a module is still UP the flits in flight are replayed on others that are; training ends in UP, or, at the third failure in succession, in RETIRED with the lifetime record's entry; the
first good copy of a control signal alone is acted on: a time adjustment is taken over, a reset resets the dies, a
whistle latches the counters. -/
def Obligations.D2dLinkCommandsComplete : Prop :=
  ∀ (s : State) (m : Fin 40) (n : Nat) (dir : D2dDir) (at' : Word) (step : BitVec 48)
    (inFlight : List Nat) (sig : D2dSignal) (crcOk : Bool),
    (s.d2dMod m = 2 →
      (Effects (.d2dFlitReceive m dir false n) s fun t =>
        .d2dReplay m n ∈ t.out ∧ t.d2d.rxTm = s.d2d.rxTm ∧ t.d2d.rxFe = s.d2d.rxFe ∧
        t.fld .d2d_MOD_ERR [m] f_d2d_MOD_ERR_crc_errors =
          min (s.fld .d2d_MOD_ERR [m] f_d2d_MOD_ERR_crc_errors + 1) (2 ^ 32 - 1) ∧
        t.fld .d2d_MOD_ERR [m] f_d2d_MOD_ERR_replays =
          min (s.fld .d2d_MOD_ERR [m] f_d2d_MOD_ERR_replays + 1) (2 ^ 32 - 1)) ∧
      (n = s.d2d.rxTm.next → s.d2d.rxTm.ahead = [] →
        Effects (.d2dFlitReceive m .toShoilany true n) s fun t =>
          t.d2d.rxTm.next = n + 1 ∧ t.d2d.rxFe = s.d2d.rxFe ∧ t.regs = s.regs) ∧
      (n = s.d2d.rxFe.next → s.d2d.rxFe.ahead = [] →
        Effects (.d2dFlitReceive m .toPyrlys true n) s fun t =>
          t.d2d.rxFe.next = n + 1 ∧ t.d2d.rxTm = s.d2d.rxTm ∧ t.regs = s.regs) ∧
      (s.d2d.rxTm.next < n → n ∉ s.d2d.rxTm.ahead → s.d2d.rxTm.next ∉ s.d2d.rxTm.ahead →
        Effects (.d2dFlitReceive m .toShoilany true n) s fun t =>
          t.d2d.rxTm.next = s.d2d.rxTm.next ∧ n ∈ t.d2d.rxTm.ahead) ∧
      (s.passed (SMap.get {} s.d2d.modules m.val).winSince (10000 * cyclesPerUs) = true →
        Effects (.d2dReplayWindow m inFlight) s fun t =>
          t.d2dMod m =
            if (SMap.get {} s.d2d.modules m.val).winFlits < (SMap.get {} s.d2d.modules m.val).winReplays * 1000000
            then 3 else 2) ∧
      (Effects (.d2dLaneLoss m dir inFlight) s fun t =>
        if s.fld .d2d_MOD_STATUS [m] (sparesFld dir) < 4 then
          t.d2dMod m = 2 ∧
          t.fld .d2d_MOD_STATUS [m] (sparesFld dir) = s.fld .d2d_MOD_STATUS [m] (sparesFld dir) + 1 ∧
          t.fld .d2d_STATUS [] f_d2d_STATUS_lanes_repaired =
            min (s.fld .d2d_STATUS [] f_d2d_STATUS_lanes_repaired + 1) 511
        else
          t.d2dMod m = 3 ∧
          ((∃ k < 40, k ≠ m.val ∧ s.d2dMod k = 2) →
            ∀ x ∈ inFlight, ∃ k < 40, k ≠ m.val ∧ s.d2dMod k = 2 ∧ .d2dReplay k x ∈ t.out))) ∧
    (s.d2dMod m = 1 ∨ s.d2dMod m = 3 →
      (Effects (.d2dModuleTrainDone m true) s fun t =>
        t.d2dMod m = 2 ∧ (SMap.get {} t.d2d.modules m.val).fails = 0) ∧
      (Effects (.d2dModuleTrainDone m false) s fun t =>
        (SMap.get {} t.d2d.modules m.val).fails = (SMap.get {} s.d2d.modules m.val).fails + 1 ∧
        if 2 ≤ (SMap.get {} s.d2d.modules m.val).fails then
          t.d2dMod m = 4 ∧ t.mgmt.life.retiredModules = s.mgmt.life.retiredModules ++ [m.val]
        else t.d2dMod m = s.d2dMod m)) ∧
    (s.pwr.inReset = false → s.d2dMod m = 2 → s.d2d.sigNext ≤ n →
      (Effects (.d2dControlSignal ⟨m, true, n, .timeAdjust at' step⟩) s fun t =>
        t.pwr.step = some (at'.toNat, step.toInt) ∧ t.flag .cpr_TIME_ADJ [] f_cpr_TIME_ADJ_pending = true ∧
        t.d2d.sigNext = n + 1) ∧
      (Effects (.d2dControlSignal ⟨m, true, n, .reset⟩) s fun t => t.pwr.inReset = true ∧ t.d2dMod m = 0) ∧
      (s.whistleState = 0 → Effects (.d2dControlSignal ⟨m, true, n, .whistle⟩) s fun t =>
        t.whistleState = 1 ∧ t.cnt.latched = s.cntView ∧ t.d2d.sigNext = n + 1)) ∧
    (s.pwr.inReset = true ∨ s.d2dMod m ≠ 2 ∨ crcOk = false ∨ n < s.d2d.sigNext → exec (.d2dControlSignal ⟨m, crcOk, n, sig⟩) s = .next s)

/-- After a module is trained, the link's health is FULL_RATE with 30 to 40 modules UP, LIMITED with 8 to 29 and FAILED
with 0 to 7, and STATUS shows how many are UP (R18, R19). -/
def Obligations.D2dHealthFollowsModulesUp : Prop :=
  ∀ (s : State) (m : Fin 40), s.d2dMod m = 1 ∨ s.d2dMod m = 3 →
    Effects (.d2dModuleTrainDone m true) s fun t =>
      (t.d2dHealth = 0 ↔ 30 ≤ t.d2dCount 2) ∧ (t.d2dHealth = 1 ↔ 8 ≤ t.d2dCount 2 ∧ t.d2dCount 2 < 30) ∧
      (t.d2dHealth = 2 ↔ t.d2dCount 2 < 8) ∧ t.fld .d2d_STATUS [] f_d2d_STATUS_modules_up = t.d2dCount 2 ∧
      t.d2dCount 2 = s.d2dCount 2 + 1

/-! ### Rings, MSI-X, punts and injects (R496 to R504, R514, R516) -/

/-- Where a ring that fails goes: to STOPPING, or, where it rests in ON with a stop pending, a cycle later (R503, R620). -/
def Sys2Proof.Machine.State.ringHalts (s : State) (r : Nat) : Nat :=
  if s.ringState r = 2 ∧ s.flag .pci_RING_STATUS [r] f_pci_RING_STATUS_stop_pending = true then 2 else 3

/-- RING_DOORBELL and RING_CIDX_WRITE (R497): while a ring is ON or STOPPING the written index is stored, and one that
is past the ring's size, or a PIDX that runs backward, stops the ring with OVERRUN, unless a Function Level Reset's code
stands (R504); while it is OFF or STARTING, or the BARs take no write (R505), the write is discarded. Completion rings are taken with a report whose submission ring is one. -/
def Obligations.RingIndexWritesAreStoredAndChecked : Prop :=
  ∀ (s : State) (r : Fin 2112) (i : BitVec 32),
    (s.barsOpen = false →
      exec (.ringDoorbell r i) s = .next s ∧ exec (.ringCidxWrite r i) s = .next s) ∧
    (s.barsOpen = true → hostPosted r = true → 2 ≤ s.ringState r →
      Effects (.ringDoorbell r i) s fun t =>
        t.ringPidx r = i.toNat ∧
        if 2 ^ 31 < (i.toNat + 2 ^ 32 - s.ringPidx r) % 2 ^ 32 ∨
            s.ringSize r < (i.toNat + 2 ^ 32 - s.ringCidx r) % 2 ^ 32 then
          t.ringErr r = (if s.ringErr r = 3 then 3 else 1) ∧ t.ringState r = s.ringHalts r
        else t.ringErr r = s.ringErr r ∧ t.ringState r = s.ringState r) ∧
    (s.barsOpen = true → hostPosted r = false → 2 ≤ s.ringState r → (∀ x, s.tab.report = some x → x.ring < 16) →
      Effects (.ringCidxWrite r i) s fun t =>
        t.ringCidx r = i.toNat ∧
        if s.ringSize r < (s.ringPidx r + 2 ^ 32 - i.toNat) % 2 ^ 32 then
          t.ringErr r = (if s.ringErr r = 3 then 3 else 1) ∧ t.ringState r = s.ringHalts r
        else t.ringErr r = s.ringErr r ∧ t.ringState r = s.ringState r) ∧
    (hostPosted r = true → s.ringState r < 2 → exec (.ringDoorbell r i) s = .next s) ∧
    (hostPosted r = false → s.ringState r < 2 → exec (.ringCidxWrite r i) s = .next s)

/-- The lifecycle of a ring (R497, R500, R503, R504): RING_CFG and RING_BASE are stored while the ring is OFF, and while
it runs only where the fixed fields keep their values, else the write is an access error of kind 4; a write that the BARs do
not take is discarded; a start zeroes the indices and err_code, but for a reset met in STARTING (R504), and ends ON, a stop ends OFF, and a ring that failed reads enable 0; a transition that is pending
begins after a cycle of rest; a failed descriptor read stops the ring with DMA_READ; a Function Level Reset stops the function's rings alone, and
PERST_N every ring. -/
def Obligations.RingLifecycleCommandsComplete : Prop :=
  ∀ (s : State) (r : Fin 2112) (v : Word) (st : BitVec 8) (fn : Fn), ringUsed r = true →
    (s.barsOpen = false → ∀ base : Bool, exec (.ringCfgWrite r base v) s = .next s) ∧
    (s.ringState r = 0 → s.barsOpen = true →
      (Effects (.ringCfgWrite r true v) s fun t => t.rd .pci_RING_BASE [r] = v &&& f_pci_RING_BASE_base.mask) ∧
      (Effects (.ringCfgWrite r false v) s fun t =>
        t.rd .pci_RING_CFG [r] = v &&& ringCfgBits ∧
        t.ringState r = if f_pci_RING_CFG_enable.get v = 1 ∧ s.pdOn 20 = true ∧
            s.flag .pci_RING_STATUS [r] f_pci_RING_STATUS_restart_pending = false then 1 else 0)) ∧
    (s.ringState r ≠ 0 → s.barsOpen = true →
      (s.rd .pci_RING_BASE [r] ≠ v &&& f_pci_RING_BASE_base.mask →
        Effects (.ringCfgWrite r true v) s fun t =>
          t.rd .pci_RING_BASE [r] = s.rd .pci_RING_BASE [r] ∧ t.fld .pci_ERR_STATUS [] f_pci_ERR_STATUS_last_kind = 4) ∧
      (v &&& ringCfgFixed ≠ s.rd .pci_RING_CFG [r] &&& ringCfgFixed →
        Effects (.ringCfgWrite r false v) s fun t =>
          t.rd .pci_RING_CFG [r] = s.rd .pci_RING_CFG [r] ∧
          t.fld .pci_ERR_STATUS [] f_pci_ERR_STATUS_last_kind = 4) ∧
      (v &&& ringCfgFixed = s.rd .pci_RING_CFG [r] &&& ringCfgFixed →
        Effects (.ringCfgWrite r false v) s fun t => t.rd .pci_RING_CFG [r] = v &&& ringCfgBits)) ∧
    (s.ringState r = 1 →
      Effects (.ringStartDone r) s fun t =>
        t.ringPidx r = 0 ∧ t.ringCidx r = 0 ∧ t.ringErr r = (if (SMap.get {} s.host.ringx r.val).flr = true then 3 else 0) ∧
        t.ringState r = 2 ∧ t.flag .pci_RING_STATUS [r] f_pci_RING_STATUS_stop_pending =
          s.flag .pci_RING_STATUS [r] f_pci_RING_STATUS_stop_pending) ∧
    (s.ringState r = 3 → s.ringBusy r = false → (∀ x, s.tab.report = some x → x.ring < 16) →
      s.flag .pci_RING_STATUS [r] f_pci_RING_STATUS_restart_pending = false →
      Effects (.ringStopDone r) s fun t =>
        t.ringState r = 0 ∧ (s.ringErr r ≠ 0 → t.flag .pci_RING_CFG [r] f_pci_RING_CFG_enable = false)) ∧
    (s.ringState r = 3 → s.ringBusy r = false → (∀ x, s.tab.report = some x → x.ring < 16) →
      s.flag .pci_RING_STATUS [r] f_pci_RING_STATUS_restart_pending = true →
      Effects (.ringStopDone r) s fun t =>
        t.ringState r = 0 ∧ t.flag .pci_RING_STATUS [r] f_pci_RING_STATUS_restart_pending = true) ∧
    (s.ringState r = 0 → s.flag .pci_RING_STATUS [r] f_pci_RING_STATUS_restart_pending = true → s.pdOn 20 = true →
      (s.restWord (Reg.addr .pci_RING_STATUS [r])).ringState r = 1) ∧
    (s.ringState r = 2 → s.flag .pci_RING_STATUS [r] f_pci_RING_STATUS_stop_pending = true →
      (s.restWord (Reg.addr .pci_RING_STATUS [r])).ringState r = 3) ∧
    (s.ringState r = 2 → (∀ x, s.tab.report = some x → x.ring < 16) →
      Effects (.dmaReadError r .descriptor st) s fun t =>
        t.ringErr r = (if s.ringErr r = 3 then 3 else 2) ∧ t.ringState r = s.ringHalts r) ∧
    ((∀ x, s.tab.report = some x → x.ring < 16) → Effects (.flr fn) s fun t =>
      if (s.ringOwner r).1 = fn then
        s.ringState r ≠ 0 → t.ringErr r = 3 ∧ (s.ringState r = 2 → t.ringState r = s.ringHalts r)
      else t.rd .pci_RING_STATUS [r] = s.rd .pci_RING_STATUS [r]) ∧
    ((∀ x, s.tab.report = some x → x.ring < 16) → Effects .perst s fun t =>
      t.host.perst = true ∧ t.host.msix = [] ∧ t.fpc = s.fpc ∧ t.tm = s.tm ∧
      (s.ringState r ≠ 0 → t.ringErr r = 3 ∧ (s.ringState r = 2 → t.ringState r = s.ringHalts r))) ∧
    (Effects .perstRelease s fun t => t = { s with host := { s.host with perst := false } })

/-- Messages and virtual functions (R499, R502): a coalescing timer that has run out sends its ring's message or sets its
Pending Bit, and the count of entries restarts; unmasking a vector sends a message that was pending; VF_RINGS takes a
write that leaves no ring with two owners and changes no running ring, and else records an access error of kind 4. -/
def Obligations.RingMessagesAndVfRingsComplete : Prop :=
  ∀ (s : State) (r : Fin 2112) (fn : Fn) (vec : Fin 2048) (v : Fin 63) (w : Word),
    ((SMap.get {} s.host.ringx r.val).coal ≠ 0 → s.fld .pci_RING_CFG [r] f_pci_RING_CFG_coal_timer ≠ 0 →
      s.passed (SMap.get {} s.host.ringx r.val).coalSince
        (s.fld .pci_RING_CFG [r] f_pci_RING_CFG_coal_timer * cyclesPerUs) = true →
      Effects (.coalesceTimer r) s fun t =>
        (SMap.get {} t.host.ringx r.val).coal = 0 ∧
        ((SMap.get {} s.host.msix (fnKey (s.ringOwner r).1 * 4096 + (s.ringOwner r).2)).masked = true →
          (SMap.get {} t.host.msix (fnKey (s.ringOwner r).1 * 4096 + (s.ringOwner r).2)).pend = true ∧
          t.out = s.out) ∧
        ((SMap.get {} s.host.msix (fnKey (s.ringOwner r).1 * 4096 + (s.ringOwner r).2)).masked = false →
          t.out.length = s.out.length + 1)) ∧
    (Effects (.msixVectorUnmask fn vec) s fun t =>
      (SMap.get {} t.host.msix (fnKey fn * 4096 + vec.val)).masked = false ∧
      (SMap.get {} t.host.msix (fnKey fn * 4096 + vec.val)).pend = false ∧
      t.out = if (SMap.get {} s.host.msix (fnKey fn * 4096 + vec.val)).pend = true then
          .msix fn vec (SMap.get {} s.host.msix (fnKey fn * 4096 + vec.val)).addr
            (SMap.get {} s.host.msix (fnKey fn * 4096 + vec.val)).data :: s.out
        else s.out) ∧
    (s.barsOpen = false → exec (.vfRingsWrite v w) s = .next s) ∧
    (s.barsOpen = true → if s.vfRingsRefused v w = true then
      Effects (.vfRingsWrite v w) s fun t =>
        t.rd .pci_VF_RINGS [v] = s.rd .pci_VF_RINGS [v] ∧ t.fld .pci_ERR_STATUS [] f_pci_ERR_STATUS_last_kind = 4
    else
      Effects (.vfRingsWrite v w) s fun t =>
        t.fld .pci_VF_RINGS [v] f_pci_VF_RINGS_punt_base = f_pci_VF_RINGS_punt_base.get w ∧
        t.fld .pci_VF_RINGS [v] f_pci_VF_RINGS_punt_count = f_pci_VF_RINGS_punt_count.get w ∧
        t.fld .pci_VF_RINGS [v] f_pci_VF_RINGS_inject_base = f_pci_VF_RINGS_inject_base.get w ∧
        t.fld .pci_VF_RINGS [v] f_pci_VF_RINGS_inject_count = f_pci_VF_RINGS_inject_count.get w)

/-- PUNT_DELIVER, INJECT_DESCRIPTOR, INJECT_ENTRY and the failed buffer reads (R498, R514, R516): the punt at the head of
the FIFO leaves it, into a good descriptor whose DONE then advances, or counted in drops where its ring is not ON or
holds none; an inject descriptor that is refused completes at once, and a good one is held until its packet has taken
its number; a failed buffer read fails only its descriptor. -/
def Obligations.PuntAndInjectComplete : Prop :=
  ∀ (s : State) (p : Punt) (rest : List Punt) (d buf : List Byte) (i : Nat) (n : Fin 1024) (r : Fin 2112)
    (x : InjPkt) (st : BitVec 8) (full : Bool) (ue : List (Fin 1024)) (ce : Nat),
    (s.host.punts = p :: rest → s.frameState p.frame ≠ 1 →
      (s.puntTaken p = true → badPuntDesc (padTo 64 d) = false → p.ring < 1024 →
        Effects (.puntDeliver [.data d]) s fun t =>
          t.host.punts = rest ∧ t.ringCidx (64 + p.ring) = (s.ringCidx (64 + p.ring) + 1) % 2 ^ 32) ∧
      (s.puntTaken p = false →
        Effects (.puntDeliver []) s fun t =>
          t.host.punts = rest ∧
          t.fld .pci_RING_STATUS [64 + p.ring] f_pci_RING_STATUS_drops =
            min (s.fld .pci_RING_STATUS [64 + p.ring] f_pci_RING_STATUS_drops + 1) (2 ^ 32 - 1))) ∧
    (s.injectRing = some i →
      (s.injectRefused (1088 + i) (padTo 64 d)
          (if s.flag .pci_RING_CFG [1088 + i] f_pci_RING_CFG_fixed then
            s.fld .pci_RING_CFG [1088 + i] f_pci_RING_CFG_target else leAt (padTo 64 d) 12 4) true = none →
        Effects (.injectDescriptor (.data d) (.data buf)) s fun t =>
          t.host.injNext = (i + 1) % 1024 ∧ t.ringCidx (1088 + i) = s.ringCidx (1088 + i) ∧
          t.host.injHeld.length = s.host.injHeld.length + 1 ∧
          (SMap.get {} t.host.ringx (1088 + i)).taken = 1) ∧
      (s.injectRefused (1088 + i) (padTo 64 d)
          (if s.flag .pci_RING_CFG [1088 + i] f_pci_RING_CFG_fixed then
            s.fld .pci_RING_CFG [1088 + i] f_pci_RING_CFG_target else leAt (padTo 64 d) 12 4) true ≠ none →
        Effects (.injectDescriptor (.data d) (.data buf)) s fun t =>
          t.ringCidx (1088 + i) = (s.ringCidx (1088 + i) + 1) % 2 ^ 32 ∧ t.host.injHeld = s.host.injHeld)) ∧
    (s.host.injHeld.find? (fun x => x.ring == n.val) = some x → s.isFollower = false → s.following = false →
      s.intakeHeld = false → s.twinState ≠ 1 → (x.mode = 0 → s.waitFree x.target = true) →
      Effects (.injectEntry n full ue ce) s fun t => ∀ y ∈ t.host.injHeld, y.ring ≠ n.val) ∧
    (2 ≤ s.ringState r → s.ringFill r ≠ 0 → 64 ≤ r.val →
      (1088 ≤ r.val → (SMap.get {} s.host.ringx r.val).taken = 0) →
      Effects (.dmaReadError r .buffer st) s fun t =>
        t.ringCidx r = (s.ringCidx r + 1) % 2 ^ 32 ∧ t.ringState r = s.ringState r)

/-! ### Receiving on the line ports (R362 to R368) -/

/-- The pause time of a quanta value in ticks (R366): 512 bit times each. -/
def Sys2Proof.Machine.State.pauseTicks (s : State) (m q : Nat) : Nat := (q * 512 + s.portBpt m - 1) / s.portBpt m

/-- The receive side of a line port (R363, R364, R366, R367): a frame's first byte reserves rx_max bytes of the FIFO, or
the whole frame is dropped and counted where less is left or the die-to-die link is FAILED; its last byte is counted,
runts and FCS failures apart; a received PAUSE or PFC frame stops the port or its classes for the quanta time
from the cycle after, which an expiry ends; a sent pause is refreshed, after the frame in transmission. -/
def Obligations.LineReceiveCommandsComplete : Prop :=
  ∀ (s : State) (m : Fin 256) (frame : List Byte) (ok : Bool) (ce ue q en : Nat) (qs : List Nat) (c : Fin 9) (k : Fin 8)
    (f : RxFrame) (rest : List PauseReq),
    (s.portOn m = true → s.flag .lmac_PORT_STATUS [m] f_lmac_PORT_STATUS_link_up = true →
      ((s.port m).rx).all (·.ended) = true → s.flag .lmac_MSEC_CFG [m] f_lmac_MSEC_CFG_enable = false →
      Effects (.rxFrameStart m frame) s fun t =>
        ((t.port m).rx.map (·.fid)) = (s.port m).rx.map (·.fid) ++ [s.line.nextFid] ∧
        ((t.port m).rx.getLast?.map fun f => (f.raw, f.ended, f.dropped)) =
          some (frame, false, decide (s.d2dHealth = 2) ||
            decide (modeLanes (s.portMode m) * 98304 < s.rxLevel m + s.rxMax m)) ∧
        (s.d2dHealth ≠ 2 → s.rxLevel m + s.rxMax m ≤ modeLanes (s.portMode m) * 98304 →
          t.rxLevel m = s.rxLevel m + s.rxMax m) ∧
        (s.d2dHealth ≠ 2 → modeLanes (s.portMode m) * 98304 < s.rxLevel m + s.rxMax m →
          t.rxLevel m = s.rxLevel m ∧
          t.fld .lmac_CNT [m, 5] f_lmac_CNT_count =
            (s.fld .lmac_CNT [m, 5] f_lmac_CNT_count + 1) % 2 ^ f_lmac_CNT_count.width)) ∧
    ((s.port m).rx.find? (fun f => !f.ended) = some f →
      Effects (.rxFrameEnd m ok ce ue) s fun t =>
        (∀ g ∈ (t.port m).rx, g.fid = f.fid → g.ended = true) ∧
        t.fld .lmac_CNT [m, 0] f_lmac_CNT_count =
          (s.fld .lmac_CNT [m, 0] f_lmac_CNT_count + 1) % 2 ^ f_lmac_CNT_count.width ∧
        t.fld .lmac_CNT [m, 3] f_lmac_CNT_count =
          (s.fld .lmac_CNT [m, 3] f_lmac_CNT_count + if f.raw.length + 4 < 64 then 1 else 0) %
            2 ^ f_lmac_CNT_count.width ∧
        t.fld .lmac_CNT [m, 2] f_lmac_CNT_count =
          (s.fld .lmac_CNT [m, 2] f_lmac_CNT_count +
            if 64 ≤ f.raw.length + 4 ∧ f.oversize = false ∧ (ok && ue == 0) = false then 1 else 0) %
            2 ^ f_lmac_CNT_count.width) ∧
    (s.portOn m = true → s.txXoff m c = true →
      s.fld .lmac_PORT_FC [m] f_lmac_PORT_FC_fc_mode = (if c.val = 8 then 1 else 2) →
      c.val = 8 ∨ bitOf (s.fld .lmac_PORT_FC [m] f_lmac_PORT_FC_tx_class_en) c.val = true →
      (s.port m).pauseQ = [] →
      s.passed (SMap.get 0 (s.port m).pauseSent c.val)
        (s.pauseTicks m (s.fld .lmac_PORT_FC [m] f_lmac_PORT_FC_quanta) / 2) = true →
      Effects (.pauseRefresh m c) s fun t =>
        if SMap.get none s.tm.tx m.val = none then
          t.out = .pauseFrame m (c.val != 8) (if c.val = 8 then 0 else 2 ^ c.val)
            (s.fld .lmac_PORT_FC [m] f_lmac_PORT_FC_quanta) :: s.out ∧
          SMap.get 0 (t.port m).pauseSent c.val = s.cycle
        else
          t.out = s.out ∧ (t.port m).pauseQ = [(c.val, s.fld .lmac_PORT_FC [m] f_lmac_PORT_FC_quanta)]) ∧
    ((s.port m).reports = .pause q :: rest → s.flag .lmac_PORT_FC [m] f_lmac_PORT_FC_rx_en = true →
      Effects (.pauseReceive m) s fun t =>
        (t.port m).reports = rest ∧
        SMap.get 0 (t.port m).pausedUntil 8 = (if q = 0 then 0 else s.cycle + 1 + s.pauseTicks m q) ∧
        t.paused m 8 = s.paused m 8 ∧ (q ≠ 0 → { t with cycle := t.cycle + 1 }.rxPaused m = 255)) ∧
    ((s.port m).reports = .pause q :: rest → s.flag .lmac_PORT_FC [m] f_lmac_PORT_FC_rx_en = false →
      Effects (.pauseReceive m) s fun t =>
        (t.port m).reports = rest ∧ (t.port m).pausedUntil = (s.port m).pausedUntil) ∧
    ((s.port m).reports = .pfc en qs :: rest → s.flag .lmac_PORT_FC [m] f_lmac_PORT_FC_rx_en = true →
      Effects (.pfcReceive m) s fun t =>
        (t.port m).reports = rest ∧
        SMap.get 0 (t.port m).pausedUntil k.val =
          if bitOf en k.val = true then (if qs.getD k.val 0 = 0 then 0 else s.cycle + 1 + s.pauseTicks m (qs.getD k.val 0))
          else SMap.get 0 (s.port m).pausedUntil k.val) ∧
    (SMap.get 0 (s.port m).pausedUntil c.val ≠ 0 → SMap.get 0 (s.port m).pausedUntil c.val ≤ s.cycle →
      Effects (.pauseExpiry m c) s fun t =>
        SMap.get 0 (t.port m).pausedUntil c.val = 0 ∧
        (k.val ≠ c.val → SMap.get 0 (t.port m).pausedUntil k.val = SMap.get 0 (s.port m).pausedUntil k.val))

/-! ### Parser entry, order and dispatch (R36, R57, R71 to R89, R162, R646) -/

/-- The front of the forwarding path (R36, R57, R646): the next whole or sufficiently present frame of a MAC takes the
next sequence number and has entered; a packet set aside resumes and only it may wait again at its MAC; a rewritten
node is good again in both banks, unless every replica of it failed. -/
def Obligations.ParserEntryCommandsComplete : Prop :=
  ∀ (s : State) (m : Fin 256) (beats : Nat) (full : Bool) (ue : List (Fin 1024)) (ce : Nat) (f : RxFrame) (p : Pkt)
    (w : Walk) (pipe : Fin 16) (node : Fin 1024) (b : Fin 2),
    (s.following = false → s.intakeHeld = false → s.waitFree m = true → s.pipeHeld (m.val / 16) = false →
      s.twinState ≠ 1 → s.nextFrame m = some f →
      f.ended = true ∨ (1 ≤ beats ∧ 64 < f.bytes.length) →
      Effects (.parserEntry m beats full ue ce) s fun t =>
        t.fpc.seqNext = s.fpc.seqNext + 1 ∧ ∀ g ∈ (t.port m).rx, g.fid = f.fid → g.entered = true) ∧
    (SMap.get none s.fpc.waits m.val = some (p, w) → p.mac = m.val →
      Effects (.parseResume m beats full ue ce) s fun t =>
        t.fpc.seqNext = s.fpc.seqNext ∧
        ((SMap.get none t.fpc.waits m.val).all fun x => x.1.seq == p.seq) = true) ∧
    (Effects (.parseNodeRewrite pipe node) s fun t =>
      if SMap.get 0 s.fpc.badNodes (b.val * 1024 + node.val) = 0xFFFF then
        SMap.get 0 t.fpc.badNodes (b.val * 1024 + node.val) = 0xFFFF
      else bitOf (SMap.get 0 t.fpc.badNodes (b.val * 1024 + node.val)) pipe.val = false)

/-- The order keeper (R80 to R82): with fewer than 65,536 positions outstanding the packet at the end of a pipe's
fast-break stage leaves it; a releasable packet's position is gone and its output packets go on to admission; the
oldest unskipped position of a domain that has waited beyond skip_timeout is skipped and counted. -/
def Obligations.OrderKeeperCommandsComplete : Prop :=
  ∀ (s : State) (pipe : Fin 16) (p : Pkt) (rest : List Pkt) (domain : Fin 4096) (e : OrdEntry) (since : Nat),
    (SMap.get [] s.fpc.stage pipe.val = p :: rest → s.outstanding < 65536 →
      Effects (.orderPositionFree pipe) s fun t => SMap.get [] t.fpc.stage pipe.val = rest) ∧
    (releasable domain s.fpc.order = some e →
      Effects (.orderRelease domain) s fun t => t.orderOf e.seq = none ∧ t.adm = s.adm ++ e.outs.map fun a => { a with at' := s.cycle }) ∧
    (s.fpc.order.find? (fun e => e.domain == domain.val && !e.skipped) = some e → e.since = some since →
      e.done = false → s.fld .dsp_OK_CFG [] f_dsp_OK_CFG_skip_timeout ≠ 0 →
      s.passed since (s.fld .dsp_OK_CFG [] f_dsp_OK_CFG_skip_timeout * 1024 + 1) = true →
      Effects (.orderSkip domain) s fun t =>
        (∀ x ∈ t.fpc.order, x.seq = e.seq → x.skipped = true) ∧
        t.fpc.order.length = s.fpc.order.length ∧
        t.fld .dsp_OK_STATUS [] f_dsp_OK_STATUS_skips =
          min (s.fld .dsp_OK_STATUS [] f_dsp_OK_STATUS_skips + 1) (2 ^ f_dsp_OK_STATUS_skips.width - 1))

/-- Dispatch and what wakes threads (R71 to R75, R86, R89, R162): the first packet that waits from a pipe enters the
chosen cluster, on an IDLE packet thread or in its input queue; the first of an input queue starts on an IDLE thread; a
missing line arrives with its window bytes; a result reaches the l register that waits for it, and a squashed one is
discarded; a ROSTER write reads back at once and takes effect at the next switch, or is refused where it strands a thread. -/
def Obligations.DispatchCommandsComplete : Prop :=
  ∀ (s : State) (pipe : Fin 16) (c : Fin 32) (c' th : Nat) (ovr : Bool) (p : Pkt) (rest : List Pkt)
    (line : BitVec 27) (way : Fin 8) (id : Nat) (err : LookupError) (misses parity : Nat) (x : Lookup)
    (l : Nat) (k : Fin 16) (w : Word),
    (SMap.get [] s.fpc.dispq pipe.val = p :: rest → s.chooseCluster p.seq p.hDisp = some (c', ovr) →
      (s.queueOf c').length < 64 →
      Effects (.dispatch pipe) s fun t =>
        SMap.get [] t.fpc.dispq pipe.val = rest ∧
        SMap.get 0 t.fpc.dispatched c' = SMap.get 0 s.fpc.dispatched c' + 1 ∧
        (s.queueOf c' = [] → s.chooseThread c' = some th → (t.th c' th).pkt.map (·.seq) = some p.seq) ∧
        (s.chooseThread c' = none → t.queueOf c' = s.queueOf c' ++ [p])) ∧
    (s.queueOf c = p :: rest → s.chooseThread c = some th →
      Effects (.inputQueueDispatch c) s fun t =>
        t.queueOf c = rest ∧ (t.th c th).pkt.map (·.seq) = some p.seq) ∧
    ((List.range 128).any (fun i => (s.th c i).eff == 3 && (s.th c i).waitKind == 2 &&
        (s.th c i).waitLine == line.toNat) = true →
      Effects (.dcacheLineFill c line way) s fun t =>
        s.windowOk (64 * line.toNat) = true →
          SMap.find? t.fpc.dcache (c.val * 2 ^ 27 + line.toNat) = some (s.fpc.pdata.readBytes (64 * line.toNat) 64)) ∧
    (s.fpc.lookups.find? (fun x => x.id == id && x.result.isNone) = some x → x.squashed = false →
      x.dest = some (c', th, l) →
      Effects (.lookupResult id err misses parity) s fun t =>
        ((t.th c' th).lreg l).result.isSome = true ∧ ∀ y ∈ t.fpc.lookups, y.id ≠ x.id) ∧
    (s.fpc.lookups.find? (fun x => x.id == id && x.result.isNone) = some x → x.squashed = true →
      Effects (.lookupResult id err misses parity) s fun t => ∀ y ∈ t.fpc.lookups, y.id ≠ id) ∧
    (s.fpc.lookups.find? (fun x => x.id == id && x.result.isNone) = some x → x.squashed = false → x.dest = none →
      Effects (.lookupResult id err misses parity) s fun t => ∀ y ∈ t.fpc.lookups, y.id = id → y.result.isSome = true) ∧
    ((List.range 8).any (fun i => ((s.th c (k.val * 8 + i)).state != 0 || s.isResident c (k.val * 8 + i)) &&
        !onRoster w i) = true →
      Effects (.rosterWrite c k w) s fun t =>
        t.flag .fpc_ERR_STATUS [c] f_fpc_ERR_STATUS_roster_refused = true ∧
        t.fld .pci_ERR_STATUS [] f_pci_ERR_STATUS_last_kind = 4 ∧ t.rd .fpc_ROSTER [c, k] = s.rd .fpc_ROSTER [c, k]) ∧
    ((List.range 8).any (fun i => ((s.th c (k.val * 8 + i)).state != 0 || s.isResident c (k.val * 8 + i)) &&
        !onRoster w i) = false →
      Effects (.rosterWrite c k w) s fun t =>
        t.rd .fpc_ROSTER [c, k] = w ∧ (t.roster c k = s.roster c k ∨ t.roster c k = w))

/-! ### Kryx arithmetic, immediate, bit-field and branch instructions (R123, R137 to R139) -/

/-- Thread `th` of cluster `c` has completed an instruction that writes `v` to `rd` and does nothing else to it: g0 keeps
reading as zero (R123), the other registers keep their values, and the pc has moved to the next word. -/
def Sys2Proof.Machine.State.wrote (t s : State) (c th : Nat) (rd : BitVec 5) (v : Word) : Prop :=
  (∀ r : BitVec 5, (t.th c th).gr r = if r = 0 then 0 else if r = rd then v else (s.th c th).gr r) ∧
    t.th c th = { (s.th c th) with
      pc := ((s.th c th).pc + 1) % 131072, g := (t.th c th).g, ready := false, waitKind := 0, waitObj := 0,
      waitLine := 0 }

/-- Every instruction of op 0x01 on a running thread writes its result to rd (R138). -/
def Obligations.ArithmeticInstructionsWriteTheirResults : Prop :=
  ∀ (s : State) (c : Fin 32) (th : Fin 128) (rd ra rb : BitVec 5) (a b : Word),
    s.running c th → (s.th c th).gr ra = a → (s.th c th).gr rb = b →
    (Effects (.add c th rd ra rb .clean) s fun t => t.wrote s c th rd (a + b)) ∧
    (Effects (.sub c th rd ra rb .clean) s fun t => t.wrote s c th rd (a - b)) ∧
    (Effects (.and c th rd ra rb .clean) s fun t => t.wrote s c th rd (a &&& b)) ∧
    (Effects (.or c th rd ra rb .clean) s fun t => t.wrote s c th rd (a ||| b)) ∧
    (Effects (.xor c th rd ra rb .clean) s fun t => t.wrote s c th rd (a ^^^ b)) ∧
    (Effects (.shl c th rd ra rb .clean) s fun t => t.wrote s c th rd (a <<< (b.toNat % 64))) ∧
    (Effects (.shr c th rd ra rb .clean) s fun t => t.wrote s c th rd (a >>> (b.toNat % 64))) ∧
    (Effects (.sar c th rd ra rb .clean) s fun t => t.wrote s c th rd (a.sshiftRight (b.toNat % 64))) ∧
    (Effects (.rotr c th rd ra rb .clean) s fun t => t.wrote s c th rd (a.rotateRight (b.toNat % 64))) ∧
    (Effects (.slt c th rd ra rb .clean) s fun t => t.wrote s c th rd (if a.toInt < b.toInt then 1 else 0)) ∧
    (Effects (.sltu c th rd ra rb .clean) s fun t => t.wrote s c th rd (if a.toNat < b.toNat then 1 else 0)) ∧
    (Effects (.minu c th rd ra rb .clean) s fun t => t.wrote s c th rd (if a.toNat < b.toNat then a else b)) ∧
    (Effects (.maxu c th rd ra rb .clean) s fun t => t.wrote s c th rd (if a.toNat < b.toNat then b else a)) ∧
    (Effects (.mul c th rd ra rb .clean) s fun t => t.wrote s c th rd (BitVec.ofNat 64 (a.toNat * b.toNat))) ∧
    (Effects (.mulhu c th rd ra rb .clean) s fun t => t.wrote s c th rd (BitVec.ofNat 64 (a.toNat * b.toNat / 2 ^ 64))) ∧
    (Effects (.csum c th rd ra rb .clean) s fun t =>
      t.wrote s c th rd
        (BitVec.ofNat 64 ((a.toNat % 2 ^ 16 + b.toNat % 2 ^ 16) % 2 ^ 16 +
          (a.toNat % 2 ^ 16 + b.toNat % 2 ^ 16) / 2 ^ 16))) ∧
    (Effects (.popc c th rd ra .clean) s fun t =>
      t.wrote s c th rd (BitVec.ofNat 64 ((List.range 64).countP fun i => a.getLsbD i))) ∧
    (Effects (.clz c th rd ra .clean) s fun t =>
      t.wrote s c th rd (BitVec.ofNat 64 (if a = 0 then 64 else 63 - a.toNat.log2))) ∧
    (Effects (.bswap c th rd ra .clean) s fun t => t.wrote s c th rd (BitVec.ofNat 64 (beNat (natLE 8 a.toNat)))) ∧
    (Effects (.bswap32 c th rd ra .clean) s fun t => t.wrote s c th rd (BitVec.ofNat 64 (beNat (natLE 4 a.toNat)))) ∧
    (Effects (.bswap16 c th rd ra .clean) s fun t => t.wrote s c th rd (BitVec.ofNat 64 (beNat (natLE 2 a.toNat))))

/-- The immediate and bit-field instructions on a running thread write their results (R139); a bit field that runs past
bit 63 is ILLEGAL and the thread ends. -/
def Obligations.ImmediateAndFieldInstructionsWriteTheirResults : Prop :=
  ∀ (s : State) (c : Fin 32) (th : Fin 128) (rd ra : BitVec 5) (a d : Word) (imm : BitVec 16) (amt pos wm1 : BitVec 6),
    s.running c th → (s.th c th).gr ra = a → (s.th c th).gr rd = d →
    (Effects (.addi c th rd ra imm .clean) s fun t => t.wrote s c th rd (a + imm.signExtend 64)) ∧
    (Effects (.andi c th rd ra imm .clean) s fun t => t.wrote s c th rd (a &&& imm.zeroExtend 64)) ∧
    (Effects (.ori c th rd ra imm .clean) s fun t => t.wrote s c th rd (a ||| imm.zeroExtend 64)) ∧
    (Effects (.xori c th rd ra imm .clean) s fun t => t.wrote s c th rd (a ^^^ imm.zeroExtend 64)) ∧
    (Effects (.slti c th rd ra imm .clean) s fun t => t.wrote s c th rd (if a.toInt < imm.toInt then 1 else 0)) ∧
    (Effects (.sltiu c th rd ra imm .clean) s fun t =>
      t.wrote s c th rd (if a.toNat < (imm.signExtend 64).toNat then 1 else 0)) ∧
    (Effects (.shi c th 0 rd ra amt .clean) s fun t => t.wrote s c th rd (a <<< amt.toNat)) ∧
    (Effects (.shi c th 1 rd ra amt .clean) s fun t => t.wrote s c th rd (a >>> amt.toNat)) ∧
    (Effects (.shi c th 2 rd ra amt .clean) s fun t => t.wrote s c th rd (a.sshiftRight amt.toNat)) ∧
    (Effects (.shi c th 3 rd ra amt .clean) s fun t => t.wrote s c th rd (a.rotateRight amt.toNat)) ∧
    (Effects (.lui c th rd imm .clean) s fun t => t.wrote s c th rd (BitVec.ofNat 64 (imm.toNat * 2 ^ 16))) ∧
    (pos.toNat + wm1.toNat ≤ 63 →
      (Effects (.ext c th rd ra pos wm1 .clean) s fun t =>
        t.wrote s c th rd (BitVec.ofNat 64 (a.toNat / 2 ^ pos.toNat % 2 ^ (wm1.toNat + 1)))) ∧
      (Effects (.exts c th rd ra pos wm1 .clean) s fun t =>
        t.wrote s c th rd (BitVec.ofInt 64 ((BitVec.ofNat (wm1.toNat + 1) (a.toNat / 2 ^ pos.toNat)).toInt))) ∧
      (Effects (.mask c th rd ra pos wm1 .clean) s fun t =>
        t.wrote s c th rd (BitVec.ofNat 64 ((2 ^ (wm1.toNat + 1) - 1) * 2 ^ pos.toNat))) ∧
      (rd ≠ 0 → Effects (.ins c th rd ra pos wm1 .clean) s fun t =>
        t.wrote s c th rd ((t.th c th).gr rd) ∧
        ∀ i : Fin 64, ((t.th c th).gr rd).getLsbD i =
          if pos.toNat ≤ i.val ∧ i.val ≤ pos.toNat + wm1.toNat then a.getLsbD (i.val - pos.toNat) else d.getLsbD i)) ∧
    (63 < pos.toNat + wm1.toNat →
      (Effects (.ext c th rd ra pos wm1 .clean) s fun t =>
        t.fld .fpc_EXC_STATUS [c] f_fpc_EXC_STATUS_last_code = 0 ∧ (t.th c th).state = 0) ∧
      (Effects (.exts c th rd ra pos wm1 .clean) s fun t =>
        t.fld .fpc_EXC_STATUS [c] f_fpc_EXC_STATUS_last_code = 0 ∧ (t.th c th).state = 0) ∧
      (Effects (.ins c th rd ra pos wm1 .clean) s fun t =>
        t.fld .fpc_EXC_STATUS [c] f_fpc_EXC_STATUS_last_code = 0 ∧ (t.th c th).state = 0) ∧
      (Effects (.mask c th rd ra pos wm1 .clean) s fun t =>
        t.fld .fpc_EXC_STATUS [c] f_fpc_EXC_STATUS_last_code = 0 ∧ (t.th c th).state = 0))

/-- A running thread goes on at word `n`, with its registers as they were but `g31`, where it is linked. -/
def Sys2Proof.Machine.State.jumped (t s : State) (c th n : Nat) : Prop :=
  (t.th c th).pc = n % 131072 ∧ (t.th c th).state = 2 ∧ (t.th c th).g = (s.th c th).g

/-- The branches and jumps (R139): a conditional branch goes to pc + off where its condition holds and to the next word
otherwise, modulo 131,072; J and JAL go to their target and JR to ra[16:0]; JAL links pc + 1 in g31. -/
def Obligations.BranchInstructionsMoveThePc : Prop :=
  ∀ (s : State) (c : Fin 32) (th : Fin 128) (ra rb : BitVec 5) (hint : Bool) (off : BitVec 12) (target : BitVec 17)
    (a b : Word), s.running c th → (s.th c th).gr ra = a → (s.th c th).gr rb = b →
    let taken := (((s.th c th).pc : Int) + off.toInt) % 131072
    let goes (cond : BitVec 3) (p : Bool) : Prop :=
      Effects (.bcc c th cond ra rb hint off .clean) s fun t =>
        t.jumped s c th (if p then taken.toNat else (s.th c th).pc + 1)
    goes 0 (a == b) ∧ goes 1 (a != b) ∧ goes 2 (decide (a.toInt < b.toInt)) ∧ goes 3 (decide (b.toInt ≤ a.toInt)) ∧
    goes 4 (decide (a.toNat < b.toNat)) ∧ goes 5 (decide (b.toNat ≤ a.toNat)) ∧ goes 6 (a.getLsbD rb.toNat) ∧
    goes 7 (!a.getLsbD rb.toNat) ∧
    (Effects (.j c th target .clean) s fun t => t.jumped s c th target.toNat) ∧
    (Effects (.jr c th ra .clean) s fun t => t.jumped s c th (a.toNat % 131072)) ∧
    (Effects (.jal c th target .clean) s fun t =>
      (t.th c th).pc = target.toNat ∧ (t.th c th).gr 31 = BitVec.ofNat 64 ((s.th c th).pc + 1) ∧
      ∀ r : BitVec 5, r ≠ 31 → (t.th c th).gr r = (s.th c th).gr r)

/-! ### Kryx header, metadata and memory instructions (R124 to R131, R140, R141) -/

/-- A value of `n` bytes as a load leaves it in a register (R136). -/
def Sys2Proof.Machine.loaded (n : Nat) (sx : Bool) (v : Nat) : Word :=
  if sx then BitVec.ofInt 64 (BitVec.ofNat (8 * n) v).toInt else BitVec.ofNat 64 v

/-- The thread ended by an exception (R153, R154): the code and the thread are recorded and it is IDLE. -/
def Sys2Proof.Machine.State.excepted (t : State) (c th code : Nat) : Prop :=
  t.fld .fpc_EXC_STATUS [c] f_fpc_EXC_STATUS_last_code = code ∧
    t.fld .fpc_EXC_STATUS [c] f_fpc_EXC_STATUS_last_thread = th ∧ (t.th c th).state = 0

/-- HLD, HST, MOVMG, MOVGM and LREAD (R124 to R126, R140): a packet thread reads and writes bytes of its header window
and its metadata fields, of which the packet's own are read-only; an access past offset 383 raises HDR_RANGE (1), a
write of a read-only field META_RO (4), and LREAD before its LKW LKW_STATE (10); on a resident thread they raise
THREAD_KIND (13). -/
def Obligations.HeaderAndMetadataInstructionsComplete : Prop :=
  ∀ (s : State) (c : Fin 32) (th : Fin 128) (rd ra : BitVec 5) (off : BitVec 9) (size : BitVec 2) (sx hi : Bool)
    (idx : BitVec 6) (l : BitVec 3) (o n : Nat) (r : LkResult), s.running c th →
    n = 2 ^ size.toNat → o = ((s.th c th).gr ra).toNat % 512 + off.toNat →
    (s.isResident c th = false →
      (o + n ≤ 384 →
        (Effects (.hld c th rd ra off size sx .clean) s fun t =>
          t.wrote s c th rd (loaded n sx (beNat ((s.th c th).hdr.readBytes o n)))) ∧
        (Effects (.hst c th rd ra off size .clean) s fun t =>
          (t.th c th).hdr.readBytes o n = natBE n ((s.th c th).gr rd).toNat ∧
          (∀ x < 384, x < o ∨ o + n ≤ x → (t.th c th).hdr.read x = (s.th c th).hdr.read x) ∧
          (t.th c th).g = (s.th c th).g ∧ (t.th c th).pc = ((s.th c th).pc + 1) % 131072)) ∧
      (384 < o + n →
        (Effects (.hld c th rd ra off size sx .clean) s fun t => t.excepted c th 1) ∧
        (Effects (.hst c th rd ra off size .clean) s fun t => t.excepted c th 1)) ∧
      (Effects (.movmg c th rd idx .clean) s fun t =>
        t.wrote s c th rd (BitVec.ofNat 64 ((s.th c th).meta' idx.toNat).toNat)) ∧
      (48 ≤ idx.toNat → Effects (.movgm c th rd idx .clean) s fun t =>
        (t.th c th).meta' idx.toNat = BitVec.ofNat 32 ((s.th c th).gr rd).toNat ∧ (t.th c th).state = 2) ∧
      (idx = 32 → Effects (.movgm c th rd idx .clean) s fun t =>
        (t.th c th).meta' 32 = BitVec.ofNat 32 ((s.th c th).gr rd).toNat &&& 0x00FF01FF ∧ (t.th c th).state = 2) ∧
      (idx = 33 → Effects (.movgm c th rd idx .clean) s fun t =>
        (t.th c th).meta' 33 = BitVec.ofNat 32 ((s.th c th).gr rd).toNat &&& 0x1FF ∧ (t.th c th).state = 2) ∧
      (idx.toNat < 48 → idx ≠ 32 → idx ≠ 33 → Effects (.movgm c th rd idx .clean) s fun t => t.excepted c th 4)) ∧
    (s.isResident c th = true →
      (Effects (.hld c th rd ra off size sx .clean) s fun t => t.excepted c th 13) ∧
      (Effects (.hst c th rd ra off size .clean) s fun t => t.excepted c th 13) ∧
      (Effects (.movmg c th rd idx .clean) s fun t => t.excepted c th 13) ∧
      (Effects (.movgm c th rd idx .clean) s fun t => t.excepted c th 13)) ∧
    (((s.th c th).lreg l.toNat).waited = true → ((s.th c th).lreg l.toNat).result = some r →
      Effects (.lread c th rd hi l .clean) s fun t =>
        t.wrote s c th rd
          (if hi then BitVec.ofNat 64 (r.status * 2 ^ 56 + r.data / 2 ^ 64 % 2 ^ 56) else BitVec.ofNat 64 r.data)) ∧
    (((s.th c th).lreg l.toNat).waited = false → Effects (.lread c th rd hi l .clean) s fun t => t.excepted c th 10)

/-- LD and ST (R129 to R131, R140), with address ra + sext(off) and an access that lies whole in one region: scratch and
the prepend area hold what is stored, the key bundle is read only, shared memory and the program-data window take
aligned accesses alone, a channel slot takes stores of the thread that holds it reserved; a load of a window line that
is not cached waits for it; ADDR_FAULT (2), MISALIGNED (3) and SLOT_ACCESS (6) as R130 states. -/
def Obligations.LoadAndStoreInstructionsComplete : Prop :=
  ∀ (s : State) (c : Fin 32) (th : Fin 128) (rd ra : BitVec 5) (off : BitVec 12) (size : BitVec 2) (sx : Bool)
    (a n : Nat) (line : List Byte), s.running c th →
    n = 2 ^ size.toNat → a = ((s.th c th).gr ra + off.signExtend 64).toNat →
    (a + n ≤ 0x200 →
      (Effects (.ld c th rd ra off size sx .clean) s fun t =>
        t.wrote s c th rd (loaded n sx (leNat ((s.th c th).scratch.readBytes a n)))) ∧
      (Effects (.st c th rd ra off size .clean) s fun t =>
        (t.th c th).scratch.readBytes a n = natLE n ((s.th c th).gr rd).toNat ∧
        (∀ x < 512, x < a ∨ a + n ≤ x → (t.th c th).scratch.read x = (s.th c th).scratch.read x) ∧
        (t.th c th).g = (s.th c th).g ∧ (t.th c th).state = 2)) ∧
    (0x1000 ≤ a → a + n ≤ 0x1080 →
      (Effects (.ld c th rd ra off size sx .clean) s fun t =>
        t.wrote s c th rd (loaded n sx (leNat (kbRange (s.th c th).kb (a - 0x1000) n)))) ∧
      (Effects (.st c th rd ra off size .clean) s fun t => t.excepted c th 2)) ∧
    (0x1100 ≤ a → a + n ≤ 0x1180 → s.isResident c th = false →
      (Effects (.ld c th rd ra off size sx .clean) s fun t =>
        t.wrote s c th rd (loaded n sx (leNat ((s.th c th).prepend.readBytes (a - 0x1100) n)))) ∧
      (Effects (.st c th rd ra off size .clean) s fun t =>
        (t.th c th).prepend.readBytes (a - 0x1100) n = natLE n ((s.th c th).gr rd).toNat ∧ (t.th c th).state = 2)) ∧
    (0x100000 ≤ a → a + n ≤ 0x200000 → a % n = 0 →
      (s.sharedBad c (a - 0x100000) = false →
        Effects (.ld c th rd ra off size sx .clean) s fun t =>
          t.wrote s c th rd (loaded n sx (leNat (s.fpc.shared.readBytes (c.val * 2 ^ 20 + (a - 0x100000)) n)))) ∧
      (Effects (.st c th rd ra off size .clean) s fun t =>
        t.fpc.shared.readBytes (c.val * 2 ^ 20 + (a - 0x100000)) n = natLE n ((s.th c th).gr rd).toNat ∧
        t.sharedBad c (a - 0x100000) = false ∧ (t.th c th).state = 2)) ∧
    (0x200000000 ≤ a → a + n ≤ 0x400000000 → a % n = 0 →
      (s.cachedLine c ((a - 0x200000000) / 64) = some line →
        Effects (.ld c th rd ra off size sx .clean) s fun t =>
          t.wrote s c th rd (loaded n sx (leNat ((line.drop (a % 64)).take n)))) ∧
      (s.cachedLine c ((a - 0x200000000) / 64) = none →
        Effects (.ld c th rd ra off size sx .clean) s fun t =>
          (t.th c th).state = 3 ∧ (t.th c th).waitKind = 2 ∧ (t.th c th).waitLine = (a - 0x200000000) / 64 ∧
          (t.th c th).pc = (s.th c th).pc) ∧
      (s.windowOk (a - 0x200000000) = true →
        Effects (.st c th rd ra off size .clean) s fun t =>
          t.fpc.pdata.readBytes (a - 0x200000000) n = natLE n ((s.th c th).gr rd).toNat ∧ (t.th c th).state = 2)) ∧
    ((0x100000 ≤ a ∧ a + n ≤ 0x200000) ∨ (0x200000000 ≤ a ∧ a + n ≤ 0x400000000) → a % n ≠ 0 →
      (Effects (.ld c th rd ra off size sx .clean) s fun t => t.excepted c th 3) ∧
      (Effects (.st c th rd ra off size .clean) s fun t => t.excepted c th 3)) ∧
    (0x40000 ≤ a → a + n ≤ 0x60000 → a % 64 + n ≤ 64 →
      (Effects (.ld c th rd ra off size sx .clean) s fun t => t.excepted c th 2) ∧
      ((s.th c th).resvOf c ((a - 0x40000) / 2048) (a % 2048 / 64) = none →
        Effects (.st c th rd ra off size .clean) s fun t => t.excepted c th 6) ∧
      (((s.th c th).resvOf c ((a - 0x40000) / 2048) (a % 2048 / 64)).any (fun r => !r.released && !r.committed) = true →
        Effects (.st c th rd ra off size .clean) s fun t =>
          t.fpc.chanMem.readBytes (c.val * 131072 + (a - 0x40000)) n = natLE n ((s.th c th).gr rd).toNat ∧
          (t.th c th).state = 2)) ∧
    (0x400000000 ≤ a →
      (Effects (.ld c th rd ra off size sx .clean) s fun t => t.excepted c th 2) ∧
      (Effects (.st c th rd ra off size .clean) s fun t => t.excepted c th 2))

/-- What an atomic stores, from the old value, rb and rd (R140): AMO.CAS stores rb where the old value equals rd. -/
def Sys2Proof.Machine.amoStores (old b d : Word) (n : Nat) : Word :=
  match n with
  | 0 => old + b
  | 1 => old &&& b
  | 2 => old ||| b
  | 3 => old ^^^ b
  | 4 => b
  | 5 => if old.toNat < b.toNat then b else old
  | 6 => if old.toNat < b.toNat then old else b
  | _ => if old = d then b else old

/-- The atomics on an aligned shared-memory word (R69, R140): rd receives the old value and memory the new one; another
address is ADDR_FAULT (2) or MISALIGNED (3). -/
def Obligations.AtomicInstructionsComplete : Prop :=
  ∀ (s : State) (c : Fin 32) (th : Fin 128) (rd ra rb : BitVec 5) (a : Nat) (old b d : Word), s.running c th →
    a = ((s.th c th).gr ra).toNat → b = (s.th c th).gr rb → d = (s.th c th).gr rd →
    old = BitVec.ofNat 64 (leNat (s.fpc.shared.readBytes (c.val * 2 ^ 20 + (a - 0x100000)) 8)) →
    let done (n : Nat) (t : State) : Prop :=
      t.fpc.shared.readBytes (c.val * 2 ^ 20 + (a - 0x100000)) 8 = natLE 8 (amoStores old b d n).toNat ∧
        t.wrote s c th rd old
    let all (P : Nat → State → Prop) : Prop :=
      Effects (.amoAdd c th rd ra rb .clean) s (P 0) ∧ Effects (.amoAnd c th rd ra rb .clean) s (P 1) ∧
      Effects (.amoOr c th rd ra rb .clean) s (P 2) ∧ Effects (.amoXor c th rd ra rb .clean) s (P 3) ∧
      Effects (.amoSwap c th rd ra rb .clean) s (P 4) ∧ Effects (.amoMaxu c th rd ra rb .clean) s (P 5) ∧
      Effects (.amoMinu c th rd ra rb .clean) s (P 6) ∧ Effects (.amoCas c th rd ra rb .clean) s (P 7)
    (0x100000 ≤ a → a + 8 ≤ 0x200000 → a % 8 = 0 → s.sharedBad c (a - 0x100000) = false → all done) ∧
    (0x100000 ≤ a → a + 8 ≤ 0x200000 → a % 8 ≠ 0 → all fun _ t => t.excepted c th 3) ∧
    (a < 0x40000 ∨ 0x400000000 ≤ a → all fun _ t => t.excepted c th 2)

/-- Every thread is listed once: the keys of the table of threads rise. -/
def Sys2Proof.Machine.State.threadsListed (s : State) : Prop := (s.fpc.threads.map (·.1)).Pairwise (· < ·)

/-- A copy of `n` bytes between shared memory and the program-data window, in either direction (R141). -/
def Sys2Proof.Machine.dmaSpans (src dst n : Nat) : Prop :=
  (0x100000 ≤ src ∧ src + n ≤ 0x200000 ∧ 0x200000000 ≤ dst ∧ dst + n ≤ 0x400000000) ∨
    (0x200000000 ≤ src ∧ src + n ≤ 0x400000000 ∧ 0x100000 ≤ dst ∧ dst + n ≤ 0x200000)

/-- FENCE, CINV, DMA and a DMA's completion (R131, R141): FENCE only moves on; CINV removes the line of its address from
the cluster's data cache, and outside the window is ADDR_FAULT (2); a DMA between shared memory and the window, in either
direction, starts where its channel or flag takes DMAs, its fifth for a thread is DMA_LIMIT (15); one that meets no error
copies its bytes and leaves the list; its flag is set, or wakes the first thread that waits for it, and its record with the
status stands in its channel's tail slot, committed. -/
def Obligations.FenceCacheAndDmaInstructionsComplete : Prop :=
  ∀ (s : State) (c : Fin 32) (th : Fin 128) (ra rb rc : BitVec 5) (a b r : Nat) (d : DmaJob) (err : DmaError) (id k st : Nat),
    (s.running c th → a = ((s.th c th).gr ra).toNat → b = ((s.th c th).gr rb).toNat →
      r = ((s.th c th).gr rc).toNat →
      (Effects (.fence c th .clean) s fun t => t.jumped s c th ((s.th c th).pc + 1) ∧ t.fpc.shared = s.fpc.shared) ∧
      (0x200000000 ≤ a → a < 0x400000000 →
        Effects (.cinv c th ra .clean) s fun t =>
          t.cachedLine c ((a - 0x200000000) / 64) = none ∧ t.jumped s c th ((s.th c th).pc + 1)) ∧
      (a < 0x200000000 ∨ 0x400000000 ≤ a → Effects (.cinv c th ra .clean) s fun t => t.excepted c th 2) ∧
      (dmaSpans a b (64 * (r % 1024)) → a % 64 = 0 → b % 64 = 0 → 0 < r % 1024 →
        (bitOf r 16 = true ∧ r / 1024 % 64 < 32 ∧
          f_fpc_EVT_CFG_enable.get (s.rd .fpc_EVT_CFG [c.val, r / 1024 % 64]) = 1 ∧
          f_fpc_EVT_CFG_ext_kind.get (s.rd .fpc_EVT_CFG [c.val, r / 1024 % 64]) = 2) ∨
        (bitOf r 16 = false ∧
          f_fpc_CHAN_CFG_enable.get (s.rd .fpc_CHAN_CFG [c.val, r / 1024 % 64]) = 1 ∧
          f_fpc_CHAN_CFG_ext_kind.get (s.rd .fpc_CHAN_CFG [c.val, r / 1024 % 64]) = 2) →
        if (s.fpc.dmas.filter fun d => d.cluster == c.val && d.thread == th.val).length < 4 then
          Effects (.dma c th ra rb rc .clean) s fun t =>
            t.fpc.dmas = s.fpc.dmas ++
              [{ cluster := c.val, thread := th.val, src := a, dst := b, blocks := r % 1024, isFlag := bitOf r 16,
                 obj := r / 1024 % 64 }] ∧ t.jumped s c th ((s.th c th).pc + 1)
        else Effects (.dma c th ra rb rc .clean) s fun t => t.excepted c th 15)) ∧
    (s.fpc.dmas[id]? = some d → d.isFlag = true → d.obj < 32 → s.threadsListed → Effects (.dmaComplete id err) s fun t =>
      t.fpc.dmas = s.fpc.dmas.eraseIdx id ∧
      (s.firstWaiter 5 d.obj d.cluster = none → t.evtSet d.cluster d.obj = true) ∧
      (s.firstWaiter 5 d.obj d.cluster = some k → k / 128 < 32 → (t.th (k / 128) (k % 128)).ready = true)) ∧
    (s.fpc.dmas[id]? = some d → d.isFlag = false → d.obj < 64 →
      s.chanUsed d.cluster d.obj + s.awarded 4 d.obj d.cluster < 32 → s.chanTail d.cluster d.obj < 32 →
      d.finished = some st ∨
        (d.finished = none ∧ err = .clean ∧ dmaSpans d.src d.dst (64 * d.blocks) ∧ 0 < d.blocks ∧
          s.dmaReach d.cluster d.src (64 * d.blocks) = true ∧ s.dmaReach d.cluster d.dst (64 * d.blocks) = true ∧
          s.dmaBad d.cluster d.src (64 * d.blocks) = false ∧ st = 0) →
      Effects (.dmaComplete id err) s fun t =>
        t.fpc.dmas = s.fpc.dmas.eraseIdx id ∧
        t.slotState d.cluster d.obj (s.chanTail d.cluster d.obj) = 2 ∧
        t.fpc.chanMem.readBytes (slotMem d.cluster d.obj (s.chanTail d.cluster d.obj)) 64 =
          padTo 64 (natLE 8 d.src ++ natLE 8 d.dst ++ natLE 2 d.blocks ++ natLE 1 st)) ∧
    (s.fpc.dmas[id]? = some d → d.finished = none → err = .clean → 0 < d.blocks →
      dmaSpans d.src d.dst (64 * d.blocks) → s.dmaBad d.cluster d.src (64 * d.blocks) = false →
      s.dmaReach d.cluster d.src (64 * d.blocks) = true → s.dmaReach d.cluster d.dst (64 * d.blocks) = true →
      Effects (.dmaComplete id err) s fun t =>
        (d.dst < 0x200000000 →
          t.fpc.shared.readBytes (d.cluster * 2 ^ 20 + (d.dst - 0x100000)) (64 * d.blocks) =
            s.fpc.pdata.readBytes (d.src - 0x200000000) (64 * d.blocks)) ∧
        (0x200000000 ≤ d.dst →
          t.fpc.pdata.readBytes (d.dst - 0x200000000) (64 * d.blocks) =
            s.fpc.shared.readBytes (d.cluster * 2 ^ 20 + (d.src - 0x100000)) (64 * d.blocks)))

/-! ### Kryx lookup, channel, event, deferred-update and disposition instructions (R91 to R96, R142 to R151) -/

/-- The thread met a long stall (R86): it waits for the object named and issues the same instruction again later. -/
def Sys2Proof.Machine.State.stalled (t s : State) (c th kind obj : Nat) : Prop :=
  (t.th c th).state = 3 ∧ (t.th c th).waitKind = kind ∧ (t.th c th).waitObj = obj ∧
    (t.th c th).pc = (s.th c th).pc ∧ (t.th c th).g = (s.th c th).g

/-- The thread has moved on to its next instruction. -/
def Sys2Proof.Machine.State.moved (t s : State) (c th : Nat) : Prop :=
  (t.th c th).pc = ((s.th c th).pc + 1) % 131072 ∧ (t.th c th).state = 2

/-- LKP and LKW (R124, R144, R145): LKP issues a lookup of the key it names, bound to its l register; a key outside its
space or a table that is not valid is TABLE_RANGE (8), an l register in flight LKP_BUSY (9); LKW takes the result of
the lookup or waits for it, and without one is LKW_STATE (10). -/
def Obligations.LookupInstructionsComplete : Prop :=
  ∀ (s : State) (c : Fin 32) (th : Fin 128) (l : BitVec 3) (table : BitVec 8) (ks : Bool) (koff : BitVec 7)
    (len start space : Nat) (r : LkResult), s.running c th →
    start = (if ks then koff.toNat else 4 * koff.toNat) → space = (if ks then 128 else 512) →
    (s.tableKeyLen table.toNat = none ∨ (s.tableKeyLen table.toNat = some len ∧ space < start + len) →
      Effects (.lkp c th l table ks koff .clean) s fun t => t.excepted c th 8) ∧
    (s.tableKeyLen table.toNat = some len → start + len ≤ space →
      (((s.th c th).lreg l.toNat).issued = true → ((s.th c th).lreg l.toNat).waited = false →
        Effects (.lkp c th l table ks koff .clean) s fun t => t.excepted c th 9) ∧
      (((s.th c th).lreg l.toNat).issued = false → (s.th c th).pkt = none →
        Effects (.lkp c th l table ks koff .clean) s fun t =>
          t.moved s c th ∧ ((t.th c th).lreg l.toNat).issued = true ∧ ((t.th c th).lreg l.toNat).waited = false ∧
          ((t.th c th).lreg l.toNat).result = none ∧
          t.fpc.lookups.map (fun x => (x.table, x.key, x.dest)) =
            s.fpc.lookups.map (fun x => (x.table, x.key, x.dest)) ++
              [(table.toNat, if ks then kbRange (s.th c th).kb start len else (s.th c th).scratch.readBytes start len,
                some (c.val, th.val, l.toNat))])) ∧
    (((s.th c th).lreg l.toNat).issued = false → Effects (.lkw c th l .clean) s fun t => t.excepted c th 10) ∧
    (((s.th c th).lreg l.toNat).issued = true →
      (((s.th c th).lreg l.toNat).result = none → Effects (.lkw c th l .clean) s fun t => t.stalled s c th 1 l.toNat) ∧
      (((s.th c th).lreg l.toNat).result = some r → Effects (.lkw c th l .clean) s fun t =>
        t.moved s c th ∧ ((t.th c th).lreg l.toNat).waited = true ∧ ((t.th c th).lreg l.toNat).result = some r))

/-- PASS.RES, PASS.COMMIT and PASS.RECV on a channel of the thread's own cluster (R91 to R93, R96, R129): a reservation
takes the tail slot and answers its address, four at once are RES_LIMIT (5); a commit makes the slot COMMITTED; a
receive copies the head slot to scratch and frees it; a full or an empty channel stalls; a channel that is not enabled is
CHAN_ATTR (7), a slot not held SLOT_ACCESS (6). -/
def Obligations.ChannelInstructionsComplete : Prop :=
  ∀ (s : State) (c : Fin 32) (th : Fin 128) (rd : BitVec 5) (ch : BitVec 6) (soff : BitVec 3) (cl : BitVec 5)
    (i : Nat), s.threadsListed → s.running c th → (s.th c th).ready = false → i < 32 →
    (f_fpc_CHAN_CFG_enable.get (s.rd .fpc_CHAN_CFG [c.val, ch.toNat]) = 0 →
      (Effects (.passRes c th rd ch false cl .clean) s fun t => t.excepted c th 7) ∧
      (Effects (.passRecv c th ch soff false .clean) s fun t => t.excepted c th 7)) ∧
    (f_fpc_CHAN_CFG_enable.get (s.rd .fpc_CHAN_CFG [c.val, ch.toNat]) = 1 →
      (4 ≤ (s.th c th).live.length → Effects (.passRes c th rd ch false cl .clean) s fun t => t.excepted c th 5) ∧
      ((s.th c th).live.length < 4 → 32 ≤ s.chanUsed c ch.toNat →
        Effects (.passRes c th rd ch false cl .clean) s fun t => t.stalled s c th 4 ch.toNat) ∧
      ((s.th c th).live.length < 4 → s.chanUsed c ch.toNat + s.awarded 4 ch.toNat c < 32 →
        s.chanTail c ch.toNat = i →
        Effects (.passRes c th rd ch false cl .clean) s fun t =>
          t.moved s c th ∧ t.slotState c ch.toNat i = 1 ∧ t.chanUsed c ch.toNat = s.chanUsed c ch.toNat + 1 ∧
          t.chanTail c ch.toNat = (i + 1) % 32 ∧ (t.th c th).live.length = (s.th c th).live.length + 1 ∧
          (t.th c th).gr rd = (if rd = 0 then 0 else BitVec.ofNat 64 (0x40000 + 0x800 * ch.toNat + 0x40 * i))) ∧
      (s.awarded 3 ch.toNat c = 0 → s.chanUsed c ch.toNat = 0 →
        Effects (.passRecv c th ch soff false .clean) s fun t => t.stalled s c th 3 ch.toNat) ∧
      (s.awarded 3 ch.toNat c = 0 → 0 < s.chanUsed c ch.toNat → s.chanHead c ch.toNat = i →
        s.slotState c ch.toNat i = 2 →
        Effects (.passRecv c th ch soff false .clean) s fun t =>
          t.moved s c th ∧ t.slotState c ch.toNat i = 0 ∧ t.chanUsed c ch.toNat = s.chanUsed c ch.toNat - 1 ∧
          t.chanHead c ch.toNat = (i + 1) % 32 ∧
          (t.th c th).scratch.readBytes (64 * soff.toNat) 64 =
            s.fpc.chanMem.readBytes (c.val * 131072 + ch.toNat * 2048 + i * 64) 64)) ∧
    (((s.th c th).gr rd).toNat = 0x40000 + 0x800 * ch.toNat + 0x40 * i →
      ((s.th c th).resvOf c ch.toNat i = none →
        Effects (.passCommit c th rd .clean) s fun t => t.excepted c th 6) ∧
      (s.slotState c ch.toNat i = 1 →
        (((s.th c th).resvOf c ch.toNat i).any fun r => !r.released && !r.committed) = true →
        Effects (.passCommit c th rd .clean) s fun t => t.moved s c th ∧ t.slotState c ch.toNat i = 2))

/-- SIGNAL, WAIT and remote operations (R95, R96, R142): a signal sets its flag, or is merged where it was set, or wakes
the first thread that waits for it; WAIT clears a set flag and moves on, or waits; a remote commit or signal takes effect
at its target when it arrives; a flag that is not enabled is CHAN_ATTR (7). -/
def Obligations.EventInstructionsComplete : Prop :=
  ∀ (s : State) (c : Fin 32) (th : Fin 128) (f : BitVec 6) (cl : BitVec 5) (k ch i : Nat) (rest : List RemoteOp),
    s.threadsListed → f.toNat < 32 → ch < 64 → i < 32 →
    (s.running c th → (s.th c th).ready = false →
      (f_fpc_EVT_CFG_enable.get (s.rd .fpc_EVT_CFG [c.val, f.toNat]) = 0 →
        (Effects (.signal c th f false cl .clean) s fun t => t.excepted c th 7) ∧
        (Effects (.wait c th f false .clean) s fun t => t.excepted c th 7)) ∧
      (f_fpc_EVT_CFG_enable.get (s.rd .fpc_EVT_CFG [c.val, f.toNat]) = 1 →
        (s.firstWaiter 5 f.toNat c = none →
          Effects (.signal c th f false cl .clean) s fun t => t.moved s c th ∧ t.evtSet c f.toNat = true) ∧
        (s.firstWaiter 5 f.toNat c = some k → k / 128 < 32 →
          Effects (.signal c th f false cl .clean) s fun t =>
            t.moved s c th ∧ (t.th (k / 128) (k % 128)).ready = true ∧ t.evtSet c f.toNat = s.evtSet c f.toNat) ∧
        (s.evtSet c f.toNat = true →
          Effects (.wait c th f false .clean) s fun t => t.moved s c th ∧ t.evtSet c f.toNat = false) ∧
        (s.evtSet c f.toNat = false →
          Effects (.wait c th f false .clean) s fun t => t.stalled s c th 5 f.toNat)) ∧
      (f_fpc_EVT_CFG_enable.get (s.rd .fpc_EVT_CFG [cl.toNat, f.toNat]) = 1 →
        f_fpc_EVT_CFG_ext_kind.get (s.rd .fpc_EVT_CFG [cl.toNat, f.toNat]) = 3 →
        f_fpc_EVT_CFG_src_cluster.get (s.rd .fpc_EVT_CFG [cl.toNat, f.toNat]) = c →
        Effects (.signal c th f true cl .clean) s fun t =>
          t.moved s c th ∧ t.fpc.remote = s.fpc.remote ++ [.signal c cl.toNat f.toNat])) ∧
    (s.fpc.remote = .signal c cl.toNat f.toNat :: rest → s.firstWaiter 5 f.toNat cl.toNat = none →
      Effects .remoteOpArrive s fun t => t.fpc.remote = rest ∧ t.evtSet cl.toNat f.toNat = true) ∧
    (s.fpc.remote = .commit c cl.toNat ch i :: rest → s.slotState cl.toNat ch i = 1 →
      Effects .remoteOpArrive s fun t => t.fpc.remote = rest ∧ t.slotState cl.toNat ch i = 2)

/-- Whether a packet's output is well formed (R151): the prepend bytes, the strip and the end of the header. -/
def Sys2Proof.Machine.Thread.editOk (th : Thread) : Bool :=
  let m32 := (th.meta' 32).toNat
  let hdrEnd := (th.meta' 33).toNat % 512
  decide (m32 / 65536 % 256 ≤ 128) && decide (hdrEnd ≤ 384) && decide (m32 % 512 ≤ hdrEnd)

/-- NOP, YIELD, HALT, RND, SCORE, DCMT and words that are no instruction (R86, R127, R137, R142, R143, R146): RND is
SplitMix64 of the thread's generator; SCORE reads a counter of the latest sweep where its group permits, all ones
elsewhere; HALT and DCMT of a resident thread commit its deferred updates, of a packet thread they are THREAD_KIND
(13). -/
def Obligations.ControlInstructionsComplete : Prop :=
  ∀ (s : State) (c : Fin 32) (th : Fin 128) (rd ra : BitVec 5) (w : BitVec 32) (g z1 z2 : Word) (n : Nat),
    s.running c th → g = (s.th c th).gen + 0x9E3779B97F4A7C15 →
    z1 = (g ^^^ (g >>> 30)) * 0xBF58476D1CE4E5B9 → z2 = (z1 ^^^ (z1 >>> 27)) * 0x94D049BB133111EB →
    n = ((s.th c th).gr ra).toNat →
    (Effects (.nop c th .clean) s fun t => t.moved s c th ∧ (t.th c th).g = (s.th c th).g) ∧
    (Effects (.yield c th .clean) s fun t =>
      (t.th c th).pc = ((s.th c th).pc + 1) % 131072 ∧ (t.th c th).g = (s.th c th).g ∧
      ((t.th c th).state = 1 ∨ (t.th c th).state = 2)) ∧
    (Effects (.rnd c th rd .clean) s fun t =>
      t.moved s c th ∧ (t.th c th).gen = g ∧
      ∀ r : BitVec 5, (t.th c th).gr r = if r = 0 then (0 : Word) else if r = rd then z2 ^^^ (z2 >>> 31) else (s.th c th).gr r) ∧
    (n / 8 < 321 → s.flag .skp_PERM [n / 8] f_skp_PERM_score = true →
      Effects (.score c th rd ra .clean) s fun t =>
        t.wrote s c th rd (BitVec.ofNat 64 ((SMap.get 0 s.cnt.sweepPage n).toNat % 2 ^ 48))) ∧
    (321 ≤ n / 8 ∨ s.flag .skp_PERM [n / 8] f_skp_PERM_score = false →
      Effects (.score c th rd ra .clean) s fun t => t.wrote s c th rd 0xFFFFFFFFFFFFFFFF) ∧
    (s.isResident c th = true →
      (Effects (.halt c th .clean) s fun t =>
        (t.th c th).state = 0 ∧ (t.fpc.commits.getLast?).map (·.entries) = some (s.th c th).deferred) ∧
      (Effects (.dcmt c th .clean) s fun t =>
        t.moved s c th ∧ (t.th c th).deferred = [] ∧
        (t.fpc.commits.getLast?).map (·.entries) = some (s.th c th).deferred)) ∧
    (s.isResident c th = false →
      (Effects (.halt c th .clean) s fun t => t.excepted c th 13) ∧ (Effects (.dcmt c th .clean) s fun t => t.excepted c th 13)) ∧
    (decodeKryx w = none → Effects (.illegal c th w) s fun t => t.excepted c th 0)

/-- CNT.ADD, CNT.ADDN, POL.CHG and LRN (R146): each enters one deferred update, whose 33rd is DEFER_FULL (11); a counter
outside the configured ones, or a policer where none is carved, is TABLE_RANGE (8), a learn record past scratch ADDR_FAULT (2). -/
def Obligations.DeferredUpdateInstructionsComplete : Prop :=
  ∀ (s : State) (c : Fin 32) (th : Fin 128) (ra rb rc : BitVec 5) (a b r : Nat), s.running c th →
    a = ((s.th c th).gr ra).toNat → b = ((s.th c th).gr rb).toNat → r = ((s.th c th).gr rc).toNat →
    (s.counterCount ≤ a % 2 ^ 28 →
      (Effects (.cntAdd c th ra rb .clean) s fun t => t.excepted c th 8) ∧
      (Effects (.cntAddn c th ra rb rc .clean) s fun t => t.excepted c th 8)) ∧
    (s.flag .tm_hmc_CARVE [] f_tm_hmc_CARVE_pol_en = false →
      Effects (.polChg c th ra rb .clean) s fun t => t.excepted c th 8) ∧
    (480 < a % 512 → Effects (.lrn c th ra .clean) s fun t => t.excepted c th 2) ∧
    (32 ≤ (s.th c th).deferred.length →
      (a % 2 ^ 28 < s.counterCount →
        (Effects (.cntAdd c th ra rb .clean) s fun t => t.excepted c th 11) ∧
        (Effects (.cntAddn c th ra rb rc .clean) s fun t => t.excepted c th 11)) ∧
      (s.flag .tm_hmc_CARVE [] f_tm_hmc_CARVE_pol_en = true →
        Effects (.polChg c th ra rb .clean) s fun t => t.excepted c th 11) ∧
      (a % 512 ≤ 480 → Effects (.lrn c th ra .clean) s fun t => t.excepted c th 11)) ∧
    ((s.th c th).deferred.length < 32 →
      (a % 2 ^ 28 < s.counterCount →
        (Effects (.cntAdd c th ra rb .clean) s fun t =>
          t.moved s c th ∧
          (t.th c th).deferred = (s.th c th).deferred ++ [.count (a % 2 ^ 28) 1 (b % 2 ^ 32)]) ∧
        (Effects (.cntAddn c th ra rb rc .clean) s fun t =>
          t.moved s c th ∧
          (t.th c th).deferred = (s.th c th).deferred ++ [.count (a % 2 ^ 28) (b % 2 ^ 16) (r % 2 ^ 32)])) ∧
      (s.flag .tm_hmc_CARVE [] f_tm_hmc_CARVE_pol_en = true →
        Effects (.polChg c th ra rb .clean) s fun t =>
          t.moved s c th ∧ (t.th c th).deferred = (s.th c th).deferred ++ [.charge (a % 2 ^ 20) (b % 2 ^ 32)]) ∧
      (a % 512 ≤ 480 → Effects (.lrn c th ra .clean) s fun t =>
        t.moved s c th ∧
        (t.th c th).deferred = (s.th c th).deferred ++ [.learn ((s.th c th).scratch.readBytes (a % 512) 32)]))

/-- EMIT, DROP, PUNT and MIRROR (R147, R150, R151): a disposition ends the thread's packet, begins its commit with the
deferred updates and leaves the thread IDLE; a malformed edit is EDIT_BAD (14), the fifth mirror MIRROR_LIMIT (12), a
resident thread THREAD_KIND (13). -/
def Obligations.DispositionInstructionsComplete : Prop :=
  ∀ (s : State) (c : Fin 32) (th : Fin 128) (ra : BitVec 5) (reason : BitVec 8) (p : Pkt), s.running c th →
    ((s.th c th).pkt = none →
      (Effects (.emit c th ra .clean) s fun t => t.excepted c th 13) ∧ (Effects (.drop c th reason .clean) s fun t => t.excepted c th 13) ∧
      (Effects (.punt c th ra .clean) s fun t => t.excepted c th 13) ∧ (Effects (.mirror c th ra .clean) s fun t => t.excepted c th 13)) ∧
    ((s.th c th).pkt = some p →
      (Effects (.drop c th reason .clean) s fun t =>
        (t.th c th).state = 0 ∧
        (t.fpc.commits.getLast?).map (fun k => (k.seq, k.kind, k.entries, k.mirrors)) =
          some (some p.seq, 1, (s.th c th).deferred, (s.th c th).mirrors)) ∧
      ((s.th c th).editOk = false →
        (Effects (.emit c th ra .clean) s fun t => t.excepted c th 14) ∧
        (Effects (.punt c th ra .clean) s fun t => t.excepted c th 14)) ∧
      ((s.th c th).editOk = true →
        (Effects (.emit c th ra .clean) s fun t =>
          (t.th c th).state = 0 ∧
          (t.fpc.commits.getLast?).map (fun k => (k.seq, k.kind, k.entries, k.out.map (·.queue))) =
            some (some p.seq, 0, (s.th c th).deferred, some (((s.th c th).gr ra).toNat % 2 ^ 19))) ∧
        (Effects (.punt c th ra .clean) s fun t =>
          (t.th c th).state = 0 ∧
          (t.fpc.commits.getLast?).map (fun k => (k.seq, k.kind, k.entries, k.punt.map (·.1.ring))) =
            some (some p.seq, 2, (s.th c th).deferred, some (((s.th c th).gr ra).toNat % 2 ^ 10)))) ∧
      (4 ≤ (s.th c th).mirrors.length → Effects (.mirror c th ra .clean) s fun t => t.excepted c th 12) ∧
      ((s.th c th).mirrors.length < 4 → Effects (.mirror c th ra .clean) s fun t =>
        t.moved s c th ∧ (t.th c th).mirrors.length = (s.th c th).mirrors.length + 1 ∧
        (t.th c th).mirrors.take (s.th c th).mirrors.length = (s.th c th).mirrors))

/-! ### Commit, policers, cluster lifecycle, dead balls and the debugger (R101 to R120, R147, R211, R341) -/

/-- COMMIT_COMPLETE and POLICER_CHARGE (R147, R208, R340, R341): a completed commit leaves the list and adds its counts, and
a dropped packet's mirrors pass to admission; a charge of a served data policer colours by its buckets, in mode 2 green
where bucket 0 holds the bytes, else yellow where bucket 1 does, else red, and the commit keeps the worst colour. -/
def Obligations.CommitAndPolicerCommandsComplete : Prop :=
  ∀ (s : State) (k : Commit) (l : List Commit) (n p b q m : Nat) (r : List (Nat × Nat)) (x : Policer),
    s.fpc.commits = k :: l →
    (k.charges = [] → k.entries = [.count n p b] → k.kind = 1 → k.seq = some q →
      Effects .commitComplete s fun t =>
        t.fpc.commits = l ∧ t.adm = s.adm ++ k.mirrors.map (fun a => { a with at' := s.cycle }) ∧
        (s.regionOk 4 (16 * n) = true →
          t.counterPair n = (s.counterPair n % 2 ^ 64 + p) % 2 ^ 64 +
            ((s.counterPair n / 2 ^ 64 + b) % 2 ^ 64) * 2 ^ 64)) ∧
    (k.charges = (n, b) :: r → s.polOk n = true → x = (s.pol n).upTo false (k.ts.toNat / 5120) →
      bitsOf (x.modeAt (k.ts.toNat / 5120)) 112 2 = 2 →
      Effects .policerCharge s fun t =>
        t.fpc.commits.length = l.length + 1 ∧ t.fpc.commits.head?.map (·.charges) = some r ∧
        (b * 256 ≤ x.lvl0 → (t.pol n).lvl0 = x.lvl0 - b * 256 ∧ (t.pol n).lvl1 = x.lvl1 ∧
          t.fpc.commits.head?.map (·.colour) = some k.colour) ∧
        (x.lvl0 < b * 256 → b * 256 ≤ x.lvl1 → (t.pol n).lvl0 = x.lvl0 ∧ (t.pol n).lvl1 = x.lvl1 - b * 256 ∧
          t.fpc.commits.head?.map (·.colour) = some (max k.colour 1)) ∧
        (x.lvl0 < b * 256 → x.lvl1 < b * 256 → (t.pol n).lvl0 = x.lvl0 ∧ (t.pol n).lvl1 = x.lvl1 ∧
          t.fpc.commits.head?.map (·.colour) = some (max k.colour 2))) ∧
    (k.charges = (m, b) :: r → s.polOk m = false →
      Effects .policerCharge s fun t =>
        t.pols = s.pols ∧
        t.fpc.commits.head?.map (·.colour) = some (max k.colour (min 2 (s.fld .pol_CFG [] f_pol_CFG_frozen_colour))))

/-- The thread of an instruction, and what its fetch and its reads meet in the cluster memories (R120). -/
def Sys2Proof.Machine.kryxErr : Instr → Option (Fin 32 × Fin 128 × CoreErr)
  | .add c th (err := e) .. | .sub c th (err := e) .. | .and c th (err := e) .. | .or c th (err := e) ..
  | .xor c th (err := e) .. | .shl c th (err := e) .. | .shr c th (err := e) .. | .sar c th (err := e) ..
  | .rotr c th (err := e) .. | .slt c th (err := e) .. | .sltu c th (err := e) .. | .minu c th (err := e) ..
  | .maxu c th (err := e) .. | .mul c th (err := e) .. | .mulhu c th (err := e) .. | .csum c th (err := e) ..
  | .popc c th (err := e) .. | .clz c th (err := e) .. | .bswap c th (err := e) .. | .bswap32 c th (err := e) ..
  | .bswap16 c th (err := e) .. | .addi c th (err := e) .. | .andi c th (err := e) .. | .ori c th (err := e) ..
  | .xori c th (err := e) .. | .shi c th (err := e) .. | .lui c th (err := e) .. | .slti c th (err := e) ..
  | .sltiu c th (err := e) .. | .ext c th (err := e) .. | .exts c th (err := e) .. | .ins c th (err := e) ..
  | .mask c th (err := e) .. | .bcc c th (err := e) .. | .j c th (err := e) .. | .jal c th (err := e) ..
  | .jr c th (err := e) .. | .hld c th (err := e) .. | .hst c th (err := e) .. | .movmg c th (err := e) ..
  | .movgm c th (err := e) .. | .lread c th (err := e) .. | .ld c th (err := e) .. | .st c th (err := e) ..
  | .amoAdd c th (err := e) .. | .amoAnd c th (err := e) .. | .amoOr c th (err := e) .. | .amoXor c th (err := e) ..
  | .amoSwap c th (err := e) .. | .amoMaxu c th (err := e) .. | .amoMinu c th (err := e) ..
  | .amoCas c th (err := e) .. | .fence c th (err := e) .. | .cinv c th (err := e) .. | .dma c th (err := e) ..
  | .lkp c th (err := e) .. | .lkw c th (err := e) .. | .passRes c th (err := e) .. | .passCommit c th (err := e) ..
  | .passRecv c th (err := e) .. | .signal c th (err := e) .. | .wait c th (err := e) .. | .nop c th (err := e) ..
  | .yield c th (err := e) .. | .halt c th (err := e) .. | .rnd c th (err := e) .. | .score c th (err := e) ..
  | .cntAdd c th (err := e) .. | .cntAddn c th (err := e) .. | .polChg c th (err := e) .. | .lrn c th (err := e) ..
  | .dcmt c th (err := e) .. | .emit c th (err := e) .. | .drop c th (err := e) .. | .punt c th (err := e) ..
  | .mirror c th (err := e) .. => some (c, th, e)
  | _ => none

/-- The cluster lifecycle (R26, R116 to R119, R620): CLUSTER_ENABLE starts an OFF cluster whose domain is ON and stops an ON
one, where no other transition waits; a start ends ON with its channels empty and every core without a failed self-test present, or,
with fewer than 12 usable cores, OFF and retired; the drain limit drops what a stopping cluster holds; a stop ends OFF.
The errors of a core's own memories, on every instruction of a running thread (R26, R120, R121): a corrected error or a parity
error of the instruction cache is counted; an uncorrectable error in instruction SRAM drops the thread's packet, and the word
keeps its error; one in the register file stops the core. -/
def Obligations.ClusterLifecycleCommandsComplete : Prop :=
  ∀ (s : State) (c : Fin 32) (failed : List (Fin 17)) (ch : Fin 64) (p : Fin 17) (k : Nat) (th : Fin 128) (i : Instr)
    (e : CoreErr),
    (s.flag .fpc_CL_STATUS [c] f_fpc_CL_STATUS_retired = false → s.lc (clusterLc c) = 0 →
      s.flag .fpc_CL_STATUS [c] f_fpc_CL_STATUS_restart_pending = false → s.pdOn (2 + c.val / 4) = true →
      Effects (.clusterEnable c true) s fun t =>
        t.lc (clusterLc c) = 1 ∧ t.flag .fpc_CL_CTRL [c] f_fpc_CL_CTRL_enable = true) ∧
    (s.flag .fpc_CL_STATUS [c] f_fpc_CL_STATUS_retired = false → s.lc (clusterLc c) = 2 →
      s.flag .fpc_CL_STATUS [c] f_fpc_CL_STATUS_stop_pending = false →
      Effects (.clusterEnable c false) s fun t =>
        t.lc (clusterLc c) = 3 ∧ t.flag .fpc_CL_CTRL [c] f_fpc_CL_CTRL_enable = false ∧
        SMap.get 0 t.fpc.stopSince c = s.cycle) ∧
    (s.lc (clusterLc c) = 1 → s.badCores c = [] → s.mgmt.reload = [] →
      (failed = [] → Effects (.clusterStartDone c failed) s fun t =>
        t.lc (clusterLc c) = 2 ∧ t.fld .fpc_CL_STATUS [c] f_fpc_CL_STATUS_present = 0xFFFF ∧
        t.fld .fpc_CL_STATUS [c] f_fpc_CL_STATUS_cores_usable = 17 ∧ t.chanUsed c ch = 0 ∧
        t.fpc.chanMem.read (c.val * 131072) = 0) ∧
      (failed.Nodup → failed.length = 6 → Effects (.clusterStartDone c failed) s fun t =>
        t.lc (clusterLc c) = 0 ∧ t.flag .fpc_CL_STATUS [c] f_fpc_CL_STATUS_retired = true)) ∧
    (s.lc (clusterLc c) = 3 → s.passed (SMap.get 0 s.fpc.stopSince c.val)
        (max 1 (s.fld .fpc_CL_CTRL [c] f_fpc_CL_CTRL_drain_limit) * 2000) = true →
      Effects (.clusterDrainLimit c) s fun t =>
        t.queueOf c = [] ∧ t.isHeld c = false ∧ ∀ th < 128, (t.th c th).pkt = none) ∧
    (s.lc (clusterLc c) = 3 → s.queueOf c = [] →
      (∀ th < 128, (s.th c th).pkt = none) →
      Effects (.clusterStopDone c) s fun t => t.lc (clusterLc c) = 0 ∧ ∀ th < 128, (t.th c th).state = 0) ∧
    (s.threadsListed → 2 ≤ s.lc (clusterLc c) → s.logicalOf c p = some k → k < 16 →
      Effects (.coreFail c p) s fun t =>
        t.corePresent c k = false ∧
        t.fld .fpc_CL_STATUS [c] f_fpc_CL_STATUS_cores_usable =
          s.fld .fpc_CL_STATUS [c] f_fpc_CL_STATUS_cores_usable - 1 ∧
        (∀ j < 8, (t.th c (k * 8 + j)).state = 0) ∧
        (s.fld .fpc_CL_STATUS [c] f_fpc_CL_STATUS_cores_usable < 13 →
          t.flag .fpc_CL_STATUS [c] f_fpc_CL_STATUS_retired = true)) ∧
    (kryxErr i = some (c, th, e) → (s.th c th).state = 2 →
      (e = .fetchBad ∨ s.fetchFails c th .clean = true → Effects i s fun t =>
        (t.th c th).state = 0 ∧ (t.th c th).pkt = none ∧ t.fetchFails c th .clean = true ∧
        (t.th c th).pc = (s.th c th).pc ∧ t.fld .fpc_ERR_STATUS [c] f_fpc_ERR_STATUS_last_ue_mem = 1 ∧
        t.fld .fpc_ERR_STATUS [c] f_fpc_ERR_STATUS_ue_count =
          min (s.fld .fpc_ERR_STATUS [c] f_fpc_ERR_STATUS_ue_count + 1) (2 ^ f_fpc_ERR_STATUS_ue_count.width - 1)) ∧
      (e = .regBad → s.fetchFails c th .clean = false → Effects i s fun t =>
        (t.th c th).state = 0 ∧ t.corePresent c (th.val / 8) = false ∧
        t.fld .fpc_ERR_STATUS [c] f_fpc_ERR_STATUS_last_ue_mem = 5 ∧
        t.fld .fpc_ERR_STATUS [c] f_fpc_ERR_STATUS_ue_count =
          min (s.fld .fpc_ERR_STATUS [c] f_fpc_ERR_STATUS_ue_count + 1) (2 ^ f_fpc_ERR_STATUS_ue_count.width - 1)) ∧
      (e = .fetchFixed ∨ e = .icache ∨ e = .regFixed → s.fetchFails c th .clean = false → Effects i s fun t =>
        t.fld .fpc_ERR_STATUS [c] f_fpc_ERR_STATUS_ce_other =
          min (s.fld .fpc_ERR_STATUS [c] f_fpc_ERR_STATUS_ce_other + 1) (2 ^ f_fpc_ERR_STATUS_ce_other.width - 1)))

/-- The dead-ball detector and the long-wait watch (R101 to R106, R118): a dead ball that stands for the window fires once,
records the busy threads and steers the cluster away, and is held where `hold` is set; DB_RESUME ends every waiting
packet thread and steers back; a wait longer than the threshold is counted once. -/
def Obligations.DeadBallCommandsComplete : Prop :=
  ∀ (s : State) (c : Fin 32) (th : Fin 128) (p : Pkt),
    (s.flag .fpc_DB_CFG [c] f_fpc_DB_CFG_enable = true → s.lc (clusterLc c) = 2 → s.isHeld c = false →
      s.deadBall c = true → (∀ i < 128, (s.th c i).state ≠ 4) →
      s.passed (SMap.get 0 s.fpc.quiet c.val) (max 256 (s.fld .fpc_DB_CFG [c] f_fpc_DB_CFG_window)) = true →
      s.flag .fpc_DB_CFG [c] f_fpc_DB_CFG_hold = true →
      Effects (.deadBall c) s fun t =>
        t.isHeld c = true ∧ t.flag .fpc_CL_STATUS [c] f_fpc_CL_STATUS_steered = true ∧
        t.fld .fpc_DB_STATUS [c] f_fpc_DB_STATUS_fires =
          min (s.fld .fpc_DB_STATUS [c] f_fpc_DB_STATUS_fires + 1) (2 ^ f_fpc_DB_STATUS_fires.width - 1) ∧
        (th.val < 64 → (t.rd .fpc_DB_THREADS [c, 0]).getLsbD th = decide ((s.th c th).state ≠ 0))) ∧
    (s.isHeld c = true → (s.th c th).state = 3 → (s.th c th).pkt = some p →
      Effects (.dbResume c) s fun t =>
        t.isHeld c = false ∧ t.flag .fpc_CL_STATUS [c] f_fpc_CL_STATUS_steered = false ∧ (t.th c th).pkt = none ∧
        s.fld .fpc_DB_STATUS [c] f_fpc_DB_STATUS_aborted_packets ≤
          t.fld .fpc_DB_STATUS [c] f_fpc_DB_STATUS_aborted_packets) ∧
    ((s.th c th).state = 3 → (s.th c th).longSeen = false →
      s.fld .fpc_WATCH_CFG [c] f_fpc_WATCH_CFG_threshold ≠ 0 →
      s.passed (s.th c th).waitSince (s.fld .fpc_WATCH_CFG [c] f_fpc_WATCH_CFG_threshold * 1024 + 1) = true →
      Effects (.longWait c th) s fun t =>
        (t.th c th).longSeen = true ∧
        t.fld .fpc_WATCH_CFG [c] f_fpc_WATCH_CFG_long_waits =
          min (s.fld .fpc_WATCH_CFG [c] f_fpc_WATCH_CFG_long_waits + 1) (2 ^ f_fpc_WATCH_CFG_long_waits.width - 1))

/-- The debugger (R111 to R113, R137): HALT keeps the state a thread would hold, RESUME gives it back, STEP runs one
instruction of a thread that would be READY and halts it again, lets one that would be in WAIT wait on until its
instruction completes, RELEASE_SLOT makes a RESERVED slot VOID. -/
def Obligations.DebuggerCommandsComplete : Prop :=
  ∀ (s : State) (c : Fin 32) (th : Fin 128) (ch : Fin 64) (i : Fin 32) (k : Nat),
    ((s.th c th).state ≠ 4 →
      Effects (.dbgHalt c th) s fun t =>
        (t.th c th).state = 4 ∧ (t.th c th).under = (if (s.th c th).state = 2 then 1 else (s.th c th).state) ∧
        (t.th c th).pc = (s.th c th).pc ∧ (t.th c th).g = (s.th c th).g) ∧
    ((s.th c th).state = 4 → (s.th c th).under = k → k = 0 ∨ k = 3 →
      Effects (.dbgResume c th) s fun t => (t.th c th).state = k ∧ (t.th c th).pc = (s.th c th).pc) ∧
    ((s.th c th).state = 4 → (s.th c th).under = 1 →
      (Effects (.dbgResume c th) s fun t => (t.th c th).state = 1 ∨ (t.th c th).state = 2) ∧
      (decodeKryx (s.nextWord c th) = some .nop → s.fetchFails c th .clean = false →
        Effects (.dbgStep c th .clean) s fun t =>
          (t.th c th).state = 4 ∧ (t.th c th).under = 1 ∧ (t.th c th).pc = ((s.th c th).pc + 1) % 131072) ∧
      (decodeKryx (s.nextWord c th) = none → s.fetchFails c th .clean = false →
        Effects (.dbgStep c th .clean) s fun t => t.excepted c th 0)) ∧
    ((s.th c th).state = 4 → (s.th c th).under = 3 →
      Effects (.dbgStep c th .clean) s fun t =>
        (t.th c th).state = 3 ∧ (t.th c th).stepping = true ∧ (t.th c th).waitSince = (s.th c th).waitSince) ∧
    ((s.th c th).state = 2 → (s.th c th).stepping = true → s.fetchFails c th .clean = false →
      Effects (.nop c th .clean) s fun t =>
        (t.th c th).state = 4 ∧ (t.th c th).under = 1 ∧ (t.th c th).stepping = false ∧
        (t.th c th).pc = ((s.th c th).pc + 1) % 131072) ∧
    (s.slotState c ch i = 1 → Effects (.releaseSlot c ch i) s fun t => t.slotState c ch i = 3)

/-! ### The transaction engine (R217 to R232, R236 to R240, R260, R506) -/

/-- The engine has operation `n`, of row `row`, in front of it: the batch in hand goes on, the record names a unit that
exists and permits its opcode and flags, its tile is available, and the link serves Shoilany's units (R25, R217, R219 to
R222, R227). -/
def Sys2Proof.Machine.State.takes (s : State) (row : TxRow) (b : Batch) (n : Nat) (r : List Byte) : Prop :=
  s.tab.batch = some b ∧ b.failed = false ∧ b.ready = false ∧ b.waitSince = none ∧ b.results.length = n ∧
    b.ops[n]? = some r ∧ unitExists r = true ∧ rowOf r = some row ∧ flagsOk r = true ∧ s.tileGone r = false ∧
    (0x10 ≤ opKind r → s.d2dHealth ≠ 2)

/-- Result `n` of the batch in hand: its tag, status, cause and unit. -/
def Sys2Proof.Machine.State.resultOf (t : State) (n : Nat) : Option (Nat × Nat × Nat × Nat) :=
  (t.tab.batch.bind fun b => b.results[n]?).map fun o => (o.tag, o.status, o.cause, o.unit)

/-- Operation `n` has staged: its result shows no failure, and its changes stand behind the batch's earlier ones. -/
def Sys2Proof.Machine.State.stages (t s : State) (n : Nat) (r : List Byte) (l : List Staged) : Prop :=
  t.resultOf n = some (opTag r, 0, 0, opUnit r) ∧ t.stagedNow = s.stagedNow ++ l

/-- Operation `n` has failed with a cause (R230). -/
def Sys2Proof.Machine.State.failsOp (t : State) (n : Nat) (r : List Byte) (cause : Nat) : Prop :=
  t.resultOf n = some (opTag r, 2, cause, opUnit r)

/-- INSERT, DELETE and MODIFY of routes (R189, R221, R230): an absent route is staged on die while the quota has room, a
present one is KEY_EXISTS (5); DELETE stages its removal and MODIFY its new data, an absent one is KEY_ABSENT (6). -/
def Obligations.RouteOperationsStage : Prop :=
  ∀ (s : State) (b : Batch) (n k : Nat) (r : List Byte) (e : TEntry),
    (s.takes .lpmInsert b n r → s.routeOf r true = .ok k →
      (s.view k = some e → Effects (.lpmInsert false) s fun t => t.failsOp n r 5) ∧
      (s.view k = none → s.unitsUsed (opInst r) false + (routeUnits (routeFamily k) : Int) ≤
          (s.fld .lpm_SLICE_CFG [opInst r] f_lpm_SLICE_CFG_ondie_quota * 4096 : Nat) →
        Effects (.lpmInsert false) s fun t =>
          t.stages s n r [.cell k (some { data := leAt r 32 4, id := s.tab.nextId })])) ∧
    (s.takes .lpmDelete b n r → s.routeOf r false = .ok k →
      (s.view k = none → Effects (.lpmDelete false) s fun t => t.failsOp n r 6) ∧
      (s.view k = some e → s.routeOk e = true →
        Effects (.lpmDelete false) s fun t => t.stages s n r [.cell k none])) ∧
    (s.takes .lpmModify b n r → s.routeOf r true = .ok k →
      (s.view k = none → Effects (.lpmModify false) s fun t => t.failsOp n r 6) ∧
      (s.view k = some e → s.routeOk e = true →
        Effects (.lpmModify false) s fun t => t.stages s n r [.cell k (some { e with data := leAt r 32 4 })]))

/-- INSERT, DELETE and MODIFY of exact-match and fast-break entries (R173, R195, R221, R222, R230): an absent key takes the
lowest free way of its candidate buckets; a present one is KEY_EXISTS (5); DELETE stages its removal and MODIFY its new
data, an absent key is KEY_ABSENT (6). -/
def Obligations.BucketOperationsStage : Prop :=
  ∀ (s : State) (b : Batch) (n k l : Nat) (r : List Byte) (e : TEntry),
    (((s.candidates k).filter s.bucketLive).findSome? fun b => lowestWay b s.wayFreeNew) = some l →
    (s.takes .exmInsert b n r → bitOf (opFlags r) 0 = false → s.exmPlace r true = .ok k →
      (s.view k = some e → Effects (.exmInsert false) s fun t => t.failsOp n r 5) ∧
      (s.view k = none → Effects (.exmInsert false) s fun t =>
        t.stages s n r [.cell k (some { data := opData r, id := s.tab.nextId, loc := l })] ∧ t.way l = k + 1)) ∧
    (s.takes .exmDelete b n r → s.exmPlace r false = .ok k →
      (s.view k = none → Effects (.exmDelete false) s fun t => t.failsOp n r 6) ∧
      (s.view k = some e → s.bucketLive (e.loc / 4) = true →
        Effects (.exmDelete false) s fun t => t.stages s n r [.cell k none])) ∧
    (s.takes .exmModify b n r → s.exmPlace r true = .ok k →
      (s.view k = none → Effects (.exmModify false) s fun t => t.failsOp n r 6) ∧
      (s.view k = some e → s.bucketLive (e.loc / 4) = true →
        Effects (.exmModify false) s fun t => t.stages s n r [.cell k (some { e with data := opData r })])) ∧
    (s.takes .fbkInsert b n r → fbkPlace r true = .ok k →
      (s.view k = some e → Effects (.fbkInsert false) s fun t => t.failsOp n r 5) ∧
      (s.view k = none → Effects (.fbkInsert false) s fun t =>
        t.stages s n r [.cell k (some { data := leAt r 32 8, id := s.tab.nextId, loc := l })] ∧ t.way l = k + 1)) ∧
    (s.takes .fbkDelete b n r → fbkPlace r false = .ok k →
      (s.view k = none → Effects (.fbkDelete false) s fun t => t.failsOp n r 6) ∧
      (s.view k = some e → s.bucketLive (e.loc / 4) = true →
        Effects (.fbkDelete false) s fun t => t.stages s n r [.cell k none])) ∧
    (s.takes .fbkModify b n r → fbkPlace r true = .ok k →
      (s.view k = none → Effects (.fbkModify false) s fun t => t.failsOp n r 6) ∧
      (s.view k = some e → s.bucketLive (e.loc / 4) = true →
        Effects (.fbkModify false) s fun t => t.stages s n r [.cell k (some { e with data := leAt r 32 8 })]))

/-- WRITE, FILL, CLEAR, AGE_TICK, REG_WRITE and READ on Pyrlys's indexed units (R55, R185, R188, R198, R205, R207, R208,
R228, R229): each stages the change its record names; an index past the unit is INDEX_RANGE (4), bytes that the
operation does not use BAD_FIELD (3); a READ answers and stages no change. -/
def Obligations.IndexedOperationsStage : Prop :=
  ∀ (s : State) (b : Batch) (n i : Nat) (r : List Byte) (g : Reg) (ix : List Nat) (w : Word) (tbl d size c : Nat),
    opIndex r = i → w = BitVec.ofNat 64 (leAt r 32 8) →
    (s.takes .fbkTmpl b n r → restZero r [(8, 8), (32, 8)] = true →
      (8192 ≤ i → Effects (.fbkTemplateWrite false) s fun t => t.failsOp n r 4) ∧
      (i < 8192 → (i % 8 = 0 → badTemplate (w &&& templateBits 0) = false) →
        Effects (.fbkTemplateWrite false) s fun t =>
          t.stages s n r [.word (Reg.addr .fbk_TMPL [i / 8, i % 8]) (w &&& templateBits (i % 8))])) ∧
    (s.takes .parse b n r → restZero r [(8, 8), (32, 8)] = true → findReg i = some (g, ix) → isParseReg g = true →
      s.badParseWord g (w &&& g.writable) = false →
      Effects (.parseWrite false) s fun t => t.stages s n r [.parse i (w &&& g.writable)]) ∧
    (s.takes .nhop b n r →
      (restZero r [(8, 8), (32, 15)] = false → Effects (.nhopWrite false) s fun t => t.failsOp n r 3) ∧
      (restZero r [(8, 8), (32, 15)] = true → 0xFFFFF < i → Effects (.nhopWrite false) s fun t => t.failsOp n r 4) ∧
      (restZero r [(8, 8), (32, 15)] = true → i ≤ 0xFFFFF → Effects (.nhopWrite false) s fun t =>
        t.stages s n r [.cell (nhopKey i) (some { data := opData r })])) ∧
    (s.takes .groupDesc b n r → restZero r [(8, 8), (32, 8)] = true → i < groupCount (opKind r) →
      (badDescriptor (opKind r) (leAt r 32 8) = true →
        Effects (.groupDescWrite false) s fun t => t.failsOp n r 11) ∧
      (badDescriptor (opKind r) (leAt r 32 8) = false → Effects (.groupDescWrite false) s fun t =>
        t.stages s n r [.cell (groupKey (opKind r) i) (some { data := leAt r 32 8 })])) ∧
    (s.takes .poolSlot b n r → restZero r [(8, 8), (32, 16)] = true → opData r < 2 ^ slotBits (opKind r) →
      i - 2 ^ 63 < poolCount (opKind r) →
      Effects (.poolSlotWrite false) s fun t =>
        t.stages s n r [.cell (poolKey (opKind r) (i - 2 ^ 63)) (some { data := opData r })]) ∧
    (s.takes .groupFill b n r → restZero r [(8, 8), (32, 16)] = true → i < groupCount (opKind r) →
      (s.view (groupKey (opKind r) i)).map (·.data) = some d → groupSize d = some size →
      c = bitsOf (opData r) 120 4 → 1 ≤ c → c ≤ fillMax (opKind r) →
      bitsOf (opData r) (slotBits (opKind r) * c) (120 - slotBits (opKind r) * c) = 0 → bitsOf (opData r) 124 4 = 0 →
      Effects (.groupFill false) s fun t =>
        t.stages s n r ((List.range size).map fun j =>
          .cell (poolKey (opKind r) (groupBase (opKind r) d + j))
            (some { data := bitsOf (opData r) (slotBits (opKind r) * (j % c)) (slotBits (opKind r)) }))) ∧
    (s.takes .default b n r → opKind r ≠ 4 → s.defaultTable r = some (tbl, size) →
      restZero r [(8, 8), (32, 16)] = true → opData r < 2 ^ size →
      Effects (.defaultDataWrite false) s fun t =>
        t.stages s n r [.cell (defaultKey (opKind r) tbl) (some { data := opData r })]) ∧
    (s.takes .counterClear b n r → restZero r [(8, 8), (32, 4)] = true → leAt r 32 4 = c → 0 < c → c ≤ 65536 →
      (s.counterCount < i + c → Effects (.counterClear false) s fun t => t.failsOp n r 4) ∧
      (i + c ≤ s.counterCount → (∀ j < c, s.regionOk 4 (16 * (i + j)) = true) →
        Effects (.counterClear false) s fun t => t.stages s n r [.clear i c])) ∧
    (s.takes .ageTick b n r → restZero r [] = true →
      Effects (.ageTick false) s fun t => t.stages s n r [.age]) ∧
    (s.takes .regWrite b n r → restZero r [(8, 8), (32, 8)] = true → findReg i = some (g, ix) →
      regUnitRange (opKind r) i = true →
      (g.row.sealing ≠ .tunable → g ≠ .exm_TBL_CFG → Effects (.txnRegWrite false) s fun t => t.failsOp n r 10) ∧
      (g.row.sealing = .tunable → g ≠ .exm_TBL_CFG → s.regRefuses g ix w = false →
        Effects (.txnRegWrite false) s fun t => t.stages s n r [.reg i w])) ∧
    (s.takes .read b n r → opKind r = 6 → restZero r [(8, 8)] = true → i ≤ 0xFFFFF →
      Effects (.txnRead false) s fun t =>
        t.stages s n r [] ∧
        (t.tab.batch.bind fun b => b.results[n]?).map (·.read) =
          some (padTo 16 [] ++ natLE 16 (match s.view (nhopKey i) with | some e => e.data | none => 0)))

/-- Operations on TCAM chains and classifier tables (R254 to R258, R272): a TCAM write puts a STAGED entry at its position
of a FREE one with its parity in the shadow, an insert into the free position its priority gives it, a delete marks a LIVE one; a classifier insert
stages a leaf slot, a delete marks one, node lines and rule bodies are written at staging, a root takes effect later. -/
def Obligations.ClassifierOperationsStage : Prop :=
  ∀ (s : State) (b : Batch) (n i tbl w pos rule k off : Nat) (r : List Byte) (e : TcamEnt) (x : Nat),
    opIndex r = i →
    (s.takes .tcamWrite b n r → s.tcamUnit (opInst r) = some (tbl, opInst r) → s.tcamWidth tbl = w →
      restZero r ((8, 8) :: tcamUsed w) = true → i < chainEntries w → i < 4096 →
      (2 ≤ (s.tcamEnt (opInst r) i).state → Effects (.tcamWrite false) s fun t => t.failsOp n r 11) ∧
      ((s.tcamEnt (opInst r) i).state = 0 → s.flag .tcm_TBL_CFG [tbl] f_tcm_TBL_CFG_order_check = false →
        Effects (.tcamWrite false) s fun t =>
          t.stages s n r [.tcam (opInst r)] ∧
          t.tcamEnt (opInst r) i =
            { TcamEnt.written { v := tcamV w r &&& tcamC w r, c := tcamC w r, set := true, p := tcamP r, d := tcamD r,
                                state := 1 } with killed := (s.tcamEnt (opInst r) i).killed })) ∧
    (s.takes .tcamDelete b n r → s.tcamUnit (opInst r) = some (tbl, opInst r) → restZero r [(8, 8)] = true →
      i < chainEntries (s.tcamWidth tbl) → i < 4096 → s.tcamEnt (opInst r) i = e →
      (e.state = 2 → Effects (.tcamDelete false) s fun t =>
        t.stages s n r [.tcam (opInst r)] ∧ t.tcamEnt (opInst r) i = { e with state := 3 }) ∧
      (e.state = 0 → Effects (.tcamDelete false) s fun t => t.failsOp n r 6)) ∧
    (s.takes .tcamInsert b n r → s.tcamUnit (opInst r) = some (tbl, opInst r) → s.tcamWidth tbl = w → w < 2 →
      restZero r (tcamUsed w) = true →
      insertPlan (s.tcamHeld (opInst r)) (tcamP r) (chainEntries w) = .at' pos [] → pos < 4096 →
      Effects (.tcamInsert false) s fun t =>
        t.stages s n r [.tcam (opInst r)] ∧
        t.tcamEnt (opInst r) pos =
          { TcamEnt.written { v := tcamV w r &&& tcamC w r, c := tcamC w r, set := true, p := tcamP r, d := tcamD r,
                              state := 1 } with killed := (s.tcamEnt (opInst r) pos).killed }) ∧
    (s.takes .dtcInsert b n r → s.leafCheck r = .ok (tbl, i, rule) → bitsOf (s.nodeWord tbl i 0) 62 2 = 2 →
      rule < 2 ^ 20 →
      (∀ j ∈ leafSlots, s.leafState tbl i j = 1 ∨ s.leafState tbl i j = 2 → s.leafRule tbl i j ≠ rule) →
      (leafSlots.find? fun j => s.leafState tbl i j == 0) = some k → (s.dtcPend tbl).length < 256 →
      Effects (.dtcInsert false) s fun t =>
        t.stages s n r [.dtc tbl] ∧ t.leafState tbl i k = 2 ∧ t.leafRule tbl i k = rule ∧
        t.dtcPend tbl = s.dtcPend tbl ++ [.slot i k true false]) ∧
    (s.takes .dtcDelete b n r → s.leafCheck r = .ok (tbl, i, rule) → rule < 2 ^ 20 →
      (leafSlots.find? fun j => s.leafRule tbl i j == rule && s.leafState tbl i j == 1) = some k →
      (∀ j ∈ leafSlots, s.leafState tbl i j ≠ 2) → (s.dtcPend tbl).length < 256 →
      Effects (.dtcDelete false) s fun t =>
        t.stages s n r [.dtc tbl] ∧ t.leafState tbl i k = 3 ∧
        t.dtcPend tbl = s.dtcPend tbl ++ [.slot i k false false]) ∧
    (s.takes .dtcNode b n r → s.dtcValid (opInst r) = true → restZero r [(8, 8), (16, 32)] = true →
      nodeIndex i = some (k, x) → k < s.dtcLines (opInst r) → s.nodeOk (opInst r) k = true → off < 4 →
      Effects (.dtcNodeWrite false) s fun t =>
        t.stages s n r [.dtc (opInst r)] ∧ t.nodeWord (opInst r) k (x + off) = leAt r (16 + 8 * off) 8 % 2 ^ 64) ∧
    (s.takes .dtcRule b n r → s.dtcValid (opInst r) = true → restZero r [(8, 8), (16, 32)] = true → r.length = 64 →
      ruleIndex i = some (rule, off) → rule < s.dtcRules (opInst r) → s.ruleOk (opInst r) rule = true →
      Effects (.dtcRuleWrite false) s fun t =>
        t.stages s n r [.dtc (opInst r)] ∧ t.ruleBytes (opInst r) rule off 32 = (r.drop 16).take 32) ∧
    (s.takes .dtcRoot b n r → s.dtcValid (opInst r) = true → restZero r [(8, 8), (32, 4)] = true →
      leAt r 32 4 < 2 ^ 25 → rootIndex i = some k → s.treeOf (opInst r) k = true →
      bitsOf (leAt r 32 4) 0 24 < s.dtcLines (opInst r) → s.stagedRoot (opInst r) k = none →
      (s.dtcPend (opInst r)).length < 256 →
      Effects (.dtcRootWrite false) s fun t =>
        t.stages s n r [.dtc (opInst r)] ∧
        t.stagedRoot (opInst r) k = some (BitVec.ofNat 64 (leAt r 32 4)) ∧ t.rd .dtc_ROOT [k] = s.rd .dtc_ROOT [k])

/-- WRITE to Shoilany's units (R300, R324, R336, R343, R348, R356): a permitted record is staged; one that breaks its unit's
rule is VALIDATION (11). -/
def Obligations.ShoilanyOperationsStage : Prop :=
  ∀ (s : State) (b : Batch) (n i c : Nat) (r : List Byte), opIndex r = i → opData r = c →
    restZero r [(8, 8), (32, 16)] = true →
    (s.takes .queue b n r → i < 589824 → bitsOf c 17 3 = 0 → bitsOf c 89 39 = 0 →
      (786432 < qcMinCells c → Effects (.queueWrite false) s fun t => t.failsOp n r 11) ∧
      ((s.q i).state = 0 → qcMinCells c ≤ 786432 → s.fld .qmg_POOL_CFG [qcPool c] f_qmg_POOL_CFG_limit ≠ 0 →
        Effects (.queueWrite false) s fun t => t.stages s n r [.queue i c])) ∧
    (s.takes .sched b n r → i / 65536 ≤ 4 → i % 65536 < levelNodes (i / 65536) → bitsOf c 57 71 = 0 →
      ndShaper c < 131072 ∨ ndShaper c = 0x3FFFF →
      (s.schedRefused (i / 65536) (i % 65536) c = true →
        Effects (.schedWrite false) s fun t => t.failsOp n r 11) ∧
      (s.schedRefused (i / 65536) (i % 65536) c = false →
        Effects (.schedWrite false) s fun t => t.stages s n r [.sched (i / 65536) (i % 65536) c])) ∧
    (s.takes .shaper b n r → bitsOf c 121 7 = 0 → i ≤ 131071 →
      (spPir c ≠ 0xFFFFFFFF → spPir c < spCir c → Effects (.shaperWrite false) s fun t => t.failsOp n r 11) ∧
      (spPir c = 0xFFFFFFFF ∨ (spCir c ≤ spPir c ∧ spCbs c ≤ spPbs c) →
        Effects (.shaperWrite false) s fun t => t.stages s n r [.shaper i c])) ∧
    (s.takes .policer b n r → bitsOf c 115 13 = 0 → i < 2 ^ 20 →
      (bitsOf c 112 2 = 3 → Effects (.policerWrite false) s fun t => t.failsOp n r 11) ∧
      (bitsOf c 112 2 = 0 ∨ bitsOf c 112 2 = 2 → s.polOk i = true →
        Effects (.policerWrite false) s fun t => t.stages s n r [.policer i c]) ∧
      (bitsOf c 112 2 = 0 → s.polOk i = false → Effects (.policerWrite false) s fun t => t.failsOp n r 8)) ∧
    (s.takes .excPolicer b n r → bitsOf c 49 79 = 0 → i - 2 ^ 63 < 4096 →
      Effects (.excPolicerWrite false) s fun t => t.stages s n r [.policer (2 ^ 20 + (i - 2 ^ 63)) c]) ∧
    (s.takes .gateEntry b n r → i < 65536 → c < 2 ^ 40 → bitsOf c 8 32 ≠ 0 →
      Effects (.gateEntryWrite false) s fun t =>
        t.stages s n r [.gateEntry (i / 256) (i % 256) (bitsOf c 0 8) (bitsOf c 8 32)]) ∧
    (s.takes .gateControl b n r → bitsOf c 105 23 = 0 → i - 2 ^ 63 < 256 →
      (gcCycle c < 2000 → Effects (.gateControlWrite false) s fun t => t.failsOp n r 11) ∧
      (2000 ≤ gcCycle c → gcCycle c ≤ 2000000000 → 1 ≤ gcCount c → gcCount c ≤ 256 → s.gateEn (i - 2 ^ 63) = true →
        ((List.range (gcCount c)).map fun e => (s.gateEntryView (i - 2 ^ 63) e).2).foldl (· + ·) 0 ≤ gcCycle c →
        Effects (.gateControlWrite false) s fun t => t.stages s n r [.gateCtrl (i - 2 ^ 63) c]))

/-- The transaction engine decides on a batch now: all of an atomic batch is staged, or the operation in hand is, and no
follower is waited for (R223 to R225, R461). -/
def Sys2Proof.Machine.State.decides (s : State) (b : Batch) : Prop :=
  s.tab.report = none ∧ b.waitSince = none ∧ (b.ring.isSome = true ∨ b.boot = true) ∧ s.awaitsPeer b = false ∧
    ((b.atomic = true ∧ b.failed = false ∧ b.results.length = b.ops.length) ∨ (b.atomic = false ∧ b.ready = true))

/-- The transaction engine's own commands (R217 to R227, R498, R506, R513): the ring whose turn it is gives its batch, and one
whose descriptor cannot be read stops; a commit is at the next packet's number and an entry that it stages has its new value,
while the earlier one is kept, or it waits for a place that holds an earlier state, whose unit shows; once that state
is gone the wait ends in the commit; a wait, or an answer of staging, past its limit gives TIMEOUT (15), which aborts an atomic
batch and fails one operation of another; earlier states go once no packet reaches them; held commits are delivered when
the link is back, and not before. -/
def Obligations.TransactionEngineCommandsComplete : Prop :=
  ∀ (s : State) (b : Batch) (ring k u v : Nat) (d h recs : List Byte) (hr rr : DmaRead) (st : BitVec 8) (e : Option TEntry)
    (hc : HeldCommit) (c : Cell),
    (s.tab.batch = none → s.tab.report = none → s.txnRing = some ring →
      (s.isFollower = false → d.length = 64 → h.length = 64 → descOk d = true → headerOk h = true →
        leAt h 8 4 + 1 = leAt d 16 4 →
        Effects (.txnBatchTake (.data d) (.data h) (.data recs)) s fun t =>
          t.tab.ringTurn = (ring + 1) % 16 ∧
          t.tab.batch.map (fun x => (x.ring, x.tag, x.atomic, x.stopOnFail)) =
            some (some ring, leAt h 0 4, leAt h 4 1 == 1, leAt h 5 1 == 1) ∧
          t.tab.batch.map (fun x => (x.ops, x.results, x.staged)) = some (chunks64 recs (leAt h 8 4), [], []) ∧
          t.fld .pci_TXN_STATUS [] f_pci_TXN_STATUS_state = 1) ∧
      (Effects (.txnBatchTake (.failed st) hr rr) s fun t =>
        t.tab.ringTurn = (ring + 1) % 16 ∧ t.tab.batch = none ∧
        t.ringErr ring = (if s.ringErr ring = 3 then 3 else 2) ∧ t.ringState ring = s.ringHalts ring)) ∧
    (s.tab.batch = some b → s.decides b → s.tab.held = [] →
      (s.batchWaits b = none → Effects .txnCommit s fun t =>
        t.rd .pci_TXN_LAST_SEQ [] = BitVec.ofNat 64 s.fpc.seqNext ∧
        (b.results.length < b.ops.length → t.tab.batch.map (fun x => (x.ready, x.staged)) = some (false, []) ∧
          t.fld .pci_TXN_STATUS [] f_pci_TXN_STATUS_state = 1) ∧
        (b.staged = [(v, .cell (nhopKey k) e)] → k < 2 ^ 20 →
          t.entryNow (nhopKey k) = e.map (fun x =>
            match s.entryNow (nhopKey k) with | some y => if y.id = x.id then { x with hit := y.hit } else x | none => x) ∧
          (t.cell (nhopKey k)).old = some (s.entryNow (nhopKey k)) ∧ (t.cell (nhopKey k)).seq = s.fpc.seqNext)) ∧
      (s.batchWaits b = some u → u < 2 ^ f_pci_TXN_STATUS_wait_unit.width → Effects .txnCommit s fun t =>
        t.fld .pci_TXN_STATUS [] f_pci_TXN_STATUS_state = 2 ∧ t.fld .pci_TXN_STATUS [] f_pci_TXN_STATUS_wait_unit = u ∧
        t.tab.batch = some { b with waitSince := some s.cycle } ∧ t.tab.cells = s.tab.cells)) ∧
    (s.tab.batch = some b → b.waitSince = some v → b.ring.isSome = true ∨ b.boot = true → s.tab.held = [] →
      (s.batchWaits b = none → Effects .commitWaitEnd s fun t =>
        t.rd .pci_TXN_LAST_SEQ [] = BitVec.ofNat 64 s.fpc.seqNext ∧
        (b.staged = [(u, .cell (nhopKey k) none)] → k < 2 ^ 20 → t.entryNow (nhopKey k) = none) ∧
        (b.results.length < b.ops.length →
          t.tab.batch.map (fun x => (x.waitSince, x.staged)) = some (none, []))) ∧
      (s.batchWaits b = some u → exec .commitWaitEnd s = .next s)) ∧
    (s.tab.batch = some b → b.ring = some ring ∨ (b.ring = none ∧ b.boot = true) →
      (∃ w, b.waitSince = some w ∧ (s.batchWaits b).isSome = true ∧
        s.passed w (max 1 (s.fld .pci_TXN_CFG [] f_pci_TXN_CFG_wait_limit) * 2000) = true) ∨
      (b.waitSince = none ∧ b.failed = false ∧ b.ready = false ∧ b.results.length < b.ops.length ∧
        s.passed b.stageSince (max 1 (s.fld .pci_TXN_CFG [] f_pci_TXN_CFG_wait_limit) * 2000) = true) →
      (b.atomic = true → b.ring = some ring → s.ringState (16 + ring) ≠ 2 ∨ s.ringRoom (16 + ring) = true →
        Effects .txnWaitTimeout s fun t =>
          t.tab.batch = none ∧ t.fld .pci_TXN_STATUS [] f_pci_TXN_STATUS_state = 0 ∧
          t.fld .pci_TXN_STATUS [] f_pci_TXN_STATUS_aborted =
            min (s.fld .pci_TXN_STATUS [] f_pci_TXN_STATUS_aborted + 1) (2 ^ f_pci_TXN_STATUS_aborted.width - 1)) ∧
      (b.atomic = true → b.ring = none → 0 < b.ops.length → Effects .txnWaitTimeout s fun t =>
        t.tab.batch = none ∧ t.boot.baseFailed = true ∧ t.fld .pci_TXN_STATUS [] f_pci_TXN_STATUS_state = 0) ∧
      (b.atomic = false → b.stopOnFail = false → b.results.length + 1 < b.ops.length → Effects .txnWaitTimeout s fun t =>
        t.tab.batch.map (fun x => (x.results.getLast?.map fun o => (o.status, o.cause), x.staged, x.waitSince)) =
          some (some (2, 15), [], none))) ∧
    (SMap.find? s.tab.cells k = some c → (s.tab.cells.map (·.1)).Nodup → c.old ≠ none → c.seq ≤ s.feFloor →
      Effects .entryStateRelease s fun t => (t.cell k).old = none ∧ (t.cell k).cur = c.cur) ∧
    (s.d2dHealth ≠ 2 → Effects .heldCommitDeliver s fun t =>
      t.tab.held = [] ∧ (s.tab.held = [hc] → hc.changes = [.sched 1 u 5] → (t.node 1 u).cfg = 5)) ∧
    (s.d2dHealth = 2 → exec .heldCommitDeliver s = .next s)

/-- Age walks, the shadow audit and the TCAM scrub (R198, R199, R204, R236 to R240, R260): an entry at least age_limit
epochs old gives one record and the walk goes on; an audit step whose header matches counts its pass, one that meets a
failed read counts as skipped; a scrub step moves to the next row, and kills and counts a row whose
parity differs from the shadow. -/
def Obligations.AgeAuditAndScrubComplete : Prop :=
  ∀ (s : State) (i : Fin 64) (k a : Nat) (rest : List Nat) (e : TEntry) (h bs : List Byte) (st : BitVec 8) (blk : Fin 64) (flip : TcamFlip),
    (SMap.get [] s.tab.ageWalk i.val = k :: rest → s.entryNow k = some e → s.isFollower = false →
      a = (s.fld .exm_AGE_EPOCH [] f_exm_AGE_EPOCH_epoch + 2 ^ 32 - e.stamp) % 2 ^ 32 →
      Effects (.ageWalkStep i) s fun t =>
        SMap.get [] t.tab.ageWalk i.val = rest ∧
        (a < s.fld .exm_TBL_CFG [i.val] f_exm_TBL_CFG_age_limit →
          t.fld .exm_TBL_STATUS [i.val] f_exm_TBL_STATUS_ring_drops =
            s.fld .exm_TBL_STATUS [i.val] f_exm_TBL_STATUS_ring_drops) ∧
        (s.fld .exm_TBL_CFG [i.val] f_exm_TBL_CFG_age_limit ≤ a → s.ringRoom 33 = true →
          t.ringPidx 33 = (s.ringPidx 33 + 1) % 2 ^ 32) ∧
        (s.fld .exm_TBL_CFG [i.val] f_exm_TBL_CFG_age_limit ≤ a → s.ringRoom 33 = false →
          t.fld .exm_TBL_STATUS [i.val] f_exm_TBL_STATUS_ring_drops =
            min (s.fld .exm_TBL_STATUS [i.val] f_exm_TBL_STATUS_ring_drops + 1)
              (2 ^ f_exm_TBL_STATUS_ring_drops.width - 1))) ∧
    (s.flag .gkp_AUDIT_CFG [i.val] f_gkp_AUDIT_CFG_enable = true → s.boot.mgmtUp = true →
      s.passed (s.auditAt i 3) (max 1 (s.fld .gkp_AUDIT_CFG [i.val] f_gkp_AUDIT_CFG_interval) * 2000000) = true →
      (Effects (.auditStep i (.failed st) (.data bs) (.data h)) s fun t =>
        t.auditAt i 3 = s.cycle ∧
        t.fld .gkp_AUDIT_STATUS [i.val] f_gkp_AUDIT_STATUS_skipped =
          min (s.fld .gkp_AUDIT_STATUS [i.val] f_gkp_AUDIT_STATUS_skipped + 1)
            (2 ^ f_gkp_AUDIT_STATUS_skipped.width - 1)) ∧
      (leAt h 0 8 = SMap.get 0 s.tab.unitSeq (s.fld .gkp_AUDIT_CFG [i.val] f_gkp_AUDIT_CFG_unit) → leAt h 8 8 = 0 →
        s.fld .gkp_AUDIT_CFG [i.val] f_gkp_AUDIT_CFG_unit / 256 ≠ 3 →
        Effects (.auditStep i (.data h) (.data bs) (.data h)) s fun t =>
          t.fld .gkp_AUDIT_STATUS [i.val] f_gkp_AUDIT_STATUS_passes =
            min (s.fld .gkp_AUDIT_STATUS [i.val] f_gkp_AUDIT_STATUS_passes + 1)
              (2 ^ f_gkp_AUDIT_STATUS_passes.width - 1) ∧
          t.auditAt i 0 = 0)) ∧
    (s.flag .tcm_SCRUB_CFG [] f_tcm_SCRUB_CFG_enable = true →
      s.passed s.cls.scrubAt (max 1 (s.fld .tcm_SCRUB_CFG [] f_tcm_SCRUB_CFG_interval) * 2000) = true →
      flip.block = blk →
      Effects (.tcamScrub [flip]) s fun t =>
        t.cls.scrubRow = (s.cls.scrubRow + 1) % 2048 ∧ t.cls.scrubAt = s.cycle ∧
        t.fld .tcm_BLK_STATUS [blk.val] f_tcm_BLK_STATUS_kills =
          min (s.fld .tcm_BLK_STATUS [blk.val] f_tcm_BLK_STATUS_kills +
            if (s.tcamFlip s.cls.scrubRow flip).rowBad blk s.cls.scrubRow = true then 1 else 0)
            (2 ^ f_tcm_BLK_STATUS_kills.width - 1) ∧
        ((s.tcamFlip s.cls.scrubRow flip).rowBad blk s.cls.scrubRow = true →
          ∀ p ∈ s.rowPositions blk s.cls.scrubRow, (t.tcamEnt blk p).killed = true))

/-! ### Queues, scheduling and line ports (R282 to R302, R313, R326 to R337, R357, R365 to R376) -/

/-- Admission, spilling and the lifecycle of queues (R292, R293, R295, R297, R301, R302, R313): a packet for a queue that is
not ON is dropped and counted, one that no limit refuses enters its queue; a spill takes a context and the 16 oldest tail
cells; a completed write leaves its mirror record in the stack, a read takes its block out of the middle and frees it, one that
fails has its mirror record read and freezes its channel, a void mirror record shows no loss; a start ends ON with its average cleared, a flush counts what is left, and what only the counters showed, and
ends OFF. -/
def Obligations.QueueCommandsComplete : Prop :=
  ∀ (s : State) (a : AdmPkt) (q : Fin 589824) (x : Queue) (b : SBlock) (l : List SBlock) (n : Nat),
    s.q q = x → n = cellsOf (a.bytes.length + 4) →
    (s.admNext = some a → (if a.egress then 524288 + a.queue else a.queue) = q.val → isVoq q = !a.egress →
      a.red = false → x.cfgOld = none →
      (x.state ≠ 2 → x.state ≠ 3 →
        Effects .admission s fun t =>
          t.adm = dropFirst a s.adm ∧ (t.q q).pkts = x.pkts ∧
          t.fld .qmg_DROP_CNT [1] f_qmg_DROP_CNT_packets =
            (s.fld .qmg_DROP_CNT [1] f_qmg_DROP_CNT_packets + 1) % 2 ^ f_qmg_DROP_CNT_packets.width) ∧
      (x.state = 2 → x.stop = false → s.frameState a.fid ≠ 2 → n + s.fld .qmg_CFG [] f_qmg_CFG_refill_reserve ≤ s.freeCells →
        qcMaxDepth x.cfg = 0xFFFFF → x.ondie + n ≤ qcMinCells x.cfg → qcWredEn x.cfg = false →
        (a.egress = true → s.gateEn (s.portOf 4 a.queue) = false) →
        Effects .admission s fun t =>
          t.adm = dropFirst a s.adm ∧ (t.q q).count = x.count + 1 ∧ (t.q q).depth = x.depth + (a.bytes.length + 4) ∧
          ((t.q q).pkts.getLast?).map (·.a) = some a ∧ (t.q q).pkts.length = x.pkts.length + 1)) ∧
    (x.state = 2 → s.wantsSpill x = true → x.ctx = none → s.ctxUsed < 65536 →
      (∀ ch < 128, s.excluded ch = false ∧ (s.freeBlock ch (s.mirrorOf ch)).isSome = true) →
      Effects (.spillStep q []) s fun t =>
        (t.q q).blocks.length = x.blocks.length + 1 ∧ (t.q q).tail = x.tail.drop 16 ∧
        ((t.q q).blocks.getLast?).map (fun b => (b.stage, b.cells)) = some (0, x.tail.take 16) ∧
        t.ctxUsed = s.ctxUsed + 1) ∧
    (x.blocks = b :: l → b.stage = 0 → s.blockWaits q b true = false →
      Effects (.spillWriteDone q 0) s fun t =>
        (t.q q).blocks = { b with stage := 1 } :: l ∧
        (b.bad = false → b.mirror ≠ b.chan → b.num < s.spillBlocks → 4224 * s.spillBlocks ≤ 2 ^ 30 →
          t.hbm.mem.readBytes (b.chan * 2 ^ 30 + 4096 * s.spillBlocks + 128 * b.num) 64 = b.record)) ∧
    (x.blocks = b :: l → b.stage = 2 → (l.head?.all fun y => y.stage != 3) = true →
      s.blockWaits q b false = false →
      (b.bad = false → Effects (.refillReadDone q 0 true) s fun t =>
        (t.q q).blocks = l ∧ ∀ u ∈ t.chanBlocks b.chan, u.1 ≠ b.num) ∧
      (s.hFrozen b.chan = true → Effects (.refillReadDone q 0 false) s fun t =>
        (t.q q).blocks = { b with stage := 4, bad := true } :: l) ∧
      (s.hFrozen b.chan = false → b.chan < 128 → Effects (.refillReadDone q 0 false) s fun t =>
        t.hFrozen b.chan = true ∧ t.hFld b.chan f_tm_hmc_CH_STATUS_freeze_cause = 1)) ∧
    (x.blocks = b :: l → b.stage = 4 → (l.head?.all fun y => y.stage != 3) = true → b.void = true →
      b.mirrorBad = false → s.excluded b.mirror = false →
      Effects (.mirrorRecordReadDone q false) s fun t =>
        (t.q q).blocks = l ∧
        t.fld .qmg_LOSS [] f_qmg_LOSS_lost_cells = s.fld .qmg_LOSS [] f_qmg_LOSS_lost_cells) ∧
    (x.state = 1 →
      Effects (.queueStartDone q) s fun t => (t.q q).state = 2 ∧ (t.q q).avg = 0 ∧ (t.q q).offered = 0) ∧
    (x.state = 3 → x.partly = false → (x.blocks.all fun y => y.stage == 1 || y.stage == 3) = true →
      Effects (.queueFlushDone q) s fun t =>
        (t.q q).state = 0 ∧ (t.q q).pkts = [] ∧ (t.q q).count = 0 ∧ (t.q q).blocks = [] ∧
        t.fld .qmg_SPILL_CNT [] f_qmg_SPILL_CNT_flushed =
          min (s.fld .qmg_SPILL_CNT [] f_qmg_SPILL_CNT_flushed + x.pkts.length)
            (2 ^ f_qmg_SPILL_CNT_flushed.width - 1) ∧
        t.fld .qmg_LOSS [] f_qmg_LOSS_lost_packets =
          min (s.fld .qmg_LOSS [] f_qmg_LOSS_lost_packets + (x.count - x.pkts.length))
            (2 ^ f_qmg_LOSS_lost_packets.width - 1))

/-- Selection, shapers and gate lists (R326, R328, R331, R332, R335, R337, R357): a port whose one path of enabled nodes leads
to a queue with a packet at its front starts that packet; the ingress scheduler charges the VOQ it selects; credit held
past the time is released; a refill adds each enabled shaper's rates up to its bursts; a pending gate list takes over at
its switch tick. -/
def Obligations.SchedulerCommandsComplete : Prop :=
  ∀ (s : State) (p : Fin 256) (a b c n : Nat) (x0 x1 x2 x3 x4 : SchedNode) (k : QPkt) (q prio : Nat) (v : Fin 524288)
    (cyc : Nat) (sh : Shaper) (g : GateList) (sw : Nat),
    (a < 4096 → b < 16384 → c < 65536 → n < 65536 → s.portMaySelect p = true →
      s.tm.nodes = [(p.val, x0), (65536 + a, x1), (131072 + b, x2), (196608 + c, x3), (262144 + n, x4)] →
      ([x0, x1, x2, x3, x4].all fun x => ndEnable x.cfg && ndShaper x.cfg == 0x3FFFF) = true →
      ndParent x1.cfg = p.val → ndParent x2.cfg = a → ndParent x3.cfg = b → ndParent x4.cfg = c →
      s.gateEn p = false → ndPfcEn x4.cfg = false → s.egressFront n = some k →
      Effects (.portSelection p []) s fun t =>
        (SMap.get none t.tm.tx p.val).map (fun f => (f.a, f.queue, f.id, f.badEnd)) =
          some (k.a, 524288 + n, k.id, false)) ∧
    (s.serves = true → (s.tm.queues.all fun e => !(isVoq e.1 && e.2.partly)) = true → s.voqNext = some (q, prio) →
      (s.q q).front = some k → k.len ≤ 16004 → 0 < (s.q q).balance → (s.q q).balance < 2 ^ 31 →
      0 < s.fld .sch_ING_CFG [] f_sch_ING_CFG_credit_hold →
      Effects (.ingressSelection []) s fun t =>
        (t.q q).balance = (s.q q).balance - k.len ∧ SMap.get 0 t.tm.lastVoq prio = q + 1) ∧
    ((s.q v).emptySince = some cyc → (s.q v).pkts = [] → 0 < (s.q v).balance → s.gap = false →
      s.passed cyc (s.fld .sch_ING_CFG [] f_sch_ING_CFG_credit_hold * 2000) = true →
      Effects (.creditHoldExpiry v) s fun t => (t.q v).balance = 0 ∧ (t.q v).emptySince = none) ∧
    (s.tm.refillNext * 5120 ≤ s.pwr.time.toNat → SMap.find? s.tm.shapers n = some sh →
      (s.tm.shapers.map (·.1)).Nodup → sh.pend = none → spEnable sh.cfg = true → spPir sh.cfg ≠ 0xFFFFFFFF →
      Effects .shaperRefill s fun t =>
        (t.shaper n).com = min (sh.com + spCir sh.cfg) (spCbs sh.cfg * 256) ∧
        (t.shaper n).peak = min (sh.peak + spPir sh.cfg) (spPbs sh.cfg * 256) ∧
        t.tm.refillNext = s.tm.refillNext + 1) ∧
    ((s.gatePort p).pend = some (g, sw) → sw ≤ s.pwr.time.toNat →
      Effects (.gateListSwitch p) s fun t =>
        (t.gatePort p).oper = g ∧ (t.gatePort p).operT = sw ∧ (t.gatePort p).pend = none)

/-- A count of a line port advanced. -/
def Sys2Proof.Machine.State.lineAdds (t s : State) (m i n : Nat) : Prop :=
  t.fld .lmac_CNT [m, i] f_lmac_CNT_count =
    (s.fld .lmac_CNT [m, i] f_lmac_CNT_count + n) % 2 ^ f_lmac_CNT_count.width

/-- Transmission and the lifecycle of line ports (R365, R370, R374, R375, R620): a whole frame leaves on a link that is up,
is dropped and counted where it is too long or the link is down, and a pause frame that waited follows it; TS_FIFO gives its first entry; a port starts, stops, and
its link goes up and down. -/
def Obligations.LinePortCommandsComplete : Prop :=
  ∀ (s : State) (m : Fin 256) (f : TxFrame) (ty sq ts : Nat) (rest : List (Nat × Nat × Nat)) (v : Word)
    (c qn : Nat),
    (SMap.get none s.tm.tx m.val = some f → f.whole = true →
      (s.txMax m < f.a.bytes.length + 4 → Effects (.txFrame m) s fun t =>
        SMap.get none t.tm.tx m.val = none ∧ t.lineAdds s m 9 1) ∧
      (f.a.bytes.length + 4 ≤ s.txMax m → s.flag .lmac_PORT_STATUS [m.val] f_lmac_PORT_STATUS_link_up = false →
        Effects (.txFrame m) s fun t => SMap.get none t.tm.tx m.val = none ∧ t.lineAdds s m 11 1) ∧
      (f.a.bytes.length + 4 ≤ s.txMax m → s.flag .lmac_PORT_STATUS [m.val] f_lmac_PORT_STATUS_link_up = true →
        s.flag .lmac_MSEC_CFG [m.val] f_lmac_MSEC_CFG_enable = false →
        s.fld .lmac_PORT_CTRL [m.val] f_lmac_PORT_CTRL_ptp_mode = 0 → (s.port m).pauseQ = [] →
        Effects (.txFrame m) s fun t =>
          SMap.get none t.tm.tx m.val = none ∧ t.lineAdds s m 7 1 ∧ t.lineAdds s m 8 (f.a.bytes.length + 4) ∧
          .lineFrame m f.a.bytes f.badEnd ∈ t.out) ∧
      ((s.port m).pauseQ = [(c, qn)] → Effects (.txFrame m) s fun t =>
        (t.port m).pauseQ = [] ∧ .pauseFrame m (c != 8) (if c = 8 then 0 else 2 ^ c) qn ∈ t.out)) ∧
    ((s.port m).tsFifo = (ty, sq, ts) :: rest →
      Effects (.tsFifoPop m) s fun t =>
        (t.port m).tsFifo = rest ∧
        t.out = .readData (BitVec.ofNat 64 (2 ^ 63 + ty % 16 * 2 ^ 59 + sq % 65536 * 2 ^ 43 + ts % 2 ^ 43)) :: s.out) ∧
    ((s.port m).tsFifo = [] → Effects (.tsFifoPop m) s fun t => t.out = .readData 0 :: s.out) ∧
    (s.isPort m = true → f_lmac_PORT_CTRL_enable.get v = 1 → s.portState m = 0 →
      s.flag .lmac_PORT_STATUS [m.val] f_lmac_PORT_STATUS_restart_pending = false →
      s.pdOn (if m.val < 128 then 12 else 13) = true →
      Effects (.portEnable m v) s fun t => t.portState m = 1) ∧
    (s.isPort m = true → f_lmac_PORT_CTRL_enable.get v = 0 → s.portState m = 2 →
      s.flag .lmac_PORT_STATUS [m.val] f_lmac_PORT_STATUS_stop_pending = false →
      Effects (.portEnable m v) s fun t => t.portState m = 3) ∧
    (s.portState m = 1 →
      Effects (.portStartDone m) s fun t => t.portState m = 2) ∧
    (s.portOn m = true → Effects (.linkUp m) s fun t =>
      t.flag .lmac_PORT_STATUS [m.val] f_lmac_PORT_STATUS_link_up = true) ∧
    (s.flag .lmac_PORT_STATUS [m.val] f_lmac_PORT_STATUS_link_up = true → Effects (.linkDown m) s fun t =>
      t.flag .lmac_PORT_STATUS [m.val] f_lmac_PORT_STATUS_link_up = false ∧
      t.flag .lmac_PORT_STATUS [m.val] f_lmac_PORT_STATUS_link_down_seen = true) ∧
    (s.portState m = 3 → ((s.port m).rx).all (·.ended) = true → SMap.get none s.tm.tx m.val = none →
      Effects (.portStopDone m) s fun t =>
        t.portState m = 0 ∧ t.flag .lmac_PORT_STATUS [m.val] f_lmac_PORT_STATUS_link_up = false)

/-! ### The cell fabric (R385 to R405) -/

/-- Cells, reassembly, requests, grants and spraying (R387, R388, R390 to R393, R397): a data cell of this device waits in its
lane's receive FIFO, opens its context or joins it, which ends with its last cell, and a duplicate is counted; requests and grants change the flow's estimate and the VOQ's balance; a
budget that holds a quantum issues a GRANT; a cell is handed to a lane, which sends it; what has timed out is freed. -/
def Obligations.FabricCellCommandsComplete : Prop :=
  ∀ (s : State) (l : Fin 320) (h : BitVec 128) (p : List Byte) (c : FCell) (n src m : Nat) (pr : Bool)
    (cells : List (Nat × FCell)) (msgs : List (Nat × Bool × Nat)) (r : Reasm) (fl : List Flow) (f : Flow) (q : Fin 524288)
    (sr : Fin 1024) (pk : BitVec 23) (sys : Fin 65536) (cls : Fin 8) (po : Fin 256) (b : Bool)
    (l' : List FCell),
    (s.laneState l = 4 → crc16 ((natBE 16 h.toNat).take 14) = h.toNat % 65536 → c = FCell.ofHeader h.toNat p →
      (c.kind = 1 → s.cellMine c = true → Effects (.fabricCellReceive l h p) s fun t =>
        t.tm.rxData = s.tm.rxData ++ [(l.val, c)] ∧ (t.lane l).recv0 = ((s.lane l).recv0 + 1) % 2 ^ 24 ∧
        (t.lane l).bad = 0) ∧
      (c.kind = 1 → s.cellMine c = false → Effects (.fabricCellReceive l h p) s fun t =>
        t.tm.rxData = s.tm.rxData ∧
        (t.lane l).freed0 = (if (s.lane l).old = 0 then ((s.lane l).freed0 + 1) % 2 ^ 24 else (s.lane l).freed0) ∧
        t.fld .fab_MISC_STATUS [] f_fab_MISC_STATUS_misrouted =
          min (s.fld .fab_MISC_STATUS [] f_fab_MISC_STATUS_misrouted + 1)
            (2 ^ f_fab_MISC_STATUS_misrouted.width - 1))) ∧
    (2 ≤ s.laneState l → s.laneState l ≤ 4 → crc16 ((natBE 16 h.toNat).take 14) ≠ h.toNat % 65536 →
      Effects (.fabricCellReceive l h p) s fun t =>
        t.fld .fab_LANE_ERR [l.val] f_fab_LANE_ERR_hcrc_errors =
          min (s.fld .fab_LANE_ERR [l.val] f_fab_LANE_ERR_hcrc_errors + 1)
            (2 ^ f_fab_LANE_ERR_hcrc_errors.width - 1) ∧
        t.tm.rxData = s.tm.rxData ∧
        t.laneState l = if s.laneState l = 4 ∧ 3 ≤ (s.lane l).bad then 2 else s.laneState l) ∧
    (s.laneState l = 2 → (s.lane l).good = 7 → crc16 ((natBE 16 h.toNat).take 14) = h.toNat % 65536 →
      Effects (.fabricCellReceive l h p) s fun t => t.laneState l = 3) ∧
    (s.tm.rxData = (l.val, c) :: cells → s.tm.reasm = [] → s.freeCells ≠ 0 → 512 < c.len → c.idx < cellsOf c.len →
      Effects .dataCellReceive s fun t =>
        t.tm.rxData = cells ∧ (t.lane l).old = (s.lane l).old - 1 ∧
        (t.lane l).freed0 = (if (s.lane l).old = 0 then ((s.lane l).freed0 + 1) % 2 ^ 24 else (s.lane l).freed0) ∧
        t.tm.reasm.map (fun r => (r.hdr, r.cells.map fun e => (e.1, e.2.1), r.void, r.bad, r.since)) =
          [(c, [(c.idx, padTo 256 c.payload)], c.void, false, s.cycle)]) ∧
    (s.tm.rxData = (l.val, c) :: cells →
      s.tm.reasm.find? (fun r => r.hdr.src == c.src && r.hdr.pkt == c.pkt) = some r →
      (SMap.find? r.cells c.idx).isSome = true → c.len = r.hdr.len → c.port = r.hdr.port → c.cls = r.hdr.cls →
      c.dp = r.hdr.dp → c.tag = r.hdr.tag → c.idx < cellsOf c.len →
      Effects .dataCellReceive s fun t =>
        t.tm.rxData = cells ∧ t.tm.reasm = s.tm.reasm ∧
        t.fld .fab_REASM_STATUS [] f_fab_REASM_STATUS_dup_cells =
          min (s.fld .fab_REASM_STATUS [] f_fab_REASM_STATUS_dup_cells + 1)
            (2 ^ f_fab_REASM_STATUS_dup_cells.width - 1)) ∧
    (s.tm.rxData = (l.val, c) :: cells → s.tm.reasm = [r] → r.hdr.src = c.src → r.hdr.pkt = c.pkt → s.freeCells ≠ 0 →
      SMap.find? r.cells c.idx = none → c.len = r.hdr.len → c.port = r.hdr.port → c.cls = r.hdr.cls →
      c.dp = r.hdr.dp → c.tag = r.hdr.tag → c.idx < cellsOf c.len →
      Effects .dataCellReceive s fun t =>
        t.tm.rxData = cells ∧
        (r.cells.length + 1 < cellsOf c.len →
          t.tm.reasm.map (fun x => (x.hdr, x.void, x.bad, (SMap.find? x.cells c.idx).map (·.1))) =
            [(r.hdr, r.void || c.void, r.bad, some (padTo 256 c.payload))]) ∧
        (cellsOf c.len ≤ r.cells.length + 1 → t.tm.reasm = [])) ∧
    (s.tm.reasm.find? (fun r => r.hdr.src == sr.val && r.hdr.pkt == pk.toNat) = some r →
      s.passed r.since (2 * max 1 (s.fld .fab_CFG [] f_fab_CFG_reasm_timeout)) = true →
      r.hdr.src = sr.val → r.hdr.pkt = pk.toNat →
      Effects (.reasmTimeout sr pk) s fun t =>
        t.tm.reasm = s.tm.reasm.filter (fun x => !(x.hdr.src = sr.val ∧ x.hdr.pkt = pk.toNat)) ∧
        t.fld .fab_REASM_STATUS [] f_fab_REASM_STATUS_timeouts =
          min (s.fld .fab_REASM_STATUS [] f_fab_REASM_STATUS_timeouts + 1)
            (2 ^ f_fab_REASM_STATUS_timeouts.width - 1)) ∧
    (s.tm.rxMsgs = (src, false, m) :: msgs → m / 2 ^ 60 = 1 → s.tm.flows = [] →
      Effects .fabricRequest s fun t =>
        t.tm.rxMsgs = msgs ∧
        t.tm.flows = [⟨src, bitsOf m 44 16, bitsOf m 41 3, false, bitsOf m 0 28 * 256, s.cycle⟩]) ∧
    (s.tm.rxMsgs = (src, pr, m) :: msgs → m / 2 ^ 60 = 2 → s.gap = false → q.val = bitsOf m 44 16 * 8 + bitsOf m 41 3 →
      (s.fld .fab_SYS_MAP [bitsOf m 44 16] f_fab_SYS_MAP_valid = 0 → Effects .fabricGrant s fun t =>
        t.tm.rxMsgs = msgs ∧ (t.q q).balance = (s.q q).balance ∧
        t.fld .fab_MSG_STATUS [] f_fab_MSG_STATUS_bad_grant =
          min (s.fld .fab_MSG_STATUS [] f_fab_MSG_STATUS_bad_grant + 1) (2 ^ f_fab_MSG_STATUS_bad_grant.width - 1)) ∧
      (s.fld .fab_SYS_MAP [bitsOf m 44 16] f_fab_SYS_MAP_valid = 1 →
        s.fld .fab_SYS_MAP [bitsOf m 44 16] f_fab_SYS_MAP_pair = 0 →
        s.fld .fab_SYS_MAP [bitsOf m 44 16] f_fab_SYS_MAP_dev = src → (s.q q).pkts ≠ [] →
        0 ≤ (s.q q).balance → (s.q q).balance < 2 ^ 30 → Effects .fabricGrant s fun t =>
          t.tm.rxMsgs = msgs ∧ (t.q q).balance = (s.q q).balance + (m % 65536 * 64 : Nat))) ∧
    (s.isPort po = true → s.gap = false → s.tm.flows = [f] → f.cls < 8 → f.est ≠ 0 →
      s.fld .fab_SYS_MAP [f.sys] f_fab_SYS_MAP_port = po.val → s.grantStopped po f.cls = false →
      n = max 1 (s.fld .fab_GRANT_CFG [] f_fab_GRANT_CFG_quantum) → n * unitBits ≤ (s.budgetNow po).level →
      Effects (.grantIssue po) s fun t =>
        t.tm.flows.map (·.est) = [f.est - min n ((f.est + 63) / 64) * 64] ∧
        (SMap.get {} t.tm.budgets po).level = (s.budgetNow po).level - min n ((f.est + 63) / 64) * unitBits) ∧
    (s.tm.flows = f :: fl → f.src = sr.val → f.sys = sys.val → f.cls = cls.val → f.est = 0 →
      s.passed f.zeroSince (20 * max 1 (s.fld .fab_GRANT_CFG [] f_fab_GRANT_CFG_req_interval)) = true →
      Effects (.flowEntryExpiry sr sys cls) s fun t =>
        t.tm.flows = fl.filter fun x => !(x.src == sr.val && x.sys == sys.val && x.cls == cls.val)) ∧
    ((s.q q).pkts ≠ [] → (s.q q).balance ≤ 0 → s.serves = true →
      s.passed (s.q q).requestAt (2 * max 1 (s.fld .fab_GRANT_CFG [] f_fab_GRANT_CFG_req_interval)) = true →
      s.fld .fab_SYS_MAP [q.val / 8] f_fab_SYS_MAP_valid = 1 → s.fld .fab_SYS_MAP [q.val / 8] f_fab_SYS_MAP_pair = 0 →
      s.fld .fab_SYS_MAP [q.val / 8] f_fab_SYS_MAP_dev = n → SMap.get (0, []) s.tm.msgs (n * 2) = (0, []) →
      Effects (.requestInterval q) s fun t =>
        (t.q q).requestAt = s.cycle ∧
        SMap.get (0, []) t.tm.msgs (n * 2) =
          (s.cycle, [2 ^ 60 + q.val / 8 * 2 ^ 44 + q.val % 8 * 2 ^ 41 +
            min 0xFFFFFFF (((s.q q).depth + 255) / 256)])) ∧
    (SMap.get (0, []) s.tm.msgs (sr.val * 2 + if b then 1 else 0) = (src, [m]) → s.serves = true →
      s.passed src (2 * max 1 (s.fld .fab_CFG [] f_fab_CFG_ctrl_flush)) = true →
      Effects (.ctrlFlush sr b) s fun t =>
        SMap.get (0, []) t.tm.msgs (sr.val * 2 + if b then 1 else 0) = (0, []) ∧
        t.tm.ctrlQ = s.tm.ctrlQ ++ [
          { kind := 2, dst := sr, pair := b, src := s.devId, srcPair := s.fabTwin, idx := 1, payload := natBE 8 m }]) ∧
    (s.serves = true → s.d2dHealth ≠ 2 → s.tm.ctrlQ = [c] → c.kind = 2 → c.pair = false → c.trace = 0 →
      s.laneFor c = some l.val →
      Effects .cellHandoff s fun t =>
        t.tm.ctrlQ = [] ∧ t.tm.lanePtr = l.val ∧ (t.lane l).tx = (s.lane l).tx ++ [c] ∧ t.out = s.out) ∧
    ((s.lane l).tx = c :: l' → c.kind = 2 →
      (s.laneSend l).out = .cell l.val 2 [c.header] (padTo 256 c.payload) :: s.out ∧ ((s.laneSend l).lane l).tx = l' ∧
      ((s.laneSend l).lane l).sent1 = ((s.lane l).sent1 + if s.laneState l = 4 then 1 else 0) % 2 ^ 24) ∧
    (∀ d, (s.lane l).tx = d :: c :: l' → d.kind = 1 → c.kind = 2 →
      (s.laneSend l).out = .cell l.val 2 [c.header] (padTo 256 c.payload) :: s.out ∧
      ((s.laneSend l).lane l).tx = d :: l')

/-- Lanes and their link messages (R394 to R396, R401, R404): a lane enabled in a domain that is ON begins SIGNAL, detection
leads to ALIGN, an exchange of HELLOs to UP, and a stop to OFF, where a restart that is pending waits a cycle; timeouts and errors act as the rules say; the messages of
the partner set its reach, its credits and the cells lost on the way; an UP lane sends its status and its reach. -/
def Obligations.LaneCommandsComplete : Prop :=
  ∀ (s : State) (l : Fin 320) (i : Fin 5) (v : Word) (m k : Nat) (rest : List (Nat × Nat))
    (a b n : Nat),
    (s.d2dHealth ≠ 2 → l.val / 64 = i.val → bitOf v.toNat (l.val % 64) = true → s.laneState l = 0 →
      (s.lane l).restart = false → s.pdOn (laneDomain l) = true →
      Effects (.laneEnable i v) s fun t => t.laneState l = 1) ∧
    (s.d2dHealth ≠ 2 → l.val / 64 = i.val → bitOf v.toNat (l.val % 64) = false → s.laneState l = 4 →
      Effects (.laneEnable i v) s fun t => t.laneState l = 5) ∧
    (s.laneState l = 1 → Effects (.laneSignalDone l) s fun t => t.laneState l = 2) ∧
    (s.laneState l = 1 → (s.lane l).posted = false → s.passed (s.lane l).since 200000000 = true →
      Effects (.laneSignalTimeout l) s fun t => t.laneState l = 1 ∧ (t.lane l).posted = true) ∧
    (s.d2dHealth ≠ 2 → s.laneState l = 3 → (s.lane l).helloAt = 0 → (s.lane l).heard = false → (s.lane l).ackSent = false →
      Effects (.laneHelloSend l) s fun t =>
        t.laneState l = 3 ∧ (t.lane l).helloAt = s.cycle + 1 ∧ (t.lane l).ackSent = false) ∧
    (s.laneState l = 3 → s.passed (s.lane l).since 20000000 = true →
      Effects (.laneHelloTimeout l) s fun t =>
        t.laneState l = 1 ∧
        t.fld .fab_LANE_STATUS [l.val] f_fab_LANE_STATUS_retrains =
          min (s.fld .fab_LANE_STATUS [l.val] f_fab_LANE_STATUS_retrains + 1)
            (2 ^ f_fab_LANE_STATUS_retrains.width - 1)) ∧
    (s.laneState l = 4 → Effects (.laneErrorRetrain l a b n) s fun t =>
      t.laneState l = (if n < b * 1000000 then 1 else 4) ∧
      t.fld .fab_LANE_ERR [l.val] f_fab_LANE_ERR_fec_corrected =
        min (s.fld .fab_LANE_ERR [l.val] f_fab_LANE_ERR_fec_corrected + a)
          (2 ^ f_fab_LANE_ERR_fec_corrected.width - 1)) ∧
    (s.laneState l = 5 → Effects (.laneStopDone l) s fun t =>
      t.laneState l = 0 ∧ (t.lane l).link = [] ∧ (t.lane l).tx = [] ∧ (t.lane l).restart = (s.lane l).restart) ∧
    (s.laneState l = 0 → (s.lane l).restart = true → s.pdOn (laneDomain l) = true → (s.laneRest l).laneState l = 1) ∧
    ((s.lane l).link = (m, k) :: rest → m / 2 ^ 60 = 1 → s.laneState l = 3 → bitsOf m 44 4 = 1 → bitOf m 58 = true →
      bitOf m 59 = true →
      Effects (.linkHello l) s fun t =>
        t.laneState l = (if 2 ≤ (s.lane l).acks ∧ (s.lane l).ackSent = true then 4 else 3) ∧
        (t.lane l).heard = true ∧ (t.lane l).offer0 = bitsOf m 23 12 ∧ (t.lane l).offer1 = bitsOf m 15 8 ∧
        t.fld .fab_LANE_STATUS [l.val] f_fab_LANE_STATUS_partner_dev = bitsOf m 48 10) ∧
    ((s.lane l).link = (m, k) :: rest → m / 2 ^ 60 = 2 →
      Effects (.linkReach l) s fun t =>
        (t.lane l).link = rest ∧
        ∀ d < 1024, bitOf (t.lane l).reach d =
          if d / 32 = bitsOf m 55 5 then bitOf m (d % 32) else bitOf (s.lane l).reach d) ∧
    ((s.lane l).link = (m, k) :: rest → m / 2 ^ 60 = 3 → bitOf m 59 = false →
      Effects (.linkSync l) s fun t =>
        (t.lane l).link = rest ∧ (t.lane l).lost0 = (m % 2 ^ 24 + 2 ^ 24 - k) % 2 ^ 24 ∧
        (t.lane l).recv0 = (s.lane l).recv0 ∧ (t.lane l).freed1 = (s.lane l).freed1 ∧
        (t.lane l).freed0 =
          ((s.lane l).freed0 + ((m % 2 ^ 24 + 2 ^ 24 - k) % 2 ^ 24 + 2 ^ 24 - (s.lane l).lost0)) % 2 ^ 24) ∧
    ((s.lane l).link = (m, k) :: rest → m / 2 ^ 60 = 4 → bitOf m 59 = true →
      Effects (.linkCredit l) s fun t =>
        (t.lane l).link = rest ∧ (t.lane l).credit1 = m % 2 ^ 24 ∧ (t.lane l).credit0 = (s.lane l).credit0) ∧
    (s.laneState l = 4 → s.d2dHealth ≠ 2 → Effects (.linkStatusSend l) s fun t =>
      (t.lane l).statusAt = s.cycle ∧ t.out.length = s.out.length + 1) ∧
    (s.laneState l = 4 → s.d2dHealth ≠ 2 → (s.lane l).reachAt = none → Effects (.reachRefresh l) s fun t =>
      (t.lane l).reachAt = some s.cycle ∧ t.out.length = s.out.length + 1)

/-! ### HBM (R407 to R445) -/

/-- HBM requests (R412 to R422, R427): a frozen controller answers unavailable; another queues the request, or answers a read
from an older write to its granule; the request chosen next opens its row, a read answers with the stored bytes and a
write stores exactly its granules; a scrub that met a corrected error writes back; an idle row is closed unless a request for
it is chosen in that cycle, and a refresh is made or postponed. -/
def Obligations.HbmRequestCommandsComplete : Prop :=
  ∀ (s : State) (k : Fin 192) (tag : Nat) (cls : Fin 4) (g : Fin 12582912) (w : Option (List Byte)) (d : List Byte) (q : HReq)
    (n m t0 : Nat) (b : Fin 96) (po : Bool) (mo : Fin 64) (x : HChan) (e : HbmUe) (l : List HbmUe),
    s.hchan k = x → n = min (mo.val + 1) (12582912 - g.val) →
    t0 = s.fld (hReg .tm_hmc_PAGE_CFG .fe_hmc_PAGE_CFG k []).1 (hReg .tm_hmc_PAGE_CFG .fe_hmc_PAGE_CFG k []).2
      f_tm_hmc_PAGE_CFG_idle_timer →
    (k.val < 128 ∨ 2 ≤ cls.val →
      (s.hFrozen k = true → Effects (.hbmRequest k tag cls g w mo) s fun t =>
        t.out = .hbmResponse k tag 2 [] :: s.out ∧ t.hbm = s.hbm) ∧
      (s.hFrozen k = false → x.queue = [] → x.input = [] → Effects (.hbmRequest k tag cls g w mo) s fun t =>
        t.out = s.out ∧ t.hbm.mem = s.hbm.mem ∧
        (t.hchan k).queue = [
          { tag, home := cls.val, cls := cls.val, gran := g.val, n, wdata := w.map (padTo (64 * n)), at' := s.cycle
            id := x.arrived }]) ∧
      (s.hFrozen k = false → x.queue = [q] → x.input = [] → q.gran = g.val → q.n = 1 → q.wdata = some d → d.length = 64 →
        q.scrub = false →
        Effects (.hbmRequest k tag cls g none) s fun t =>
          t.out = .hbmResponse k tag 0 d :: s.out ∧ (t.hchan k).queue.map (·.tag) = [q.tag] ∧
          (t.hchan k).queue.map (·.cls) = [min q.cls cls.val])) ∧
    (128 ≤ k.val → cls.val < 2 → exec (.hbmRequest k tag cls g w mo) s = .next s) ∧
    (s.hFrozen k = false → x.queue = [q] → q.turn = 0 → q.promoted = false → 0 < s.ageLimit k q.cls →
      s.passed q.at' (s.ageLimit k q.cls) = true → Effects (.hbmPromotion k) s fun t =>
        (t.hchan k).queue = [{ q with promoted := true }] ∧
        t.hFld k f_tm_hmc_CH_STATUS_promotions =
          min (s.hFld k f_tm_hmc_CH_STATUS_promotions + 1) (2 ^ f_tm_hmc_CH_STATUS_promotions.width - 1)) ∧
    (s.hState k = 2 → s.hFrozen k = false → s.hPaused k = false → x.save = none → x.queue = [q] → q.turn = 0 → 0 < q.n →
      q.fwd = [] →
      Effects (.hbmSchedule k) s fun t =>
        (t.hchan k).turns = x.turns + 1 ∧ (t.hchan k).queue.map (fun o => (o.tag, o.turn)) = [(q.tag, x.turns + 1)] ∧
        (t.hbank k (s.bankOf k (q.gran + q.n - 1))).last = some (rowOf' (q.gran + q.n - 1)) ∧ t.hbm.mem = s.hbm.mem) ∧
    (s.hFrozen k = false → x.save = none → x.queue = [q] → x.input = [] → q.turn ≠ 0 → q.wdata = none →
      (q.scrub = false → Effects (.hbmReadDone k m []) s fun t =>
        t.out = .hbmResponse k q.tag 0 (s.readData k q) :: s.out ∧
        (t.hchan k).queue = [] ∧ t.hbm.mem = s.hbm.mem ∧ t.hFrozen k = false) ∧
      (q.scrub = true → q.n = 1 → Effects (.hbmReadDone k m []) s fun t =>
        t.out = s.out ∧ t.hbm.mem = s.hbm.mem ∧
        (t.hchan k).queue.map (·.wdata) = (if m = 0 then [] else [some (s.granule k q.gran)])) ∧
      (Effects (.hbmReadDone k m (e :: l)) s fun t =>
        (q.scrub = false → .hbmResponse k q.tag 3 [] ∈ t.out) ∧ (t.hchan k).queue = [] ∧ t.hbm.mem = s.hbm.mem ∧
        t.hFrozen k = true ∧ t.hFld k f_tm_hmc_CH_STATUS_freeze_cause = 1)) ∧
    (s.hFrozen k = false → x.save = none → x.queue = [q] → x.input = [] → q.turn ≠ 0 → q.wdata = some d →
      (q.scrub = true → Effects (.hbmWriteDone k) s fun t =>
        t.out = s.out ∧ (t.hchan k).queue = [] ∧ t.hbm.mem = s.hbm.mem) ∧
      (q.scrub = false → d.length = 64 → q.n = 1 → Effects (.hbmWriteDone k) s fun t => t.granule k q.gran = d) ∧
      (q.scrub = false → k.val < 128 → d.length = 64 * q.n → Effects (.hbmWriteDone k) s fun t =>
        t.out = .hbmResponse k q.tag 0 [] :: s.out ∧ (t.hchan k).queue = [] ∧
        t.hbm.mem.readBytes (k.val * 2 ^ 30 + q.gran * 64) (64 * q.n) = d ∧
        ∀ a, a < k.val * 2 ^ 30 + q.gran * 64 ∨ k.val * 2 ^ 30 + q.gran * 64 + 64 * q.n ≤ a →
          t.hbm.mem.read a = s.hbm.mem.read a)) ∧
    ((s.hbank k b).row = some m → s.hFrozen k = false → 0 < t0 → s.passed (s.hbank k b).lastAt (2 * t0) = true →
      ((s.hbank k b).lastAt + 2 * t0 + 1 < s.cycle ∨ s.rowChosen k b = false →
        Effects (.rowIdleTimeout k b) s fun t => (t.hbank k b).row = none ∧ (t.hchan k).queue = x.queue) ∧
      (s.cycle ≤ (s.hbank k b).lastAt + 2 * t0 + 1 → s.rowChosen k b = true → exec (.rowIdleTimeout k b) s = .next s)) ∧
    (s.hState k ≠ 0 → x.queue = [q] → (s.hbank k b).postponed = m →
      (q.turn = 0 → q.cls = 0 ∨ q.promoted = true → (∃ i < q.n, s.bankOf k (q.gran + i) = b.val) →
        Effects (.hbmRefresh k b po) s fun t =>
          (t.hbank k b).postponed = (if po = true ∧ m < 8 then m + 1 else 0) ∧
          (t.hbank k b).row = (if po = true ∧ m < 8 then (s.hbank k b).row else none)) ∧
      (q.turn = 0 → q.cls ≠ 0 → q.promoted = false → Effects (.hbmRefresh k b po) s fun t =>
        (t.hbank k b).postponed = 0 ∧ (t.hbank k b).row = none) ∧
      (Effects (.hbmRefresh k b po true) s fun t => ∀ c : Fin 96, c.val / 16 = b.val / 16 →
        (t.hbank k c).postponed = 0 ∧ (t.hbank k c).row = none))

/-- HBM channels (R423 to R430, R440 to R442): an error freezes a channel; a frozen channel whose capture was read is released
through STOPPING, a cycle in OFF and STARTING; a start ends ON with its capture cleared or OFF with training_failed; a training
command runs on a channel that is STARTING and is an access error on one that is not, a pattern is written to the training
area and compared with it; retraining pauses. -/
def Obligations.HbmChannelCommandsComplete : Prop :=
  ∀ (s : State) (k : Fin 192) (i : Fin 64) (c : HCmd) (tc : TrainCmd) (sy : BitVec 32) (n sv : Nat) (te : Int) (pc : Fin 2)
    (pa : Fin 16) (bu : BitVec 16) (la va : BitVec 8) (em : BitVec 36) (r ci : Reg × List Nat) (x : HChan),
    s.hchan k = x → r = hReg .tm_hmc_TRAIN_RESULT .fe_hmc_TRAIN_RESULT k [] →
    ci = hReg .tm_hmc_CAP_INFO .fe_hmc_CAP_INFO k [] →
    (s.hFrozen k = false → x.cmds[i.val]? = some c → Effects (.caParityError k i sy) s fun t =>
      t.hFrozen k = true ∧ t.hFld k f_tm_hmc_CH_STATUS_freeze_cause = 2 ∧ t.hbm.mem = s.hbm.mem ∧
      t.hFld k f_tm_hmc_CH_STATUS_data_suspect =
        (if 5 ≤ c.cmd ∧ c.cmd ≤ 7 then 1 else s.hFld k f_tm_hmc_CH_STATUS_data_suspect)) ∧
    (x.cmds[i.val]? = none → exec (.caParityError k i sy) s = .next s) ∧
    (s.tmClosed (ci.1.addr ci.2) = true →
      (Effects (.capInfoRead k) s fun t => t.fld .pci_ERR_STATUS [] f_pci_ERR_STATUS_last_kind = 2 ∧ t.hbm = s.hbm) ∧
      (Effects (.channelRelease k) s fun t => t.fld .pci_ERR_STATUS [] f_pci_ERR_STATUS_last_kind = 2 ∧ t.hbm = s.hbm)) ∧
    (s.tmClosed (ci.1.addr ci.2) = false → Effects (.capInfoRead k) s fun t =>
      t.out = .readData (s.rd ci.1 ci.2) :: s.out ∧
      t.hFld k f_tm_hmc_CH_STATUS_capture_read =
        (if s.hFrozen k = true then 1 else s.hFld k f_tm_hmc_CH_STATUS_capture_read)) ∧
    (s.hState k = 2 → s.tmClosed (ci.1.addr ci.2) = false →
      (s.hFrozen k = true → s.hFlag k f_tm_hmc_CH_STATUS_capture_read = true → Effects (.channelRelease k) s fun t =>
        t.hState k = 3 ∧ (t.hchan k).releasing = true) ∧
      (s.hFrozen k = false → Effects (.channelRelease k) s fun t =>
        t.hState k = 2 ∧ t.hFlag k f_tm_hmc_CH_STATUS_release_refused = true ∧ t.hbm = s.hbm)) ∧
    (s.hState k = 3 → Effects (.channelStopDone k) s fun t =>
      t.hState k = 0 ∧ (t.hchan k).queue = [] ∧ (t.hchan k).banks = [] ∧ t.hbm.mem = s.hbm.mem ∧
      (x.releasing = true → s.hbmPowered k = true → (t.hbmRest k).hState k = 1)) ∧
    (s.hState k = 1 →
      (Effects (.channelStartDone k true te) s fun t =>
        t.hState k = 0 ∧ t.hFlag k f_tm_hmc_CH_STATUS_training_failed = true) ∧
      (Effects (.channelStartDone k false te) s fun t =>
        t.hState k = 2 ∧ t.hFrozen k = false ∧ t.hFld k f_tm_hmc_CH_STATUS_freeze_cause = 0 ∧
        (t.hchan k).trainedTemp = te ∧ (t.hchan k).queue = [] ∧ (t.hchan k).save = none ∧
        (x.save = none → t.hbm.mem = s.hbm.mem)) ∧
      (x.pausedAt = 0 → Effects (.writePattern k pc pa bu sv) s fun t =>
        (t.hchan k).cmdRunning = some
          { cmd := 1, pc := pc.val, pattern := patternOf pa.val, bursts := burstsOf bu.toNat } ∧
        t.hFld k f_tm_hmc_CH_STATUS_data_suspect =
          (if x.releasing = true ∧ x.save = none ∧ sv ≠ 0 then 1 else s.hFld k f_tm_hmc_CH_STATUS_data_suspect) ∧
        (t.hchan k).save = (if x.releasing = true ∧ x.save = none then some (s.granBytes k 0 64) else x.save) ∧
        t.flag r.1 r.2 f_tm_hmc_TRAIN_RESULT_busy = true ∧ t.flag r.1 r.2 f_tm_hmc_TRAIN_RESULT_done = false) ∧
      (Effects (.readCompare k pc pa bu) s fun t =>
        (t.hchan k).cmdRunning =
          some { cmd := 2, pc := pc.val, pattern := patternOf pa.val, bursts := burstsOf bu.toNat } ∧
        t.flag r.1 r.2 f_tm_hmc_TRAIN_RESULT_busy = true ∧ t.flag r.1 r.2 f_tm_hmc_TRAIN_RESULT_done = false) ∧
      (Effects (.caLoopback k) s fun t => (t.hchan k).cmdRunning = some { cmd := 3 } ∧
        t.flag r.1 r.2 f_tm_hmc_TRAIN_RESULT_busy = true ∧ t.flag r.1 r.2 f_tm_hmc_TRAIN_RESULT_done = false) ∧
      (la.toNat ≤ 35 →
        (Effects (.setRdDelay k pc la va) s fun t => (t.hchan k).cmdRunning = some { cmd := 4 } ∧
          SMap.get 0 (t.hchan k).settings (4 * 2 ^ 16 + pc.val * 2 ^ 8 + la.toNat) = va.toNat) ∧
        (Effects (.setWrDelay k pc la va) s fun t => (t.hchan k).cmdRunning = some { cmd := 5 } ∧
          SMap.get 0 (t.hchan k).settings (5 * 2 ^ 16 + pc.val * 2 ^ 8 + la.toNat) = va.toNat) ∧
        (Effects (.setVref k pc la va) s fun t => (t.hchan k).cmdRunning = some { cmd := 6 } ∧
          SMap.get 0 (t.hchan k).settings (6 * 2 ^ 16 + pc.val * 2 ^ 8 + la.toNat) = va.toNat) ∧
        (Effects (.setCaDelay k pc la va) s fun t => (t.hchan k).cmdRunning = some { cmd := 7 } ∧
          SMap.get 0 (t.hchan k).settings (7 * 2 ^ 16 + pc.val * 2 ^ 8 + la.toNat) = va.toNat))) ∧
    (s.hState k = 0 → x.pausedAt = 0 →
      (Effects (.writePattern k pc pa bu sv) s fun t => t.hbm = s.hbm ∧
        t.fld .pci_ERR_STATUS [] f_pci_ERR_STATUS_last_kind = 4) ∧
      (Effects (.setVref k pc la va) s fun t => t.hbm = s.hbm ∧
        t.fld .pci_ERR_STATUS [] f_pci_ERR_STATUS_last_kind = 4)) ∧
    (x.cmdRunning = some tc → Effects (.trainCommandDone k n em sv) s fun t =>
      (t.hchan k).cmdRunning = none ∧ t.flag r.1 r.2 f_tm_hmc_TRAIN_RESULT_busy = false ∧
      t.flag r.1 r.2 f_tm_hmc_TRAIN_RESULT_done = true ∧
      t.hFld k f_tm_hmc_CH_STATUS_data_suspect =
        (if tc.saved = true ∧ sv ≠ 0 then 1 else s.hFld k f_tm_hmc_CH_STATUS_data_suspect) ∧
      (tc.cmd = 1 → tc.bursts = 1 → tc.pc < 2 → s.hState k = 1 → x.save = none →
        t.granule k tc.pc = natLE 32 (Config.trainPattern tc.pattern 0).toNat ++ (s.granule k tc.pc).drop 32) ∧
      (∀ b, tc.cmd = 1 → tc.bursts = 1 → tc.pc < 2 → x.save = some b → b.length = 4096 →
        t.areaGranule k tc.pc =
          natLE 32 (Config.trainPattern tc.pattern 0).toNat ++ (s.areaGranule k tc.pc).drop 32 ∧ t.hbm.mem = s.hbm.mem) ∧
      (tc.cmd = 2 →
        t.fld r.1 r.2 f_tm_hmc_TRAIN_RESULT_err_count =
          min (s.fld r.1 r.2 f_tm_hmc_TRAIN_RESULT_err_count + (n + (s.patternDiff k tc).length))
            (2 ^ f_tm_hmc_TRAIN_RESULT_err_count.width - 1)) ∧
      (tc.cmd = 3 →
        t.fld r.1 r.2 f_tm_hmc_TRAIN_RESULT_err_count =
          min (s.fld r.1 r.2 f_tm_hmc_TRAIN_RESULT_err_count + n) (2 ^ f_tm_hmc_TRAIN_RESULT_err_count.width - 1) ∧
        t.fld r.1 r.2 f_tm_hmc_TRAIN_RESULT_err_mask = s.fld r.1 r.2 f_tm_hmc_TRAIN_RESULT_err_mask ||| em.toNat)) ∧
    (s.retrainOn k = true → s.taskRuns 5 = true →
      (s.passed x.oscAt (max 1 (s.fld (retrainCfg k).1 (retrainCfg k).2 f_tm_hmc_RETRAIN_CFG_osc_interval) * 2000) = true →
        Effects (.oscCheck k) s fun t => (t.hchan k).oscAt = s.cycle) ∧
      (n = s.fld (retrainCfg k).1 (retrainCfg k).2 f_tm_hmc_RETRAIN_CFG_retrain_delta → 0 < n →
        8 * n ≤ (te - x.trainedTemp).natAbs → (∀ j < 192, (s.hchan j).pausedAt = 0) →
        Effects (.tempRetrain k te) s fun t =>
          (t.hchan k).pausedAt = s.cycle + 1 ∧ (t.hchan k).trainedTemp = te))

/-! ### Twin operation (R445 to R491) -/

/-- The link, step and the serve (R450 to R453, R461, R464, R466, R469 to R477, R479 to R481): a rally lane's states, frames
delivered in order, resending and loss; a HELLO of this version is shown in PARTNER; a handover; the umpire's grants, which are taken
by their epoch, and the lease; what ends step shows its cause. -/
def Obligations.TwinLinkCommandsComplete : Prop :=
  ∀ (s : State) (i : Fin 8) (h : BitVec 128) (p : List Byte) (l : List (List Byte)) (n : Nat) (w : List Nat) (u : UmpireFrame)
    (b : Batch),
    (2 ≤ s.rallyState i → s.rallyState i ≤ 4 → rallyCrc h.toNat p ≠ h.toNat % 2 ^ 32 →
      Effects (.rallyFrameReceive i h p) s fun t =>
        t.rallyState i = (if s.rallyState i = 4 ∧ 3 ≤ (s.rallyLane i).bad then 2 else s.rallyState i) ∧
        t.fld .twn_RALLY_LANE [i.val] f_twn_RALLY_LANE_crc_errors =
          min (s.fld .twn_RALLY_LANE [i.val] f_twn_RALLY_LANE_crc_errors + 1)
            (2 ^ f_twn_RALLY_LANE_crc_errors.width - 1)) ∧
    (rallyCrc h.toNat p = h.toNat % 2 ^ 32 → bitsOf h.toNat 126 2 ≠ 3 →
      (s.rallyState i = 2 → (s.rallyLane i).good = 7 → Effects (.rallyFrameReceive i h p) s fun t => t.rallyState i = 3) ∧
      (s.rallyState i = 4 → bitsOf h.toNat 126 2 = 1 → bitsOf h.toNat 88 32 = s.twin.rxNext → s.twin.rxNext < 2 ^ 32 →
        s.twin.rxAhead = [] → 0 < s.twin.pktPos → Effects (.rallyFrameReceive i h p) s fun t =>
          t.twin.rxNext = (s.twin.rxNext + 1) % 2 ^ 32 ∧ t.twin.goodAt = s.cycle ∧
          t.twin.rx = s.twin.rx ++ toWords ((padTo 256 p).take (min 256 (bitsOf h.toNat 39 9) / 4 * 4))) ∧
      (s.rallyState i = 4 → bitsOf h.toNat 126 2 = 1 →
        4096 ≤ (bitsOf h.toNat 88 32 + 2 ^ 32 - s.twin.rxNext) % 2 ^ 32 →
        Effects (.rallyFrameReceive i h p) s fun t => t.twin.rx = s.twin.rx ∧ t.twin.rxNext = s.twin.rxNext)) ∧
    (s.twin.linkUp = true → s.twin.replay = [(n, p)] → s.passed s.twin.ackAt 4000 = true → s.rallyNextLane = some i.val →
      Effects .rallyResend s fun t =>
        t.twin.ackAt = s.cycle ∧ t.twin.replay = s.twin.replay ∧ t.out.length = s.out.length + 1 ∧
        t.fld .twn_CNT [9] f_twn_CNT_count = (s.fld .twn_CNT [9] f_twn_CNT_count + 1) % 2 ^ f_twn_CNT_count.width) ∧
    (s.twin.linkUp = true → s.passed s.twin.goodAt 4000 = true → Effects .rallyLost s fun t =>
      t.twin.linkUp = false ∧ t.twin.partner = none ∧
      (s.inStep = true → t.fld .twn_STATUS [] f_twn_STATUS_break_cause = 15)) ∧
    (s.rallyState i = 1 → Effects (.rallyLaneState i .signalDone) s fun t => t.rallyState i = 2) ∧
    (s.rallyState i = 3 →
      ((s.rallyLane i).helloAt = 0 → (s.rallyLane i).heard = false → (s.rallyLane i).ackSent = false →
        Effects (.rallyLaneState i .helloDue) s fun t =>
          t.rallyState i = 3 ∧ (t.rallyLane i).helloAt = s.cycle + 1 ∧ t.out.length = s.out.length + 1) ∧
      (s.passed (s.rallyLane i).since 20000000 = true →
        Effects (.rallyLaneState i .helloTimeout) s fun t => t.rallyState i = 1)) ∧
    (s.rallyState i = 4 → Effects (.rallyLaneState i .errorRetrain) s fun t => t.rallyState i = 1) ∧
    ((s.rallyLane i).hello = p :: l →
      (leAt p 0 1 = 1 → s.twinState = 0 → Effects (.rallyHello i) s fun t =>
        t.fld .twn_PARTNER [] f_twn_PARTNER_dev_id = leAt p 4 2 % 1024 ∧ t.twin.partner.map (·.1) = some (leAt p 2 1) ∧
        (s.twin.linkUp = true → t.fld .twn_PARTNER [] f_twn_PARTNER_valid = 1) ∧
        (s.twin.linkUp = false → s.rallyState i ≠ 3 →
          t.fld .twn_PARTNER [] f_twn_PARTNER_valid = s.fld .twn_PARTNER [] f_twn_PARTNER_valid)) ∧
      (leAt p 0 1 ≠ 1 → Effects (.rallyHello i) s fun t =>
        (t.rallyLane i).hello = l ∧ (t.rallyLane i).acks = 0 ∧ t.twin.partner = s.twin.partner)) ∧
    (s.twinState = 0 → s.flag .twn_STATUS [] f_twn_STATUS_restart_pending = false → s.twin.linkUp = false →
      Effects (.inStepEnable true) s fun t =>
      t.twinState = 1 ∧ t.twin.phase = 1 ∧ t.flag .twn_CTRL [] f_twn_CTRL_in_step_en = true) ∧
    (s.twinState = 0 → s.flag .twn_STATUS [] f_twn_STATUS_restart_pending = true → s.stepRest.twinState = 1) ∧
    (s.inStep = true → s.flag .twn_STATUS [] f_twn_STATUS_stop_pending = true →
      s.stepRest.inStep = false ∧ s.stepRest.fld .twn_STATUS [] f_twn_STATUS_break_cause = 1) ∧
    (s.inStep = true → s.flag .twn_STATUS [] f_twn_STATUS_stop_pending = false →
      Effects (.inStepEnable false) s fun t =>
        t.fld .twn_STATUS [] f_twn_STATUS_break_cause = 1 ∧ t.flag .twn_CTRL [] f_twn_CTRL_in_step_en = false ∧
        t.inStep = false) ∧
    (s.isSource = true → s.serves = true → s.flag .twn_STATUS [] f_twn_STATUS_handover = false →
      Effects .relinquish s fun t =>
        t.serves = false ∧ t.flag .twn_STATUS [] f_twn_STATUS_handover = true ∧ t.twin.handSeq = s.fpc.seqNext ∧
        t.out.head? = some (.umpire 3 [s.fld .twn_EPOCH [] f_twn_EPOCH_held, umpireCrc 3 (s.fld .twn_EPOCH [] f_twn_EPOCH_held)])) ∧
    (s.rallyHead = some (0xA, 5, w, []) → s.isFollower = true →
      (s.serves = true → Effects .handover s fun t => t.isSource = true ∧ t.twin.rx = []) ∧
      (s.serves = false → Effects .handover s fun t =>
        t.flag .twn_STATUS [] f_twn_STATUS_handover = true ∧ t.twin.handSeq = at64 w 0 ∧ t.twin.rx = [])) ∧
    (s.flag .twn_STATUS [] f_twn_STATUS_handover = true → s.inStep = true →
      s.passed s.twin.handAt (2000 * max 1 (s.fld .twn_TUNE [] f_twn_TUNE_handover_limit)) = true →
      Effects .handoverTimeout s fun t =>
        t.fld .twn_STATUS [] f_twn_STATUS_break_cause = 17 ∧ t.inStep = false) ∧
    (s.tab.batch = some b → s.awaitsPeer b = true →
      s.passed b.stageSince (max 1 (s.fld .twn_TUNE [] f_twn_TUNE_stage_limit) * 2000) = true →
      Effects .stageTimeout s fun t => t.fld .twn_STATUS [] f_twn_STATUS_break_cause = 10) ∧
    (s.umpireRuns = true →
      (umpireCrc u.type.toNat u.msg.toNat ≠ u.crc.toNat →
        (Effects (.umpireGrant u) s fun t =>
          t.twin = s.twin ∧ t.serves = s.serves ∧
          t.fld .twn_CNT [2] f_twn_CNT_count = (s.fld .twn_CNT [2] f_twn_CNT_count + 1) % 2 ^ f_twn_CNT_count.width)) ∧
      (umpireCrc u.type.toNat u.msg.toNat = u.crc.toNat → u.type = 0x81 →
        (u.msg.toNat < s.fld .twn_EPOCH [] f_twn_EPOCH_highest → Effects (.umpireGrant u) s fun t =>
          t.serves = s.serves ∧ t.twin = s.twin ∧ t.rd .twn_EPOCH [] = s.rd .twn_EPOCH []) ∧
        (s.fld .twn_EPOCH [] f_twn_EPOCH_highest < u.msg.toNat → bitOf s.healthWord 21 = true →
          Effects (.umpireGrant u) s fun t =>
            t.serves = true ∧ t.twin.leaseEnd = s.cycle + 30000 ∧
            t.fld .twn_EPOCH [] f_twn_EPOCH_held = u.msg.toNat ∧
            t.fld .twn_EPOCH [] f_twn_EPOCH_highest = u.msg.toNat) ∧
        (0 < u.msg.toNat → u.msg.toNat = s.fld .twn_EPOCH [] f_twn_EPOCH_highest →
          u.msg.toNat = s.fld .twn_EPOCH [] f_twn_EPOCH_held → s.serves = true →
          (s.cycle < s.twin.leaseEnd → Effects (.umpireGrant u) s fun t =>
            t.serves = true ∧ t.twin.leaseEnd = s.cycle + 30000) ∧
          (s.twin.leaseEnd ≤ s.cycle → Effects (.umpireGrant u) s fun t =>
            t.twin.leaseEnd = s.twin.leaseEnd ∧
            t.fld .twn_CNT [1] f_twn_CNT_count = (s.fld .twn_CNT [1] f_twn_CNT_count + 1) % 2 ^ f_twn_CNT_count.width))) ∧
      (umpireCrc u.type.toNat u.msg.toNat = u.crc.toNat → u.type = 0x82 →
        Effects (.umpirePeer u) s fun t => t.twin.peerEpoch = u.msg.toNat ∧ t.twin.peerAt = s.cycle) ∧
      (s.serves = false → s.passed s.twin.peerAt 16001 = true → Effects .peerExpiry s fun t => t.twin.peerEpoch = 0) ∧
      (s.passed s.twin.beatAt 8000 = true → Effects .heartbeatSend s fun t =>
        t.twin.beatAt = s.cycle ∧
        t.out = .umpire 2 [s.healthWord, umpireCrc 2 s.healthWord] ::
          .umpire 1 [s.fld .twn_EPOCH [] f_twn_EPOCH_held, umpireCrc 1 (s.fld .twn_EPOCH [] f_twn_EPOCH_held)] :: s.out)) ∧
    (s.flag .twn_CFG [] f_twn_CFG_enable = true → s.serves = true → s.twin.leaseEnd ≤ s.cycle → s.isSource = false →
      Effects .leaseExpiry s fun t =>
        t.serves = false ∧ t.fld .twn_EPOCH [] f_twn_EPOCH_held = 0 ∧
        t.fld .twn_CNT [3] f_twn_CNT_count = (s.fld .twn_CNT [3] f_twn_CNT_count + 1) % 2 ^ f_twn_CNT_count.width)

/-- The records of the rally link (R454 to R468): each acts on the device that takes it in its role and then leaves the
stream, and where the device takes no log leaves it without effect; a frame that the log names enters with the log's number. -/
def Obligations.RallyRecordCommandsComplete : Prop :=
  ∀ (s : State) (low n d ce : Nat) (w : List Nat) (b : Batch) (o : OpResult) (f : RxFrame) (ue : List (Fin 1024)) (x y : Word)
    (e : PktEntry) (c : CopyItem) (full dis : Bool),
    s.twinState ≠ 3 →
    (s.rallyHead = some (1, low, w, []) → w.length = 5 → e = entryAtWord w 4 (at64 w 2) →
      (s.following = false → s.isSource = false → Effects (.rallyPkt d full ue ce dis) s fun t =>
        t.twin.rx = [] ∧ t.fpc = s.fpc) ∧
      (s.isFollower = true → s.flag .twn_STATUS [] f_twn_STATUS_handover = false → s.twin.pktPos = 0 →
        s.stepRests = false → e.kind = 0 → s.twin.joinT ≤ e.ts →
        (s.ownEvent e.mac = none → Effects (.rallyPkt d full ue ce dis) s fun t => t = s) ∧
        (s.ownEvent e.mac = some (.frame f) → f.bytes.length % 256 = e.lchk → s.tsNear f.ts.toNat e.ts = true →
          f.ended = true → s.waitFree e.mac = true → s.pipeHeld (e.mac / 16) = false → s.twin.pktCount = 0 →
          (s.pwr.time.toNat - at64 w 2) / 2 ≤ max 1 (s.fld .twn_TUNE [] f_twn_TUNE_lag_limit) →
          Effects (.rallyPkt d full ue ce dis) s fun t => t.twin.rx = [] ∧ t.fpc.seqNext = at64 w 0 + 1) ∧
        (s.ownEvent e.mac = some (.frame f) → s.tsNear f.ts.toNat e.ts = true → f.bytes.length % 256 ≠ e.lchk →
          Effects (.rallyPkt d full ue ce dis) s fun t => t.fld .twn_STATUS [] f_twn_STATUS_break_cause = 12))) ∧
    (s.rallyHead = some (2, low, w, []) → s.takesLog = true → s.tab.batch = none → s.tab.report = none →
      Effects .rallyTxn s fun t =>
        t.twin.rx = [] ∧ t.tab.batch.map (fun b => (b.number, b.ring)) = some (at64 w 0, none) ∧
        t.fld .pci_TXN_STATUS [] f_pci_TXN_STATUS_state = 1) ∧
    (s.rallyHead = some (2, low, w, []) → s.takesLog = false → Effects .rallyTxn s fun t =>
      t.twin.rx = [] ∧ (s.tab.batch = none → t.tab.batch = none)) ∧
    (s.twinState = 0 → s.tab.batch = some b → b.ring = none → b.boot = false →
      (s.rallyHead = some (3, 0, w, []) → Effects .rallyCommit s fun t => t.twin.rx = [] ∧ t.tab.batch = none) ∧
      (s.rallyHead = some (3, 1, w, []) → Effects .rallyAbort s fun t => t.twin.rx = [] ∧ t.tab.batch = none)) ∧
    (s.rallyHead = some (3, 0, w, []) → s.twinState ≠ 0 → s.forwarded (at64 w 0) = some b →
      (b.results.length < min (w.getD 2 0 + w.getD 3 0) b.ops.length → Effects .rallyCommit s fun t => t = s) ∧
      (min (w.getD 2 0 + w.getD 3 0) b.ops.length ≤ b.results.length → s.batchWaits b = none → b.atomic = true →
        Effects .rallyCommit s fun t =>
          t.tab.batch = none ∧ t.fld .pci_TXN_STATUS [] f_pci_TXN_STATUS_state = 0)) ∧
    (s.rallyHead = some (3, 1, w, []) → s.twinState ≠ 0 → s.forwarded (at64 w 0) = some b → b.atomic = true → Effects .rallyAbort s fun t =>
      t.tab.batch = none ∧ t.fld .pci_TXN_STATUS [] f_pci_TXN_STATUS_state = 0) ∧
    (s.rallyHead = some (4, 0, w, []) → s.tab.batch = some b → b.ring.isSome = true → b.number = at64 w 0 →
      b.results[w.getD 2 0]? = some o → Effects .rallyStaged s fun t =>
        t.twin.rx = [] ∧ t.tab.batch = some { b with peerStaged := max b.peerStaged (w.getD 2 0 + 1) }) ∧
    (s.rallyHead = some (5, 0, w, []) → s.takesLog = true → s.ringRoom 32 = true → Effects .rallyEvent s fun t =>
      t.twin.rx = [] ∧ t.ringPidx 32 = (s.ringPidx 32 + 1) % 2 ^ 32 ∧
      t.fld .exm_LEARN_STATUS [] f_exm_LEARN_STATUS_events =
        min (s.fld .exm_LEARN_STATUS [] f_exm_LEARN_STATUS_events + 1) (2 ^ f_exm_LEARN_STATUS_events.width - 1)) ∧
    (s.takesLog = false →
      (s.rallyHead = some (5, low, w, []) → Effects .rallyEvent s fun t => t.twin.rx = [] ∧ t.tab = s.tab) ∧
      (s.rallyHead = some (6, low, w, []) → Effects .rallyInject s fun t =>
        t.twin.rx = [] ∧ t.twin.injects = s.twin.injects)) ∧
    (s.rallyHead = some (6, low, w, []) → s.takesLog = true → Effects .rallyInject s fun t =>
      t.twin.rx = [] ∧ t.twin.injects.map (·.seq) = s.twin.injects.map (·.seq) ++ [at64 w 0] ∧
      t.twin.injects.map (·.bytes) = s.twin.injects.map (·.bytes) ++
        [(padTo (w.getD 2 0) (ofWords (w.drop 4))).take (w.getD 2 0)]) ∧
    (s.rallyHead = some (7, 0, w, []) → s.isFollower = true → Effects (.rallyTimeSend d) s fun t =>
      t.rd .cpr_TAI_OFFSET [] = BitVec.ofNat 64 (at64 w 2) ∧
      (t.pwr.time - BitVec.ofNat 64 (at64 w 0 + d) + 4).toNat ≤ 8) ∧
    (s.rallyHead = some (7, 1, w, []) → Effects .rallyTimeEcho s fun t => t.twin.rx = [] ∧ t.pwr = s.pwr) ∧
    (s.rallyHead = some (8, low, w, []) → s.isFollower = true →
      (SMap.find? s.twin.ownFolds (at64 w 0) = none → Effects .rallyCheck s fun t =>
        t.twin.rx = [] ∧ SMap.find? t.twin.peerFolds (at64 w 0) = some (BitVec.ofNat 64 (at64 w 2))) ∧
      (SMap.find? s.twin.ownFolds (at64 w 0) = some x → x ≠ BitVec.ofNat 64 (at64 w 2) → Effects .rallyCheck s fun t =>
        t.fld .twn_STATUS [] f_twn_STATUS_break_cause = 13)) ∧
    (s.inStep = true → n = s.twin.nextWindow → (n + 1) * 2 ^ 20 < s.fpc.seqNext → (n + 1) * 2 ^ 20 ≤ s.feFloor →
      y = SMap.get 0 s.twin.folds n →
      (s.isSource = true → Effects .foldWindowClose s fun t =>
        t.twin.nextWindow = n + 1 ∧ SMap.get 0 t.twin.folds n = 0) ∧
      (s.isSource = false → SMap.find? s.twin.peerFolds n = none → Effects .foldWindowClose s fun t =>
        t.twin.nextWindow = n + 1 ∧ SMap.find? t.twin.ownFolds n = some y)) ∧
    (s.twinState = 1 →
      (s.twin.phase = 2 → s.flag .twn_STATUS [] f_twn_STATUS_log_source = true → s.twin.linkUp = true →
        (s.twin.copyQ = none → s.tab.batch = none → Effects .resyncCopySend s fun t => t.twin.copyQ = some s.copyItems) ∧
        (s.twin.copyQ = some [] → Effects .resyncCopySend s fun t => t.twin.copyQ = none ∧ t.twin.phase = 3)) ∧
      (s.twin.phase = 2 → s.flag .twn_STATUS [] f_twn_STATUS_log_source = false →
        (s.rallyHead = some (9, low, w, []) →
          s.copyItem (w.getD 0 0) (at64 w 1) (padTo 64 (ofWords (w.drop 4))) = some c → c = .shaper n →
          Effects .rallyCopy s fun t => t.twin.rx = [] ∧ t.twin.copySeen = .shaper n :: s.twin.copySeen) ∧
        (s.rallyHead = some (0xA, 1, w, []) → Effects .copyDone s fun t => t.twin.phase = 3)) ∧
      (s.twin.phase = 3 → s.flag .twn_STATUS [] f_twn_STATUS_log_source = true → s.rallyHead = some (0xA, 2, w, []) →
        Effects .holding s fun t =>
          t.twin.rx = [] ∧ t.twin.joinWait = some (s.cycle + 64, at64 w 0 + 2 * s.tsTol)) ∧
      (s.twin.phase = 3 → s.flag .twn_STATUS [] f_twn_STATUS_log_source = false → s.rallyHead = some (0xA, 3, w, []) →
        Effects .join s fun t =>
          t.twin.rx = [] ∧ t.twin.phase = 4 ∧ t.twin.joinT = at64 w 2 ∧ t.fpc.seqNext = at64 w 0)) ∧
    (s.rallyHead = some (0xA, 4, w, []) → s.inStep = true → Effects .leave s fun t =>
      t.fld .twn_STATUS [] f_twn_STATUS_break_cause = 2)

/-! ### Power, resets and start-up (R494, R521 to R532, R559, R595, R597, R610 to R619, R633) -/

/-- What every device reset leaves (R615, R616): flash and fuses are kept, the reset is held with its cause shown and counted,
every other register but the device's own identity holds its reset value, and every memory and unit is as after reset; entries
that wait for the flash log and calendar time last as long as the power does. -/
def Sys2Proof.Machine.State.deviceResetFrom (t s : State) (cause : Nat) : Prop :=
  t.flash = s.flash ∧ t.fused = s.fused ∧ t.pwr.inReset = true ∧
  t.fld .cpr_RESET_CAUSE [] f_cpr_RESET_CAUSE_cause = cause ∧
  t.fld .cpr_RESET_CAUSE [] f_cpr_RESET_CAUSE_device_resets =
    min (s.fld .cpr_RESET_CAUSE [] f_cpr_RESET_CAUSE_device_resets + 1)
      (2 ^ f_cpr_RESET_CAUSE_device_resets.width - 1) ∧
  (t.regs.all fun e => e.1 == Reg.addr .cpr_RESET_CAUSE [] || e.1 == Reg.addr .glb_IDENT []) = true ∧
  t.mgmt = { State.reset.mgmt with logWait := s.mgmt.logWait, calendar := s.mgmt.calendar } ∧ t.cnt = State.reset.cnt ∧ t.fpc = State.reset.fpc ∧ t.tab = State.reset.tab ∧
  t.cls = State.reset.cls ∧ t.pols = State.reset.pols ∧ t.line = State.reset.line ∧ t.tm = State.reset.tm ∧
  t.hbm = State.reset.hbm ∧ t.twin = State.reset.twin ∧ t.d2d = State.reset.d2d ∧ t.adm = State.reset.adm ∧
  t.pending = s.pending

/-- Power, clocks, resets and the watchdog (R531, R595, R597, R615 to R619, R633): what begins a device reset leaves it held with its
cause, a restart of an in-step source after it has left step; a power-on reset keeps only flash and fuses; a release, which no reset has before the PLL is locked, samples the straps and
begins start-up; the watchdog's first
expiry restarts the management, the second the device. -/
def Obligations.ResetCommandsComplete : Prop :=
  ∀ (s : State) (n : Nat) (key : BitVec 16) (tw : Bool) (sel : Fin 4),
    (s.pwr.pwrGood = false → Effects .powerGood s fun t =>
      t.pwr = { s.pwr with pwrGood := true, pwrAt := s.cycle, inReset := true } ∧ t.regs = s.regs) ∧
    (s.pwr.pwrGood = true → Effects .pllLock s fun t => t.pwr = { s.pwr with pllLocked := true } ∧ t.regs = s.regs) ∧
    (s.pwr.pllLocked = true → Effects .pllLockLoss s fun t => t.deviceResetFrom s 5 ∧ t.pwr.pllLocked = false) ∧
    (Effects .powerOnReset s fun t =>
      t.flash = s.flash ∧ t.fused = s.fused ∧ (t.regs.all fun e => e.1 == Reg.addr .glb_IDENT []) = true ∧
      t.mgmt = State.reset.mgmt ∧ t.fpc = State.reset.fpc ∧
      t.tm = State.reset.tm ∧ t.hbm = State.reset.hbm ∧ t.pwr.pwrGood = false ∧ t.pwr.inReset = true) ∧
    (s.pwr.pwrGood = true →
      (100 ≤ n → Effects (.deviceReset (.pin n)) s fun t => t.deviceResetFrom s 1 ∧ t.pwr.resetPin = true) ∧
      (n < 100 → Effects (.deviceReset (.pin n)) s fun t => t = s) ∧
      (s.isSource = false → Effects (.deviceReset .restart) s fun t => t.deviceResetFrom s 2) ∧
      (s.isSource = true → Effects (.deviceReset .restart) s fun t => t.deviceResetFrom (s.stepEnd 1) 2) ∧
      (Effects (.deviceReset .resetCtrl) s fun t => t.deviceResetFrom s 3) ∧
      (Effects (.deviceReset .watchdog) s fun t => t.deviceResetFrom s 4)) ∧
    (key = 0xD1CE → Effects (.resetKeyWrite key) s fun t => t.deviceResetFrom s 3) ∧
    (key ≠ 0xD1CE → Effects (.resetKeyWrite key) s fun t =>
      t.pwr = s.pwr ∧ t.fpc = s.fpc ∧ t.fld .pci_ERR_STATUS [] f_pci_ERR_STATUS_last_kind = 4) ∧
    (s.pwr.inReset = true → s.pwr.pwrGood = true → s.pwr.pllLocked = true → Effects (.resetRelease tw sel) s fun t =>
      t.pwr.inReset = false ∧ t.pwr.time = 0 ∧ t.boot.running = true ∧ t.bootStage = 0 ∧
      t.flag .glb_STRAPS [] f_glb_STRAPS_twin_id = tw ∧ t.fld .glb_STRAPS [] f_glb_STRAPS_playbook_sel = sel.val ∧
      t.flag .cpr_PD_CTRL [1] f_cpr_PD_CTRL_enable = true ∧ t.flag .cpr_PD_CTRL [20] f_cpr_PD_CTRL_enable = true ∧
      t.flag .cpr_PD_CTRL [23] f_cpr_PD_CTRL_enable = true) ∧
    (s.pwr.pllLocked = false → Effects (.resetRelease tw sel) s fun t => t = s) ∧
    (Effects .wdogKick s fun t => t.pwr = { s.pwr with wdogSince := s.cycle, wdogFirst := false } ∧ t.regs = s.regs) ∧
    (s.flag .cpr_WDOG [] f_cpr_WDOG_enable = true →
      s.passed s.pwr.wdogSince (max 1 (s.fld .cpr_WDOG [] f_cpr_WDOG_period) * 2000000) = true →
      (s.pwr.wdogFirst = false → Effects .wdogExpiry s fun t =>
        t.boot.mgmtUp = false ∧ t.pwr.wdogFirst = true ∧ t.pwr.wdogSince = s.cycle ∧
        t.fld .cpr_WDOG [] f_cpr_WDOG_expiries =
          min (s.fld .cpr_WDOG [] f_cpr_WDOG_expiries + 1) (2 ^ f_cpr_WDOG_expiries.width - 1) ∧
        t.fld .cpr_RESET_CAUSE [] f_cpr_RESET_CAUSE_mgmt_restarts =
          min (s.fld .cpr_RESET_CAUSE [] f_cpr_RESET_CAUSE_mgmt_restarts + 1)
            (2 ^ f_cpr_RESET_CAUSE_mgmt_restarts.width - 1)) ∧
      (s.pwr.wdogFirst = true → Effects .wdogExpiry s fun t => t.deviceResetFrom s 4))

/-- Power domains and the TAP (R610 to R614, R622, R635): a domain that is wanted waits for the ramp slot in order, starts and
stops through its lifecycle, and one that software may not switch after sealing is an access error; each JTAG instruction
selects its register, and the driving ones act as BYPASS unless RESET_N holds a device reset. -/
def Obligations.PowerDomainAndTapCommandsComplete : Prop :=
  ∀ (s : State) (n : Fin 24) (rest : List Nat) (i : Fin 158) (mv : BitVec 16) (tdi pins : BitVec 104) (img : ImageInfo),
    (Effects (.pdEnable 0 true) s fun t => t = s) ∧
    (n ≠ 0 → s.boot.sealed = true → softDomain n = false → Effects (.pdEnable n false) s fun t =>
      t.lc (pdLc n) = s.lc (pdLc n) ∧ t.fld .pci_ERR_STATUS [] f_pci_ERR_STATUS_last_kind = 4) ∧
    (n ≠ 0 → s.boot.sealed = false ∨ softDomain n = true →
      (s.lc (pdLc n) = 0 → s.flag .cpr_PD_STATUS [n.val] f_cpr_PD_STATUS_restart_pending = false → Effects (.pdEnable n true) s fun t =>
        t.lc (pdLc n) = 1 ∧ t.flag .cpr_PD_STATUS [n.val] f_cpr_PD_STATUS_waiting = true ∧
        t.pwr.pdWait = s.pwr.pdWait ++ [n.val]) ∧
      (s.lc (pdLc n) = 2 → s.flag .cpr_PD_STATUS [n.val] f_cpr_PD_STATUS_stop_pending = false → Effects (.pdEnable n false) s fun t =>
        t.lc (pdLc n) = 3 ∧ t.flag .cpr_PD_CTRL [n.val] f_cpr_PD_CTRL_enable = false)) ∧
    (s.pwr.pdSlot = none → s.pwr.pdWait = n.val :: rest →
      (Effects (.pdRampSlotTake none) s fun t =>
        t.pwr.pdSlot = some n.val ∧ t.pwr.pdWait = rest ∧
        t.flag .cpr_PD_STATUS [n.val] f_cpr_PD_STATUS_waiting = false) ∧
      (Effects (.pdRampSlotTake (some (i, mv))) s fun t =>
        t.pwr.pdSlot = none ∧ t.pwr.pdWait = rest ∧ t.lc (pdLc n) = 0 ∧
        t.flag .cpr_PD_STATUS [n.val] f_cpr_PD_STATUS_fail = true)) ∧
    (s.pwr.pdSlot = some n.val → s.lc (pdLc n) = 1 → Effects (.pdStartDone n) s fun t =>
        t.lc (pdLc n) = 2 ∧ t.pwr.pdSlot = none ∧
        t.fld .cpr_PD_STATUS [n.val] f_cpr_PD_STATUS_starts =
          min (s.fld .cpr_PD_STATUS [n.val] f_cpr_PD_STATUS_starts + 1) (2 ^ f_cpr_PD_STATUS_starts.width - 1)) ∧
    (s.lc (pdLc n) = 3 → s.fnsOff n = true → Effects (.pdStopDone n) s fun t => t.lc (pdLc n) = 0) ∧
    (s.lc (pdLc n) = 0 → s.flag .cpr_PD_STATUS [n.val] f_cpr_PD_STATUS_restart_pending = true →
      (s.pdRest n).lc (pdLc n) = 1) ∧
    (s.lc (pdLc n) = 2 → s.flag .cpr_PD_STATUS [n.val] f_cpr_PD_STATUS_stop_pending = true → (s.pdRest n).lc (pdLc n) = 3) ∧
    (s.pwr.inReset = true → s.pwr.resetPin = true →
      (Effects (.jtagExtest tdi) s fun t =>
        t.pwr = { s.pwr with jtagIr := 0, jtagPins := .extest, jtagBsr := tdi } ∧
        t.out = .jtagTdo s.pwr.jtagBsr.toNat 104 :: s.out ∧ t.regs = s.regs) ∧
      (Effects .jtagClamp s fun t => t.pwr = { s.pwr with jtagIr := 4, jtagPins := .clamp } ∧ t.regs = s.regs) ∧
      (Effects .jtagHighz s fun t => t.pwr = { s.pwr with jtagIr := 5, jtagPins := .highZ } ∧ t.regs = s.regs)) ∧
    (s.pwr.inReset = false →
      (Effects (.jtagExtest tdi) s fun t =>
        t.pwr = { s.pwr with jtagIr := 0, jtagPins := .functional } ∧ t.out = .jtagTdo 0 1 :: s.out) ∧
      (Effects .jtagClamp s fun t => t.pwr = { s.pwr with jtagIr := 4, jtagPins := .functional }) ∧
      (Effects .jtagHighz s fun t => t.pwr = { s.pwr with jtagIr := 5, jtagPins := .functional })) ∧
    (Effects .jtagIdcode s fun t =>
      t.pwr = { s.pwr with jtagIr := 1, jtagPins := .functional } ∧ t.out = .jtagTdo 0x051209A7 32 :: s.out) ∧
    (Effects (.jtagSamplePreload pins tdi) s fun t =>
      t.pwr = { s.pwr with jtagIr := 2, jtagPins := .functional, jtagBsr := tdi } ∧
      t.out = .jtagTdo pins.toNat 104 :: s.out) ∧
    (Effects .jtagDebug s fun t => t.pwr = { s.pwr with jtagIr := 0x10, jtagPins := .functional } ∧ t.out = s.out) ∧
    (Effects (.jtagDebug (some img)) s fun t =>
      t.pwr = { s.pwr with jtagIr := 0x10, jtagPins := .functional } ∧ t.out = s.out ∧
      t.boot = if s.pwr.xspiOff then { s.boot with image := some img, mgmtUp := true } else s.boot) ∧
    (Effects .jtagBypass s fun t =>
      t.pwr = { s.pwr with jtagIr := 0xFF, jtagPins := .functional } ∧ t.out = .jtagTdo 0 1 :: s.out) ∧
    (Effects .jtagTrst s fun t => t.pwr = { s.pwr with jtagIr := 1, jtagPins := .functional } ∧ t.out = s.out)

/-- The stages of start-up (R521 to R529, R532, R559): each stage does its work and begins the next; an image that is rejected,
a playbook that fails and a stage that lasts too long lead to the other slot, the fallback or safe mode. -/
def Obligations.StartupCommandsComplete : Prop :=
  ∀ (s : State) (x : Bool) (l : List Bool) (a b i : ImageInfo) (pb : PlaybookInfo) (n m : Fin 4) (sch : BitVec 16)
    (reason : Nat) (hs : List HbmStack) (fl : List (Fin 192)) (ids : List (Fin 6)),
    (s.inStage 0 = true → s.pdOn 1 = true → Effects (.stageImageLoad a b) s fun t =>
      t.bootStage = 1 ∧ t.boot = { s.boot with stageSince := s.cycle }) ∧
    (s.inStage 1 = true → s.flash.endsBefore 0x08010000 = true → Effects (.stageImageLoad a b) s fun t =>
      t.boot.running = false ∧ t.bootStage = 0 ∧ t.pwr.xspiOff = true ∧
      (s.fld .glb_BOOT_STATUS [] f_glb_BOOT_STATUS_fail_code = 0 → t.fld .glb_BOOT_STATUS [] f_glb_BOOT_STATUS_fail_code = 0x30)) ∧
    (s.inStage 1 = true → s.flash.endsBefore 0x08010000 = false → a.readOk = true → b.readOk = true →
      (s.slotOrder = x :: l → s.slotUnread x = false → i = (if x then b else a) → i.sigOk = true → s.fused ≤ i.secver.val →
        Effects (.stageImageLoad a b) s fun t =>
          t.bootStage = 2 ∧ t.bootSlot = x ∧ t.boot.image = some i ∧ t.boot.mgmtUp = true ∧
          t.flag .cpr_WDOG [] f_cpr_WDOG_enable = true ∧
          (s.boot.noCount = false → t.header.failCount = min 255 (s.header.failCount + 1))) ∧
      (s.slotOrder = x :: l → s.slotVerified x = true → s.slotUnread x = false → s.fused ≤ s.header.secver x →
        (if x then b else a).sigOk = false → Effects (.stageImageLoad a b) s fun t => t.bootStage = 2 ∧ t.bootSlot = x) ∧
      (a.sigOk = false → b.sigOk = false → s.slotVerified false = false → s.slotVerified true = false →
        Effects (.stageImageLoad a b) s fun t =>
        t.boot.running = false ∧ t.bootStage = 0 ∧ t.pwr.xspiOff = true ∧ t.fld .glb_BOOT_STATUS [] f_glb_BOOT_STATUS_fail_code = 3)) ∧
    (s.boot.image = some i → s.inStage 2 = true → s.stagePowered 2 = true → s.boot.fallbackUsed = false →
      (s.flash.endsBefore 0x19310000 = true → Effects (.stagePlaybookRead pb) s fun t =>
        t.bootStage = 8 ∧ t.bootReady = true ∧ t.boot.playbook = none) ∧
      (s.flash.endsBefore 0x19310000 = false → s.findSettings i = .readable sch → s.boot.named = some n → pb.readOk = true →
        (pb.sigOk = true → imageProvides i pb = true → playbookBroken pb = false → s.needsSpent pb = false → Effects (.stagePlaybookRead pb) s fun t =>
          t.bootStage = 3 ∧ t.bootPlaybook = n.val ∧ t.boot.playbook = some pb ∧ t.boot.readSchema = some sch) ∧
        (pb.sigOk = false → pb.fallback = some m → Effects (.stagePlaybookRead pb) s fun t =>
          t.bootStage = 2 ∧ t.bootPlaybook = m.val ∧ t.boot.fallbackUsed = true ∧ t.boot.playbook = none) ∧
        (pb.sigOk = false → pb.fallback = none → Effects (.stagePlaybookRead pb) s fun t =>
          t.bootStage = 8 ∧ t.bootReady = true ∧ t.boot.playbook = none)) ∧
      (s.flash.endsBefore 0x19310000 = false → s.findSettings i = .unreadable reason sch → s.header.slotState (!s.bootSlot) = 3 → s.boot.failAtStart < 3 →
        Effects (.stagePlaybookRead pb) s fun t =>
          t.pwr.inReset = true ∧ t.fld .cpr_RESET_CAUSE [] f_cpr_RESET_CAUSE_cause = 2 ∧
          t.header.active = !s.bootSlot ∧ t.header.slotState s.bootSlot = 4 ∧ t.boot.noCount = true)) ∧
    (s.inStage 3 = true → s.stagePowered 3 = true →
      (Effects (.stageHbmTraining [] [] hs) s fun t =>
        t.bootStage = 4 ∧ ∀ k < 192,
          ((s.hState k = 0 ∧ s.hFlag k f_tm_hmc_CH_STATUS_restart_pending = false ∧ s.hbmPowered k = true) ∨ s.hState k = 1 →
            t.hState k = 2) ∧
          (∀ r, hs[k / 32]? = some r → t.rfmOf k = max 1 r.rfm)) ∧
      (ids ≠ [] → s.fallback = none → Effects (.stageHbmTraining fl ids hs) s fun t =>
        t.bootStage = 8 ∧ t.bootReady = true)) ∧
    (s.boot.playbook = some pb →
      (s.inStage 4 = true → s.stagePowered 4 = true → Effects .stageEngineLoad s fun t =>
        t.bootStage = 5 ∧ (pb.regs = [] → t.fpc.images = pb.programs ∧
          ∀ j < 64, SMap.get 0 t.tab.gens j = s.rd .dsp_RNG_SEED [] ^^^ BitVec.ofNat 64 (0x4000000000000000 + j))) ∧
      (s.inStage 5 = true → s.tab.batch = none → s.tab.report = none →
        (pb.baseOps ≠ [] → s.boot.baseBegun = false → Effects .stageBaseTables s fun t =>
          t.bootStage = 5 ∧ t.boot.baseBegun = true ∧ t.tab.batch.map (fun b => (b.ops, b.boot, b.atomic)) =
            some (pb.baseOps, true, false)) ∧
        (pb.baseOps = [] → s.boot.baseFailed = false → Effects .stageBaseTables s fun t => t.bootStage = 6) ∧
        (s.boot.baseBegun = true → s.boot.baseFailed = true → pb.fallback = none →
          Effects .stageBaseTables s fun t => t.bootStage = 8)) ∧
      (s.inStage 6 = true → s.bootReady = false → Effects .stagePortEnable s fun t =>
        t.boot.sealed = true ∧ t.bootReady = true ∧
        (pb.regs = [] → s.flag .twn_CFG [] f_twn_CFG_enable = false → t.serves = true))) ∧
    (s.inStage 6 = true → s.bootReady = true → Effects .stageRunning s fun t =>
      t.bootStage = 7 ∧ t.boot.stage7At = some s.cycle) ∧
    (s.inStage 4 = true → s.passed s.boot.stageSince 8000000000 = true → s.fallback = none →
      Effects .bootStageTimeout s fun t => t.bootStage = 8 ∧ t.bootReady = true ∧ t.boot.running = false) ∧
    (s.inStage 0 = true ∨ s.inStage 1 = true → s.passed s.boot.stageSince 2000000000 = true → s.slotOrder = x :: l → s.slotUnread x = false →
      Effects .bootStageTimeout s fun t => t.boot.slotsOut = x :: s.boot.slotsOut) ∧
    (s.boot.stage7At = some reason → 2 ≤ s.header.slotState s.bootSlot → s.header.slotState s.bootSlot ≤ 4 → s.boot.image = some i → s.inStage 7 = true → s.boot.accepted = false →
      s.passed reason 120000000000 = true → Effects .slotAcceptance s fun t =>
        t.boot.accepted = true ∧ t.header.slotState s.bootSlot = 3 ∧ t.header.failCount = 0) ∧
    (s.boot.mgmtUp = false → s.boot.image = some i → s.pwr.inReset = false →
      (x = false ∨ (s.boot.playbook = some pb ∧ imageProvides a pb = false) → Effects (.mgmtRestart a x none) s fun t =>
        t.boot = { s.boot with mgmtUp := true }) ∧
      (s.boot.playbook = none ∨ (s.boot.playbook = some pb ∧ imageProvides a pb = true) →
        Effects (.mgmtRestart a true none) s fun t =>
          t.boot.mgmtUp = true ∧ t.boot.image = some a ∧ t.bootSlot = s.header.active))

/-! ### Management, sensors and tasks (R530 to R543, R549) -/

/-- A source's command can be taken, with its descriptor well formed (R530, R549): the mailbox's or a connection's; the partner
sends no command. -/
def Sys2Proof.Machine.State.taken (s : State) (src : Nat) (d : MboxDesc) : Prop :=
  s.mgmtServes = true ∧ d.restZero = true ∧ d.buf.toNat % 64 = 0 ∧
  (src = 0 → s.ringState 42 = 2 ∧ s.ringFill 42 ≠ 0) ∧ (src ≠ 0 → s.pdOn 1 = true ∧ src < 5)

/-- The command was answered with the record: the mailbox's in its response ring where that has room, and the descriptor is
done; a connection's on its connection. -/
def Sys2Proof.Machine.State.answers (t s : State) (src : Nat) (record : List Byte) : Prop :=
  (src = 0 → t.ringCidx 42 = (s.ringCidx 42 + 1) % 2 ^ 32 ∧
    (s.ringRoom 43 = true → s.ringErr 43 ≠ 3 →
      .hostWrite (s.ringOwner 43).1 (s.ringEntryAddr 43 (s.ringPidx 43)) record ∈ t.out)) ∧
  (src ≠ 0 → (t.out.any fun o => match o with
    | .mgmtReply k r _ => k == src && r == record
    | _ => false) = true)

/-- The mailbox, the log and the sensors (R530, R532 to R541): each command answers with its record and has its effect; an
unlisted opcode answers UNKNOWN; samples move the thermal state, which trips at its limit; a droop past its threshold is counted; log entries and the lifetime
record reach flash; a low margin raises the supply, and a core whose margin stays low is retired. -/
def Obligations.ManagementCommandsComplete : Prop :=
  ∀ (s : State) (d : MboxDesc) (op : BitVec 16) (p : Fin 4) (i : Fin 158) (j : Fin 16) (v ns : BitVec 16) (e : LogEntry)
    (l : List LogEntry) (ms : List (BitVec 16)) (c : Fin 32) (w : Fin 17),
    (s.taken 0 d →
      (Effects (.getInfo d) s fun t => t.answers s 0 (mboxRecord 1 d 0 0 0
        (natLE 8 s.bootStatus.toNat ++ digest16 s.header.digestA ++ digest16 s.header.digestB ++
          natLE 8 ((s.boot.playbook.map fun (p : PlaybookInfo) => p.stepId).getD 0).toNat)) ∧ t.boot = s.boot) ∧
      (mboxArg d 0 = 0xFF → mboxArg d 1 = 1 → Effects (.restart d) s fun t =>
        t.answers s 0 (mboxRecord 2 d 0 0 0 []) ∧ t.boot = { s.boot with mgmtUp := false }) ∧
      (mboxArg d 0 = p.val → mboxArg d 1 = 0 → Effects (.restart d) s fun t =>
        t.pwr.inReset = true ∧ t.boot.named = some p ∧ (s.isSource = false → t.deviceResetFrom s 2)) ∧
      (2 ≤ mboxArg d 1 → Effects (.restart d) s fun t =>
        t.answers s 0 (mboxRecord 2 d 2 0 0 []) ∧ t.boot = s.boot) ∧
      (mboxArg d 0 = p.val → s.settingsHeld = false → Effects (.setOverride d) s fun t =>
        t.answers s 0 (mboxRecord 3 d 0 0 0 []) ∧
        t.settingsRecords = (1, natLE 1 p.val) :: s.settingsRecords.filter fun r => r.1 != 1) ∧
      (Effects (.setTime d) s fun t =>
        t.mgmt.calendar = some (d.args.toNat % 2 ^ 64, s.cycle) ∧ t.mgmt.life.lastCalendar = d.args.toNat % 2 ^ 64 ∧
        t.ringCidx 42 = (s.ringCidx 42 + 1) % 2 ^ 32) ∧
      (mboxArg d 4 = 0 → Effects (.logRead d) s fun t => t.answers s 0 (mboxRecord 5 d 0 0
        ((s.mgmt.log.filter fun e => d.args.toNat % 2 ^ 32 ≤ e.seq).flatMap LogEntry.bytes).length [])) ∧
      (2 ≤ mboxArg d 4 → Effects (.logRead d) s fun t => t.answers s 0 (mboxRecord 5 d 2 0 0 [])) ∧
      (Effects (.lifeRead d) s fun t => t.answers s 0 (mboxRecord 6 d 0 0
        (Config.lifeBytes s.mgmt.life.scalars).length []) ∧ t.mgmt = s.mgmt) ∧
      (Effects (.sensorRead d) s fun t => t.answers s 0 (mboxRecord 7 d 0 0 316 []) ∧ t.mgmt = s.mgmt) ∧
      (mboxListed op.toNat = false → Effects (.mailboxUnknownOpcode op d) s fun t =>
        t.answers s 0 (mboxRecord op.toNat d 6 0 0 []) ∧ t.mgmt = s.mgmt)) ∧
    (s.pdOn 23 = true →
      (48 ≤ i.val → ¬(136 ≤ i.val ∧ i.val < 152) → Effects (.sensorSample i v) s fun t =>
        t.fld .mgs_SENSOR [i.val] f_mgs_SENSOR_value = v.toNat ∧
        t.fld .mgs_SENSOR [i.val] f_mgs_SENSOR_max = max v.toNat (s.fld .mgs_SENSOR [i.val] f_mgs_SENSOR_max)) ∧
      (i.val < 48 → s.mgmt.tripped = false →
        (920 ≤ v.toNat → Effects (.sensorSample i v) s fun t =>
          t.pwr.thermTrip = true ∧ t.mgmt.tripped = true ∧ t.tm = State.reset.tm ∧ t.fpc = State.reset.fpc ∧
          t.flash = s.flash) ∧
        ((∀ k < 48, s.fld .mgs_SENSOR [k] f_mgs_SENSOR_value < 920) → v.toNat < 920 →
          Effects (.sensorSample i v) s fun t =>
            t.fld .mgs_SENSOR [i.val] f_mgs_SENSOR_value = v.toNat ∧ t.pwr.thermTrip = s.pwr.thermTrip ∧
            t.fld .mgs_THERM [] f_mgs_THERM_state =
              thermNext (s.fld .mgs_THERM [] f_mgs_THERM_state) t.hottest.2)) ∧
      (s.droopMv < v.toNat → 2 < ns.toNat → Effects (.droopDetect j v ns) s fun t =>
        t.fld .mgs_SENSOR [136 + j.val] f_mgs_SENSOR_value =
          min (s.fld .mgs_SENSOR [136 + j.val] f_mgs_SENSOR_value + 1) (2 ^ f_mgs_SENSOR_value.width - 1)) ∧
      (v.toNat ≤ s.droopMv ∨ ns.toNat ≤ 2 → Effects (.droopDetect j v ns) s fun t => t = s)) ∧
    (s.mgmt.logWait = e :: l → Effects .logFlashWrite s fun t =>
      t.mgmt.logWait = l ∧ SMap.find? t.flash.log s.flash.logPos = some e ∧
      t.flash.logPos = (s.flash.logPos + 1) % 262144) ∧
    (s.taskRuns 7 = true →
      (s.passed s.mgmt.lifeWrittenAt 1200000000000 = true → Effects .lifetimeWrite s fun t =>
        t.mgmt.lifeWrittenAt = s.cycle ∧ t.flashLife.map (·.2) = some t.mgmt.life ∧
        t.mgmt.life.poweredS = s.poweredS) ∧
      (s.passed s.mgmt.lastAvs 7200000000000 = true → lowestMargin ms < 40 → Effects (.avsCheck ms none) s fun t =>
        t.mgmt.lastAvs = s.cycle ∧ t.mgmt.life.avsTarget = min 800 (s.mgmt.life.avsTarget + 5)) ∧
      (s.passed s.mgmt.lastAvs 7200000000000 = true → Effects (.avsCheck ms (some v)) s fun t =>
        t.mgmt.life.avsTarget = max 620 (min s.mgmt.life.avsTarget v.toNat) ∧
        (t.mgmt.life.avsTarget ≠ s.mgmt.life.avsTarget →
          t.mgmt.life.avsSteps = s.mgmt.life.avsSteps ++ [(t.mgmt.life.avsTarget, s.lifeMonth)])) ∧
      (s.mgmt.life.avsTarget = 800 → SMap.get 0 s.mgmt.avsLow c.val ≠ 0 →
        s.passed (SMap.get 0 s.mgmt.avsLow c.val - 1) 172800000000000 = true →
        Effects (.avsLimit c w) s fun t => SMap.get 0 t.mgmt.life.cores (c.val * 32 + w.val) = 2))

/-- Groundskeeper tasks (R539, R541 to R543): a task starts and stops through its lifecycle, with a cycle of rest before what is
pending; a step over budget is delayed and counted, another is done, with the pass counted at its end; what an SRAM scrub finds
is counted and noted, and an HBM scrub sends its channel a read of class SC3; the deep scrub ends its pass with the last step over
both; calendar tasks run once a period. -/
def Obligations.TaskCommandsComplete : Prop :=
  ∀ (s : State) (t : Fin 16) (t9 : Fin 9) (v : Word) (f : List ScrubFinding) (loc : Word) (k : Fin 192) (gr : Fin 12582912)
    (x : HChan) (q : Fin 146) (m : BitVec 16) (b : Bool) (tg : Nat),
    (9 ≤ t.val → Effects (.taskEnable t v) s fun t' => t' = s) ∧
    (t.val < 9 → t ≠ 3 → f_gkp_TASK_CFG_enable.get v = 1 → s.lc (taskLc t) = 0 →
      s.flag .gkp_TASK_STATUS [t.val] f_gkp_TASK_STATUS_restart_pending = false → s.taskMayRun t = true →
      Effects (.taskEnable t v) s fun t' =>
        t'.lc (taskLc t) = 1 ∧ t'.flag .gkp_TASK_CFG [t.val] f_gkp_TASK_CFG_enable = true) ∧
    (s.lc (taskLc t9) = 1 → Effects (.taskStartDone t9) s fun t' => t'.lc (taskLc t9) = 2) ∧
    (s.lc (taskLc t9) = 3 → Effects (.taskStopDone t9) s fun t' => t'.lc (taskLc t9) = 0) ∧
    (s.lc (taskLc t9) = 0 → s.flag .gkp_TASK_STATUS [t9.val] f_gkp_TASK_STATUS_restart_pending = true →
      s.taskMayRun t9 = true → (s.taskRest t9).lc (taskLc t9) = 1) ∧
    (s.lc (taskLc t9) = 2 → s.flag .gkp_TASK_STATUS [t9.val] f_gkp_TASK_STATUS_stop_pending = true →
      (s.taskRest t9).lc (taskLc t9) = 3) ∧
    (s.taskRuns 0 = true →
      (Effects (.sramScrubStep f true b) s fun t' =>
        t'.mgmt = s.mgmt ∧
        t'.fld .gkp_TASK_STATUS [0] f_gkp_TASK_STATUS_delays =
          min (s.fld .gkp_TASK_STATUS [0] f_gkp_TASK_STATUS_delays + 1) (2 ^ f_gkp_TASK_STATUS_delays.width - 1)) ∧
      (Effects (.sramScrubStep [] false b) s fun t' =>
        SMap.get 0 t'.mgmt.taskPos 0 = (if b = true then 0 else SMap.get 0 s.mgmt.taskPos 0 + 1) ∧
        t'.fld .gkp_TASK_STATUS [0] f_gkp_TASK_STATUS_passes =
          (if b = true then min (s.fld .gkp_TASK_STATUS [0] f_gkp_TASK_STATUS_passes + 1)
              (2 ^ f_gkp_TASK_STATUS_passes.width - 1)
            else s.fld .gkp_TASK_STATUS [0] f_gkp_TASK_STATUS_passes)) ∧
      (locClass loc = 10 → locIndex loc < 256 → Effects (.sramScrubStep [.corrected loc] false b) s fun t' =>
        t'.fld .buf_CE_CNT [locIndex loc] f_buf_CE_CNT_corrected =
          min (s.fld .buf_CE_CNT [locIndex loc] f_buf_CE_CNT_corrected + 1) (2 ^ f_buf_CE_CNT_corrected.width - 1)) ∧
      (locClass loc = 10 → locIndex loc < 256 → Effects (.sramScrubStep [.uncorrectable loc] false b) s fun t' =>
        t'.fld .buf_STATUS [] f_buf_STATUS_ue_count =
          min (s.fld .buf_STATUS [] f_buf_STATUS_ue_count + 1) (2 ^ f_buf_STATUS_ue_count.width - 1) ∧
        t'.fld .buf_STATUS [] f_buf_STATUS_last_ue_bank = locIndex loc) ∧
      (locClass loc ≠ 10 ∨ 256 ≤ locIndex loc → Effects (.sramScrubStep [.uncorrectable loc] false b) s fun t' =>
        t'.mgmt.life.memRepairs = s.mgmt.life.memRepairs ++ [loc])) ∧
    (s.taskRuns 8 = true → s.mgmt.deepSram = true →
      Effects (.sramScrubStep [] false true true) s fun t' =>
        t'.mgmt.deepSram = false ∧ t'.mgmt.deepHbm = s.mgmt.deepHbm ∧
        t'.fld .gkp_TASK_STATUS [8] f_gkp_TASK_STATUS_passes =
          (if s.mgmt.deepHbm = true then s.fld .gkp_TASK_STATUS [8] f_gkp_TASK_STATUS_passes
            else min (s.fld .gkp_TASK_STATUS [8] f_gkp_TASK_STATUS_passes + 1) (2 ^ f_gkp_TASK_STATUS_passes.width - 1))) ∧
    (s.hState k = 2 → s.hFrozen k = false → s.taskRuns 2 = true → s.mgmt.deepHbm = false → s.hchan k = x →
      x.queue = [] → x.input = [] →
      Effects (.hbmScrubStep k gr tg false b) s fun t' =>
        t'.out = s.out ∧ t'.hbm.mem = s.hbm.mem ∧
        (t'.hchan k).queue = [
          { tag := tg, home := 3, cls := 3, gran := gr.val, wdata := none, at' := s.cycle, id := x.arrived, scrub := true }]) ∧
    (s.hState k = 2 → s.hFrozen k = false → s.taskRuns 8 = true → s.mgmt.deepHbm = true → s.mgmt.deepSram = false →
      Effects (.hbmScrubStep k gr tg false true true) s fun t' =>
        t'.mgmt.deepHbm = false ∧
        t'.fld .gkp_TASK_STATUS [8] f_gkp_TASK_STATUS_passes =
          min (s.fld .gkp_TASK_STATUS [8] f_gkp_TASK_STATUS_passes + 1) (2 ^ f_gkp_TASK_STATUS_passes.width - 1)) ∧
    (s.taskRuns 4 = true → SMap.find? s.mgmt.life.serdesMargin (q.val * 240 + s.lifeMonth) = none →
      Effects (.serdesAdaptStep q m false b) s fun t' =>
        SMap.find? t'.mgmt.life.serdesMargin (q.val * 240 + s.lifeMonth) = some m.toNat) ∧
    (s.taskRuns 6 = true → s.passed s.mgmt.lastNvm 20000000000 = true → Effects .nvmWearStep s fun t' =>
      t'.mgmt.lastNvm = s.cycle ∧ t'.freeCount = s.freeCount + 1) ∧
    (s.taskRuns 8 = true → s.calendarDue s.mgmt.life.deepTai s.mgmt.life.deepS 2592000 id = true →
      Effects .deepScrubStart s fun t' =>
        t'.mgmt.life.deepS = s.poweredS ∧ t'.mgmt.life.deepTai = s.calendarNow.getD s.mgmt.life.deepTai ∧
        SMap.get 0 t'.mgmt.taskPos 8 = 0 ∧ t'.mgmt.deepSram = true ∧ t'.mgmt.deepHbm = true) ∧
    (s.boot.mgmtUp = true → s.calendarDue s.mgmt.life.yearTai s.mgmt.life.yearS 31536000 (· / 12) = true →
      Effects .yearlyRecal s fun t' =>
        t'.mgmt.life.yearS = s.poweredS ∧ t'.mgmt.life.yearTai = s.calendarNow.getD s.mgmt.life.yearTai)

/-! ### Updates (R545 to R560, R564) -/

/-- Update sessions (R545 to R560, R564): a good manifest opens a session for its source, or joins it; a piece is staged once its digest
matches; a session is applied whole, its slot READY or EMPTY; activation, whose header copy shows its slot in byte 6 of the flash's header area (R519, R520), and the fused version move only
as the rules say;
the partner's pieces pass over the rally link. -/
def Obligations.UpdateCommandsComplete : Prop :=
  ∀ (s : State) (src : Fin 6) (d : MboxDesc) (m bs g : List Byte) (u : Session) (n det : Nat) (w : List Nat) (b own fe : Bool) (k : Fin 64),
    (s.taken src d →
      (Effects (.updOpen src d (.data m) false) s fun t =>
        t.answers s src (mboxRecord 0x40 d 2 3 0 []) ∧ t.flash = s.flash) ∧
      (s.keyKnown m = false → Effects (.updOpen src d (.data m) own) s fun t =>
        t.answers s src (mboxRecord 0x40 d 2 3 0 []) ∧ t.flash = s.flash) ∧
      (manFormed m = true → s.keyKnown m = true → s.flash.session = none → s.openRefused m = none →
        Effects (.updOpen src d (.data m) true) s fun t =>
          t.flash.session.map (fun u => (u.state, u.holder, u.target, u.manifest)) = some (1, src.val, manTarget m, m) ∧
          t.flash.pieces = [] ∧ t.flash.retained = none) ∧
      (manFormed m = true → s.keyKnown m = true → s.flash.session = some u → u.target ≠ manTarget m →
        Effects (.updOpen src d (.data m) true) s fun t => t.flash = s.flash) ∧
      (manFormed m = true → s.keyKnown m = true → s.flash.session = some u → u.target = manTarget m →
        Effects (.updOpen src d (.data m) true) s fun t =>
          t.flash.pieces = s.flash.pieces ∧ (s.isMember u src = false → src.val ∈ t.mgmt.members)) ∧
      (n = d.args.toNat % 2 ^ 32 → s.flash.session = some u → s.isMember u src = true → u.state = 1 → n < u.pieceCount →
        SMap.find? s.flash.pieces n = none →
        (u.pieceOk n bs = true → Effects (.updPiece src d (.data bs)) s fun t =>
          SMap.find? t.flash.pieces n = some bs ∧
          t.flash.session.map (·.state) = some (if s.staged + 1 = u.pieceCount then 2 else 1)) ∧
        (u.pieceOk n bs = false → Effects (.updPiece src d (.data bs)) s fun t => t.flash = s.flash)) ∧
      (s.flash.session = none → Effects (.updStatus src d) s fun t => t.flash = s.flash ∧
        t.answers s src (mboxRecord 0x42 d 0 0 0 (natLE 6 0 ++
          natLE 1 (s.fld .mgs_UPD_STATUS [] f_mgs_UPD_STATUS_last_detail) ++ natLE 17 0))) ∧
      (s.flash.session = some u →
        (s.isMember u src = false ∨ s.poweredS < u.lastActivity + 86400 → Effects (.updStatus src d) s fun t =>
          t.flash = s.flash ∧ t.mgmt.seen = (s.mgmt.seen || s.isMember u src)) ∧
        (s.isMember u src = true → u.lastActivity + 86400 ≤ s.poweredS → Effects (.updStatus src d) s fun t =>
          t.flash.session.map (·.lastActivity) = some s.poweredS ∧ t.flash.pieces = s.flash.pieces)) ∧
      (Effects (.updBitmap src d) s fun t =>
        t.answers s src (mboxRecord 0x43 d 0 0 128 []) ∧ t.flash.pieces = s.flash.pieces) ∧
      (s.flash.session = some u → u.state ≠ 3 → src = 0 ∨ u.holder = src.val → Effects (.updCancel src d) s fun t =>
        t.flash.session = none ∧ t.flash.pieces = [] ∧ t.flash.retained = none) ∧
      (s.flash.session = some u → s.isMember u src = true → u.state ≠ 3 →
        (u.pieceCount ≤ s.staged → Effects (.updApply src d) s fun t => t.flash.session.map (·.state) = some 3) ∧
        (s.staged < u.pieceCount → Effects (.updApply src d) s fun t =>
          t.answers s src (mboxRecord 0x45 d 3 9 0 []) ∧ t.flash = s.flash)) ∧
      (mboxArg d 0 ≤ 1 → b = (mboxArg d 0 == 1) → s.header.slotState b = 2 → s.header.active = !b →
        (s.fused ≤ s.header.secver b → s.flash.session = none → Effects (.updActivate src d) s fun t =>
          t.answers s src (mboxRecord 0x46 d 0 0 0 []) ∧ t.header.active = b ∧ t.header.failCount = 0 ∧
          (t.flashByte 6 = some (if b then 1 else 0) ∨ t.flashByte 0x8006 = some (if b then 1 else 0))) ∧
        (s.fused ≤ s.header.secver b → s.flash.session = some u → u.kind = 0 → u.state ≠ 3 → (u.dest == 1) = b →
          Effects (.updActivate src d) s fun t =>
            t.header.active = b ∧ t.flash.session = none ∧ t.flash.retained = some u ∧ t.flash.pieces = s.flash.pieces) ∧
        (s.header.secver b < s.fused → Effects (.updActivate src d) s fun t =>
          t.answers s src (mboxRecord 0x46 d 4 6 0 []) ∧ t.flash = s.flash)) ∧
      (s.header.slotState s.runningSlot = 3 → Effects (.updCommitVersion src d) s fun t =>
        t.fused = max s.fused ((s.boot.image.map fun (i : ImageInfo) => i.secver.val).getD 0)) ∧
      (s.header.slotState s.runningSlot = 3 → s.fused + k.val < s.runningSecver →
        Effects (.updCommitVersion src d (some k)) s fun t =>
          t.fused = s.fused + k.val ∧ t.pwr.pwrGood = false ∧ t.flash = s.flash) ∧
      (s.header.slotState s.runningSlot ≠ 3 → Effects (.updCommitVersion src d) s fun t =>
        t.fused = s.fused ∧ t.answers s src (mboxRecord 0x47 d 3 12 0 [])) ∧
      (s.settingsHeld = true → Effects (.settingsReset src d) s fun t =>
        t.pwr.inReset = true ∧ t.fld .cpr_RESET_CAUSE [] f_cpr_RESET_CAUSE_cause = 3 ∧
        t.settingsRecords = Config.defaultSettings ((s.boot.image.map fun (i : ImageInfo) => i.schema).getD 0).toNat) ∧
      (s.settingsHeld = false → Effects (.settingsReset src d) s fun t =>
        t.answers s src (mboxRecord 0x48 d 2 19 0 []) ∧ t.flash = s.flash ∧ t.pwr = s.pwr)) ∧
    (s.flash.session = some u → u.state = 3 → s.mgmt.applying = false → Effects (.updApplyDone own fe) s fun t => t = s) ∧
    (s.flash.session = some u → u.state = 3 → s.mgmt.applying = true →
      (s.badPieces u = [] → s.applyBars u = some det → Effects (.updApplyDone own fe) s fun t =>
        t.flash.session.map (·.state) = some 2 ∧ t.flash.playbooks = s.flash.playbooks ∧
        t.fld .mgs_UPD_STATUS [] f_mgs_UPD_STATUS_last_detail = det) ∧
      (s.badPieces u = [] → s.applyBars u = none → s.applyResult u own fe = .ok g → Effects (.updApplyDone own fe) s fun t =>
        t.flash.session.map (·.state) = some 4 ∧ t.fld .mgs_UPD_STATUS [] f_mgs_UPD_STATUS_last_detail = 0 ∧
        (u.kind = 1 → SMap.get [] t.flash.playbooks u.dest = g) ∧
        (u.kind = 0 → t.header.slotState (u.dest == 1) = 2 ∧
          (if u.dest = 1 then t.flash.slotB else t.flash.slotA) = g)) ∧
      (s.badPieces u = [] → s.applyBars u = none → s.applyResult u own fe = .error det → Effects (.updApplyDone own fe) s fun t =>
        t.flash.session.map (·.state) = some 2 ∧
        (u.kind = 0 → t.header.slotState (u.dest == 1) = 0)) ∧
      (s.badPieces u ≠ [] → Effects (.updApplyDone own fe) s fun t =>
        t.flash.session.map (·.state) = some 1 ∧ t.fld .mgs_UPD_STATUS [] f_mgs_UPD_STATUS_last_detail = 4 ∧
        ∀ p ∈ t.flash.pieces, p.1 ∉ s.badPieces u)) ∧
    (s.flash.session = some u → u.state ≠ 3 → s.idleFrom u + 604800 ≤ s.poweredS →
      Effects .sessionExpiry s fun t => t.flash.session = none ∧ t.flash.pieces = [] ∧ t.flash.retained = none) ∧
    (Effects (.updStatus 5 d) s fun t => t = s) ∧
    (s.rallyHead = some (0xB, det, w, []) → s.twinState ≠ 3 →
      (w.headD 0 / 2 ^ 24 = 1 → s.flash.session = some u → u.target.toNat = beNat (ofWords ((w.drop 1).take 12)) →
        s.flash.pieces = [(n, bs)] → bs.length ≤ 128 →
        bitOf (beNat (ofWords (((w.drop 1).drop 12).take 32))) n = true → s.twin.linkUp = true → s.twin.pkt = none →
        Effects .pieceWant s fun t =>
          t.twin.rx = [] ∧ t.flash = s.flash ∧ t.twin.txSeq = (s.twin.txSeq + 1) % 2 ^ 32) ∧
      (w.headD 0 / 2 ^ 24 = 2 → s.flash.session = some u → u.state = 1 → n = w.headD 0 % 2 ^ 24 → n < u.pieceCount →
        SMap.find? s.flash.pieces n = none → bs = (ofWords ((w.drop 1).drop 1)).take ((w.drop 1).headD 0) →
        u.pieceOk n bs = true → Effects .pieceData s fun t =>
          t.twin.rx = [] ∧ SMap.find? t.flash.pieces n = some bs) ∧
      (w.headD 0 / 2 ^ 24 = 3 → Effects .pieceResult s fun t =>
        t.twin.rx = [] ∧ t.mgmt.partnerResult =
          some (w.headD 0 % 2 ^ 24, (w.drop 1).headD 0 / 256 % 256, (w.drop 1).headD 0 % 256)))

/-! ### The Kryx words and what Kryx instructions leave unchanged (R136 to R150) -/

/-- Decoding the word of a well-formed Kryx instruction gives the instruction back, with every operand at every value
(R136 to R150). -/
def Obligations.KryxDecodeOfEncode : Prop := ∀ i : KInstr, i.wf = true → decodeKryx i.encode = some i

/-- The thread of an instruction whose whole effect, where it raises nothing, is on its thread: arithmetic, branches,
header, metadata, loads, lookup waits, deferred updates and mirrors. -/
def Sys2Proof.Machine.ownThread : Instr → Option (Fin 32 × Fin 128)
  | .add c th .. | .sub c th .. | .and c th .. | .or c th .. | .xor c th .. | .shl c th .. | .shr c th .. | .sar c th ..
  | .rotr c th .. | .slt c th .. | .sltu c th .. | .minu c th .. | .maxu c th .. | .mul c th .. | .mulhu c th ..
  | .csum c th .. | .popc c th .. | .clz c th .. | .bswap c th .. | .bswap32 c th .. | .bswap16 c th .. | .addi c th ..
  | .andi c th .. | .ori c th .. | .xori c th .. | .shi c th .. | .lui c th .. | .slti c th .. | .sltiu c th ..
  | .ext c th .. | .exts c th .. | .ins c th .. | .mask c th .. | .bcc c th .. | .j c th .. | .jal c th .. | .jr c th ..
  | .hld c th .. | .hst c th .. | .movmg c th .. | .movgm c th .. | .lread c th .. | .ld c th .. | .fence c th ..
  | .lkw c th .. | .nop c th .. | .rnd c th .. | .score c th .. | .cntAdd c th .. | .cntAddn c th .. | .polChg c th ..
  | .lrn c th .. | .mirror c th .. => some (c, th)
  | _ => none

/-- The thread and the fields rd, ra of an atomic. -/
def Sys2Proof.Machine.atomicOf : Instr → Option (Fin 32 × Fin 128 × BitVec 5 × BitVec 5)
  | .amoAdd c th rd ra .. | .amoAnd c th rd ra .. | .amoOr c th rd ra .. | .amoXor c th rd ra ..
  | .amoSwap c th rd ra .. | .amoMaxu c th rd ra .. | .amoMinu c th rd ra .. | .amoCas c th rd ra .. =>
    some (c, th, rd, ra)
  | _ => none

/-- Every thread but one is as it was. -/
def Sys2Proof.Machine.State.othersKept (t s : State) (c : Fin 32) (th : Fin 128) : Prop :=
  ∀ k, k ≠ c.val * 128 + th.val → SMap.get {} t.fpc.threads k = SMap.get {} s.fpc.threads k

/-- Every register but the cluster's error counts, which a corrected error adds to (R120, R121), is as it was. -/
def Sys2Proof.Machine.State.regsKept (t s : State) (c : Fin 32) : Prop :=
  ∀ r ix, r.addr ix ≠ Reg.addr .fpc_ERR_STATUS [c] → t.rd r ix = s.rd r ix

/-- What an instruction that completes on its thread leaves (R85 to R87, R123 to R150): outside block
counters and the cluster's counts of corrected errors, one whose effect is on its thread changes that thread alone; an LD, like every other of these, changes no byte of any memory but
the thread's own; a store changes of every memory the bytes that its address (R129) names there and no others, and of
its thread only scratch, the prepend area and the pc; an atomic changes its shared-memory word and rd. -/
def Obligations.KryxInstructionsLeaveOtherStateUnchanged : Prop :=
  ∀ (s t : State) (c : Fin 32) (th : Fin 128), (s.th c th).state = 2 → (t.th c th).state = 2 →
    (∀ i, ownThread i = some (c, th) → exec i s = .next t →
      t = { s with regs := t.regs, cnt := { s.cnt with cnt := t.cnt.cnt, edge := t.cnt.edge, latched := t.cnt.latched }, fpc := { s.fpc with threads := t.fpc.threads } } ∧
      t.regsKept s c ∧ t.othersKept s c th ∧ (t.th c th).scratch = (s.th c th).scratch ∧ (t.th c th).prepend = (s.th c th).prepend ∧
      (t.th c th).kb = (s.th c th).kb ∧ (t.th c th).resv = (s.th c th).resv ∧ (t.th c th).pkt = (s.th c th).pkt) ∧
    (∀ rd ra off size err, exec (.st c th rd ra off size err) s = .next t →
      let n := sizeBytes size
      let at' := place c (memAddr ((s.th c th).gr ra) off) n
      t = { s with regs := t.regs, cnt := { s.cnt with cnt := t.cnt.cnt, edge := t.cnt.edge, latched := t.cnt.latched }, fpc := { s.fpc with threads := t.fpc.threads, shared := t.fpc.shared, chanMem := t.fpc.chanMem, pdata := t.fpc.pdata, dcache := t.fpc.dcache, badShared := t.fpc.badShared } } ∧
      t.regsKept s c ∧ t.othersKept s c th ∧
      t.th c th = { (s.th c th) with pc := ((s.th c th).pc + 1) % 131072, scratch := (t.th c th).scratch, prepend := (t.th c th).prepend, ready := false, waitKind := 0, waitObj := 0, waitLine := 0 } ∧
      (∀ x, (∀ o, at' = .shared o → x < c.val * 2 ^ 20 + o ∨ c.val * 2 ^ 20 + o + n ≤ x) →
        t.fpc.shared.read x = s.fpc.shared.read x) ∧
      (∀ x, (∀ cl o, at' = .slot cl o → x < cl * 131072 + o ∨ cl * 131072 + o + n ≤ x) →
        t.fpc.chanMem.read x = s.fpc.chanMem.read x) ∧
      (∀ x, (∀ o, at' = .window o → x < o ∨ o + n ≤ x) → t.fpc.pdata.read x = s.fpc.pdata.read x) ∧
      (∀ k, (∀ o, at' = .window o → k ≠ c.val * 2 ^ 27 + o / 64) →
        SMap.find? t.fpc.dcache k = SMap.find? s.fpc.dcache k) ∧
      (∀ x, (∀ o, at' = .scratch o → x < o ∨ o + n ≤ x) → (t.th c th).scratch.read x = (s.th c th).scratch.read x) ∧
      (∀ x, (∀ o, at' = .prepend o → x < o ∨ o + n ≤ x) → (t.th c th).prepend.read x = (s.th c th).prepend.read x)) ∧
    (∀ i rd ra, atomicOf i = some (c, th, rd, ra) → exec i s = .next t →
      let at' := place c ((s.th c th).gr ra).toNat 8
      t = { s with regs := t.regs, cnt := { s.cnt with cnt := t.cnt.cnt, edge := t.cnt.edge, latched := t.cnt.latched }, fpc := { s.fpc with threads := t.fpc.threads, shared := t.fpc.shared, badShared := t.fpc.badShared } } ∧
      t.regsKept s c ∧ t.othersKept s c th ∧
      t.th c th = { (s.th c th) with pc := ((s.th c th).pc + 1) % 131072, g := (t.th c th).g, ready := false, waitKind := 0, waitObj := 0, waitLine := 0 } ∧
      (∀ r : BitVec 5, r ≠ rd → (t.th c th).gr r = (s.th c th).gr r) ∧
      ∀ x, (∀ o, at' = .shared o → x < c.val * 2 ^ 20 + o ∨ c.val * 2 ^ 20 + o + 8 ≤ x) →
        t.fpc.shared.read x = s.fpc.shared.read x) ∧
    (∀ ra err, exec (.cinv c th ra err) s = .next t →
      t = { s with regs := t.regs, cnt := { s.cnt with cnt := t.cnt.cnt, edge := t.cnt.edge, latched := t.cnt.latched }, fpc := { s.fpc with threads := t.fpc.threads, dcache := t.fpc.dcache } } ∧
      t.regsKept s c ∧ t.othersKept s c th ∧
      ∀ k, (∀ o, place c ((s.th c th).gr ra).toNat 1 = .window o → k ≠ c.val * 2 ^ 27 + o / 64) →
        SMap.find? t.fpc.dcache k = SMap.find? s.fpc.dcache k) ∧
    (∀ rd ch rmt cl err, exec (.passRes c th rd ch rmt cl err) s = .next t →
      let cl' := if rmt then cl.toNat else c.val
      t = { s with regs := t.regs, cnt := { s.cnt with cnt := t.cnt.cnt, edge := t.cnt.edge, latched := t.cnt.latched }, fpc := { s.fpc with threads := t.fpc.threads } } ∧
      t.othersKept s c th ∧
      ∀ r ix, r.addr ix ≠ Reg.addr .fpc_CHAN_SLOTS [cl', ch.toNat] → r.addr ix ≠ Reg.addr .fpc_CHAN_STATUS [cl', ch.toNat] →
        r.addr ix ≠ Reg.addr .fpc_ERR_STATUS [c] → t.rd r ix = s.rd r ix) ∧
    (∀ i, (∃ rd err, i = Instr.passCommit c th rd err) ∨ (∃ ch soff rmt err, i = Instr.passRecv c th ch soff rmt err) ∨
        (∃ f rmt cl err, i = Instr.signal c th f rmt cl err) ∨ (∃ f rmt err, i = Instr.wait c th f rmt err) → exec i s = .next t →
      t = { s with regs := t.regs, cnt := { s.cnt with cnt := t.cnt.cnt, edge := t.cnt.edge, latched := t.cnt.latched }, fpc := { s.fpc with threads := t.fpc.threads, cur := t.fpc.cur, rosterOld := t.fpc.rosterOld, quiet := t.fpc.quiet, depSeen := t.fpc.depSeen, remote := t.fpc.remote } } ∧
      (t.th c th).g = (s.th c th).g ∧ (t.th c th).hdr = (s.th c th).hdr ∧ (t.th c th).m = (s.th c th).m)

/-! ### Counters, tracing and time (R568 to R594, R600 to R607) -/

/-- The scorekeeper and the clock (R568 to R584, R586 to R594, R600 to R607): a change of a counter's configuration zeroes it; a
clear zeroes a group, the events of its cycle counted after it; a sweep and a whistle take, at one tick, every group neither
OFF nor gated, as it stood before a clear in that cycle, and keep the other entries; a push that the previous one holds up is
skipped and counted; a trace record closes with its flag; a step moves device time when it is due; PPS is captured, missed
and driven. -/
def Obligations.ScorekeeperAndTimeCommandsComplete : Prop :=
  ∀ (s : State) (g : Fin 321) (k : Fin 8) (v m : Word) (cg : BitVec 9) (n : Nat) (sl : Fin 64) (r : TraceRec) (st : BitVec 48)
    (d : Int) (busy : Bool),
    m = f_skp_CNT_CFG_threshold.mask ||| f_skp_CNT_CFG_mode.mask ||| f_skp_CNT_CFG_source.mask →
    (v &&& m ≠ s.rd .skp_CNT_CFG [g.val, k.val] → Effects (.cntCfgWrite g k v) s fun t =>
      SMap.get 0 t.cnt.cnt (g.val * 8 + k.val) = 0 ∧ t.rd .skp_CNT_CFG [g.val, k.val] = v &&& m) ∧
    (v &&& m = s.rd .skp_CNT_CFG [g.val, k.val] → Effects (.cntCfgWrite g k v) s fun t => t = s) ∧
    (cg.toNat ≤ 320 → Effects (.clearGroup cg) s fun t =>
      t.regs = s.regs ∧ ∀ j < 8, SMap.get 0 t.cnt.cnt (cg.toNat * 8 + j) =
          (if (s.cntEdge cg.toNat j).fresh then 0 else BitVec.ofNat 48 (s.cntEdge cg.toNat j).n) ∧
        t.cntSeen cg.toNat j = s.cntSeen cg.toNat j -
          (if (s.cntEdge cg.toNat j).before.isSome then 0 else BitVec.ofNat 48 (s.cntEdge cg.toNat j).n)) ∧
    (s.pdOn 23 = true → n = s.cnt.sweepNext → 40000 * n ≤ s.pwr.time.toNat → Effects (.sweep busy) s fun t =>
      t.cnt.sweepNext = n + 1 ∧ t.cnt.sweepStart = 40000 * n ∧ t.cnt.cnt = s.cnt.cnt ∧
      (SMap.get 0 t.cnt.sweepPage (g.val * 8 + k.val) = if s.groupShown g then pageEntry n (s.cntSeen g k)
        else SMap.get 0 s.cnt.sweepPage (g.val * 8 + k.val)) ∧
      (busy = true → s.flag .skp_PUSH_CFG [] f_skp_PUSH_CFG_enable = true →
        n % 2 ^ s.fld .skp_PUSH_CFG [] f_skp_PUSH_CFG_every_log2 = 0 →
        t.out = s.out ∧ t.cnt.pushSlot = s.cnt.pushSlot ∧
        t.fld .skp_STATUS [] f_skp_STATUS_pushes_skipped =
          min (s.fld .skp_STATUS [] f_skp_STATUS_pushes_skipped + 1) (2 ^ f_skp_STATUS_pushes_skipped.width - 1))) ∧
    (s.whistleState = 0 →
      (Effects .whistleFire s fun t =>
        t.whistleState = 1 ∧ t.cnt.latched = whistleCopy s.d2dCarries s.cnt.latched s.cntView ∧ t.cnt.whistleNo = s.cnt.whistleNo + 1 ∧
        t.cnt.whistleW = s.pwr.time.toNat) ∧
      (s.flag .skp_WHISTLE_CTRL [] f_skp_WHISTLE_CTRL_arm = true →
        (s.rd .skp_WHISTLE_AT []).toNat ≤ s.pwr.time.toNat → Effects .whistleAtReached s fun t =>
          t.whistleState = 1 ∧ t.cnt.latched = whistleCopy s.d2dCarries s.cnt.latched s.cntView ∧
          t.flag .skp_WHISTLE_CTRL [] f_skp_WHISTLE_CTRL_arm = false)) ∧
    (s.whistleState ≠ 0 → Effects .whistleFire s fun t =>
      t.whistleState = s.whistleState ∧ t.cnt = s.cnt ∧
      t.fld .skp_STATUS [] f_skp_STATUS_refused =
        min (s.fld .skp_STATUS [] f_skp_STATUS_refused + 1) (2 ^ f_skp_STATUS_refused.width - 1)) ∧
    (s.whistleState = 1 → Effects (.whistleSetReady busy) s fun t =>
      t.whistleState = 2 ∧
      (SMap.get 0 t.cnt.whistlePage (g.val * 8 + k.val) =
        if s.groupShown g then pageEntry s.cnt.whistleNo (SMap.get 0 s.cnt.latched (g.val * 8 + k.val))
        else SMap.get 0 s.cnt.whistlePage (g.val * 8 + k.val))) ∧
    (s.whistleState = 2 → Effects .whistleRelease s fun t => t.whistleState = 0 ∧ t.cnt = s.cnt) ∧
    (s.cnt.openTraces = [r] → r.slot = sl.val →
      s.passed r.openedAt (max 1 (s.fld .skp_TRACE_CFG [] f_skp_TRACE_CFG_timeout) * 2000000) = true →
      s.traceFull = false → Effects (.traceTimeout sl) s fun t =>
        t.cnt.openTraces = [] ∧ t.cnt.closedTraces = s.cnt.closedTraces + 1 ∧
        SMap.find? t.cnt.traceBuf (s.tracePidx % 8192) =
          some { r with flags := r.flags ||| 4, traceNo := s.cnt.closedTraces + 1 } ∧
        t.tracePidx = (s.tracePidx + 1) % 2 ^ 32) ∧
    (s.cnt.openTraces = [r] → Effects .traceDisable s fun t =>
      t.cnt.openTraces = [] ∧ t.flag .skp_TRACE_CFG [] f_skp_TRACE_CFG_enable = false) ∧
    (s.cnt.msiCount ≠ 0 → s.passed s.cnt.msiSince 2000000 = true → Effects .traceMsiTimer s fun t => t.cnt.msiCount = 0) ∧
    (Effects (.timeAdjGo st) s fun t =>
      t.pwr.step = some (max (s.rd .cpr_TIME_ADJ_AT []).toNat (s.pwr.time.toNat + 64), st.toInt) ∧
      t.flag .cpr_TIME_ADJ [] f_cpr_TIME_ADJ_pending = true) ∧
    (s.stepDue = some (n, d) → Effects .timeStep s fun t =>
      t.pwr.step = none ∧ t.cycle = s.cycle + 1 ∧
      t.pwr.time = BitVec.ofNat 64 ((s.pwr.time.toNat + s.rateStep.1 : Nat) + d : Int).toNat ∧
      t.flag .cpr_TIME_ADJ [] f_cpr_TIME_ADJ_pending = false) ∧
    (s.isFollower = false → s.fld .cpr_TIME_CFG [] f_cpr_TIME_CFG_src = 3 →
      (Effects .ppsInEdge s fun t =>
        t.flag .cpr_PPS_CAP [] f_cpr_PPS_CAP_new = true ∧ t.pwr.ppsEdge = s.cycle ∧ t.freeCount = s.freeCount + 1) ∧
      (s.pwr.ppsLostPosted = false → s.passed s.pwr.ppsEdge 3000000000 = true → Effects .ppsLost s fun t =>
        t.pwr.ppsLostPosted = true)) ∧
    (s.ppsOn = true → s.tai % 2000000000 = 0 → Effects .ppsOutRise s fun t =>
      t.pwr.ppsOut = true ∧ t.pwr.ppsFall = s.pwr.time.toNat +
        max 1 (min 500 (s.fld .cpr_TIME_CFG [] f_cpr_TIME_CFG_pps_width)) * 2000000)

/-! ### Steps, reset, and what every command keeps -/

/-- A step takes the command at the front of the queue: it answers what the command answers on the state with the queue's
rest. With no command waiting the block idles for one CLK_CORE cycle, which is the model's own choice (log entry 1). -/
def Obligations.StepRunsTheFrontCommand : Prop :=
  (∀ (s : State) (c : Instr) (rest : List Instr), step { s with pending := c :: rest } = exec c { s with pending := rest }) ∧
  ∀ s : State, s.pending = [] → step s = .next s.tick

/-- After reset (R11, R598, R615) every register reads its reset value, device time is zero, the clusters, the ports and the
threads are OFF, no command waits, and the state is safe. Reset values that the spec does not give are the model's own (log entry 3). -/
def Obligations.ResetLeavesResetValues : Prop :=
  (∀ (r : Reg) (ix : List Nat), State.reset.rd r ix = r.resetValue ix) ∧ State.reset.pwr.time = 0 ∧
  State.reset.pending = [] ∧ State.reset.safe = true ∧
  (∀ c : Fin 32, State.reset.fld .fpc_CL_STATUS [c] f_fpc_CL_STATUS_state = 0) ∧
  (∀ p : Fin 8, State.reset.fld .lmac_PORT_STATUS [p] f_lmac_PORT_STATUS_state = 0) ∧
  ∀ (c : Fin 32) (t : Fin 128), (State.reset.th c t).state = 0

/-- Every step, a command or an idle cycle, keeps every addressed memory in its canonical form, and every thread in its
bounds: a pc within instruction SRAM (R68), at most four live reservations (R91), 32 deferred updates (R146), four mirrors
(R150) and four DMAs (R141). -/
def Obligations.StepKeepsMemoriesAndThreadBounds : Prop :=
  ∀ s t : State, s.memoriesOk = true → s.threadsOk = true → step s = .next t →
    t.memoriesOk = true ∧ t.threadsOk = true

/-- Every command leaves the commands that wait; the fused security version never falls, and UPD_COMMIT_VERSION alone
raises it (R560); and a command of one unit changes no part of the state that lies in the others (Family.leaves). -/
def Obligations.CommandsLeaveOtherUnitsUnchanged : Prop :=
  ∀ (c : Instr) (s t : State), exec c s = .next t →
    t.pending = s.pending ∧ s.fused ≤ t.fused ∧ ((∀ src d, c ≠ .updCommitVersion src d) → t.fused = s.fused) ∧
    (familyOf c).leaves s t
end

