-- ==== Sys2Proof/Laws/Sparse.lean ====
section
/-! SUPPORT. Sparse tables and memories: reading after a change, and the canonical form that every change keeps. -/

namespace Sys2Proof.Machine

variable {α : Type}

/-! ### Reading after a change -/

theorem SMap.find?_insert_self (m : SMap α) (k : Nat) (v : α) : SMap.find? (SMap.insert m k v) k = some v := by
  induction m with
  | nil => simp [SMap.insert, SMap.find?]
  | cons e t ih =>
    obtain ⟨j, w⟩ := e
    simp only [SMap.insert]
    split
    · next h => simp [SMap.find?, Nat.ne_of_lt h, ih]
    · split <;> simp [SMap.find?]

theorem SMap.find?_insert_of_ne (m : SMap α) {k k' : Nat} (v : α) (h : k ≠ k') :
    SMap.find? (SMap.insert m k v) k' = SMap.find? m k' := by
  induction m with
  | nil => simp [SMap.insert, SMap.find?, h]
  | cons e t ih =>
    obtain ⟨j, w⟩ := e
    simp only [SMap.insert]
    split
    · simp [SMap.find?, ih]
    · split
      · next hj => subst hj; simp [SMap.find?, h]
      · simp [SMap.find?, h]

theorem SMap.find?_erase_self (m : SMap α) (k : Nat) : SMap.find? (SMap.erase m k) k = none := by
  induction m with
  | nil => rfl
  | cons e t ih =>
    obtain ⟨j, w⟩ := e
    simp only [SMap.erase]
    split
    · exact ih
    · next h => simp [SMap.find?, h, ih]

theorem SMap.find?_erase_of_ne (m : SMap α) {k k' : Nat} (h : k ≠ k') :
    SMap.find? (SMap.erase m k) k' = SMap.find? m k' := by
  induction m with
  | nil => rfl
  | cons e t ih =>
    obtain ⟨j, w⟩ := e
    simp only [SMap.erase]
    split
    · next hj => subst hj; simp [SMap.find?, h, ih]
    · simp [SMap.find?, ih]

@[simp] theorem SMap.get_nil (d : α) (k : Nat) : SMap.get d [] k = d := rfl

@[simp] theorem SMap.get_insert_self (d : α) (m : SMap α) (k : Nat) (v : α) :
    SMap.get d (SMap.insert m k v) k = v := by
  simp [SMap.get, SMap.find?_insert_self]

section
variable [DecidableEq α]

@[simp] theorem SMap.get_put_self (d : α) (m : SMap α) (k : Nat) (v : α) : SMap.get d (SMap.put d m k v) k = v := by
  unfold SMap.get SMap.put
  split
  · next h => simp [SMap.find?_erase_self, h]
  · simp [SMap.find?_insert_self]

theorem SMap.get_put_of_ne (d : α) (m : SMap α) {k k' : Nat} (v : α) (h : k ≠ k') :
    SMap.get d (SMap.put d m k v) k' = SMap.get d m k' := by
  unfold SMap.get SMap.put
  split
  · simp [SMap.find?_erase_of_ne m h]
  · simp [SMap.find?_insert_of_ne m v h]

@[simp] theorem SMap.get_modify_self (d : α) (m : SMap α) (k : Nat) (f : α → α) :
    SMap.get d (SMap.modify d m k f) k = f (SMap.get d m k) := by
  simp [SMap.modify]

theorem SMap.get_modify_of_ne (d : α) (m : SMap α) {k k' : Nat} (f : α → α) (h : k ≠ k') :
    SMap.get d (SMap.modify d m k f) k' = SMap.get d m k' := by
  simp [SMap.modify, SMap.get_put_of_ne d m _ h]

/-! ### The canonical form -/

theorem SMap.wfFrom_mono (d : α) {m : SMap α} {a b : Nat} (h : SMap.wfFrom d b m = true) (hab : a ≤ b) :
    SMap.wfFrom d a m = true := by
  cases m with
  | nil => rfl
  | cons e t =>
    obtain ⟨j, v⟩ := e
    simp only [SMap.wfFrom, Bool.and_eq_true, decide_eq_true_eq] at h ⊢
    exact ⟨⟨le_trans hab h.1.1, h.1.2⟩, h.2⟩

theorem SMap.wfFrom_insert (d : α) {m : SMap α} {b k : Nat} {v : α} (h : SMap.wfFrom d b m = true) (hk : b ≤ k)
    (hv : v ≠ d) : SMap.wfFrom d b (SMap.insert m k v) = true := by
  induction m generalizing b with
  | nil => simp [SMap.insert, SMap.wfFrom, hk, hv]
  | cons e t ih =>
    obtain ⟨j, w⟩ := e
    simp only [SMap.wfFrom, Bool.and_eq_true, decide_eq_true_eq] at h
    simp only [SMap.insert]
    split
    · next hj => simp [SMap.wfFrom, h.1.1, h.1.2, ih h.2 hj]
    · split
      · next hj => subst hj; simp [SMap.wfFrom, h.1.1, hv, h.2]
      · next hj1 hj2 =>
        have hkj : k + 1 ≤ j := by omega
        simp [SMap.wfFrom, hk, hv, hkj, h.1.2, h.2]

theorem SMap.wfFrom_erase (d : α) {m : SMap α} {b k : Nat} (h : SMap.wfFrom d b m = true) :
    SMap.wfFrom d b (SMap.erase m k) = true := by
  induction m generalizing b with
  | nil => rfl
  | cons e t ih =>
    obtain ⟨j, w⟩ := e
    simp only [SMap.wfFrom, Bool.and_eq_true, decide_eq_true_eq] at h
    simp only [SMap.erase]
    split
    · exact SMap.wfFrom_mono d (ih h.2) (by omega)
    · simp [SMap.wfFrom, h.1.1, h.1.2, ih h.2]

theorem SMap.wf_put (d : α) {m : SMap α} (k : Nat) (v : α) (h : SMap.wf d m = true) :
    SMap.wf d (SMap.put d m k v) = true := by
  unfold SMap.wf SMap.put at *
  split
  · exact SMap.wfFrom_erase d h
  · next hv => exact SMap.wfFrom_insert d h (Nat.zero_le k) hv

theorem SMap.wf_modify (d : α) {m : SMap α} (k : Nat) (f : α → α) (h : SMap.wf d m = true) :
    SMap.wf d (SMap.modify d m k f) = true := SMap.wf_put d k _ h

end

theorem SMap.wfFrom_filter [DecidableEq α] (d : α) {m : SMap α} {b : Nat} (p : Nat × α → Bool)
    (h : SMap.wfFrom d b m = true) : SMap.wfFrom d b (m.filter p) = true := by
  induction m generalizing b with
  | nil => rfl
  | cons e t ih =>
    obtain ⟨j, w⟩ := e
    simp only [SMap.wfFrom, Bool.and_eq_true, decide_eq_true_eq] at h
    simp only [List.filter]
    split
    · simp [SMap.wfFrom, h.1.1, h.1.2, ih h.2]
    · exact SMap.wfFrom_mono d (ih h.2) (by omega)

/-! ### Memories -/

@[simp] theorem Memory.read_write_self (m : Memory) (a : Nat) (b : Byte) : (m.write a b).read a = b := by
  simp [Memory.read, Memory.write]

theorem Memory.read_write_of_ne (m : Memory) {a a' : Nat} (b : Byte) (h : a ≠ a') :
    (m.write a b).read a' = m.read a' := by
  simp [Memory.read, Memory.write, SMap.get_put_of_ne _ _ _ h]

theorem Memory.wf_write {m : Memory} (a : Nat) (b : Byte) (h : m.wf = true) : (m.write a b).wf = true :=
  SMap.wf_put 0 a b h

theorem Memory.wf_writeBytes {m : Memory} (a : Nat) (bs : List Byte) (h : m.wf = true) :
    (m.writeBytes a bs).wf = true := by
  induction bs generalizing m a with
  | nil => exact h
  | cons b bs ih => exact ih (a + 1) (Memory.wf_write a b h)

/-- Bytes outside the written range keep their value. -/
theorem Memory.read_writeBytes_of_outside (m : Memory) (a x : Nat) (bs : List Byte)
    (h : x < a ∨ a + bs.length ≤ x) : (m.writeBytes a bs).read x = m.read x := by
  induction bs generalizing m a with
  | nil => rfl
  | cons b bs ih =>
    simp only [List.length_cons] at h
    simp only [Memory.writeBytes]
    rw [ih (m.write a b) (a + 1) (by omega)]
    exact Memory.read_write_of_ne m b (by omega)

/-- A byte inside the written range reads what was written. -/
theorem Memory.read_writeBytes_of_inside (m : Memory) (a i : Nat) (bs : List Byte) (h : i < bs.length) :
    (m.writeBytes a bs).read (a + i) = bs[i] := by
  induction bs generalizing m a i with
  | nil => simp at h
  | cons b bs ih =>
    simp only [Memory.writeBytes]
    cases i with
    | zero =>
      rw [Memory.read_writeBytes_of_outside (m.write a b) (a + 1) (a + 0) bs (by omega)]
      simp
    | succ i =>
      have := ih (m.write a b) (a + 1) i (by simpa using h)
      rw [show a + (i + 1) = a + 1 + i from by omega, this]
      simp

theorem Memory.length_readBytes (m : Memory) (a n : Nat) : (m.readBytes a n).length = n := by
  induction n generalizing a with
  | zero => rfl
  | succ n ih => simp [Memory.readBytes, ih]

/-- What was written from an address reads back from it. -/
theorem Memory.readBytes_writeBytes (m : Memory) (a : Nat) (bs : List Byte) :
    (m.writeBytes a bs).readBytes a bs.length = bs := by
  induction bs generalizing m a with
  | nil => rfl
  | cons b bs ih =>
    simp only [Memory.writeBytes, List.length_cons, Memory.readBytes]
    rw [Memory.read_writeBytes_of_outside (m.write a b) (a + 1) a bs (by omega), ih]
    simp

end Sys2Proof.Machine
end

