-- ==== Sys2Proof/Laws/Regs.lean ====
section
/-! SUPPORT. Fields of a register's word and the register store: what is read after a write. -/

namespace Sys2Proof.Machine

/-! ### Fields of a word -/

theorem Fld.toNat_mask (f : Fld) (h : f.lo + f.width ≤ 64) : f.mask.toNat = (2 ^ f.width - 1) * 2 ^ f.lo := by
  unfold Fld.mask
  rw [BitVec.toNat_ofNat]
  apply Nat.mod_eq_of_lt
  have h1 : 0 < 2 ^ f.width := Nat.two_pow_pos _
  have h2 : 0 < 2 ^ f.lo := Nat.two_pow_pos _
  calc (2 ^ f.width - 1) * 2 ^ f.lo < 2 ^ f.width * 2 ^ f.lo := by
        apply Nat.mul_lt_mul_of_pos_right _ h2; omega
    _ = 2 ^ (f.lo + f.width) := by rw [← Nat.pow_add, Nat.add_comm]
    _ ≤ 2 ^ 64 := Nat.pow_le_pow_right (by norm_num) h

/-- Bit `i` of a word with a field set. -/
theorem Fld.testBit_set (f : Fld) (w : BitVec 64) (v i : Nat) (h : f.lo + f.width ≤ 64) :
    (f.set w v).toNat.testBit i =
      if f.lo ≤ i ∧ i < f.lo + f.width then v.testBit (i - f.lo) else w.toNat.testBit i := by
  unfold Fld.set
  have hm : (BitVec.ofNat 64 ((v % 2 ^ f.width) * 2 ^ f.lo)).toNat = (v % 2 ^ f.width) * 2 ^ f.lo := by
    rw [BitVec.toNat_ofNat]
    apply Nat.mod_eq_of_lt
    have h2 : 0 < 2 ^ f.lo := Nat.two_pow_pos _
    have h3 : v % 2 ^ f.width < 2 ^ f.width := Nat.mod_lt _ (Nat.two_pow_pos _)
    calc (v % 2 ^ f.width) * 2 ^ f.lo < 2 ^ f.width * 2 ^ f.lo := Nat.mul_lt_mul_of_pos_right h3 h2
      _ = 2 ^ (f.lo + f.width) := by rw [← Nat.pow_add, Nat.add_comm]
      _ ≤ 2 ^ 64 := Nat.pow_le_pow_right (by norm_num) h
  by_cases hi : i < 64
  · rw [BitVec.testBit_toNat, BitVec.getLsbD_or, BitVec.getLsbD_and, BitVec.getLsbD_not,
      ← BitVec.testBit_toNat, ← BitVec.testBit_toNat, ← BitVec.testBit_toNat, hm, Fld.toNat_mask f h]
    rw [Nat.testBit_mul_two_pow, Nat.testBit_mul_two_pow, Nat.testBit_mod_two_pow, Nat.testBit_two_pow_sub_one]
    by_cases h1 : f.lo ≤ i
    · by_cases h2 : i < f.lo + f.width
      · have h3 : i - f.lo < f.width := by omega
        simp [h1, h2, h3, hi]
      · have h3 : ¬ i - f.lo < f.width := by omega
        simp [h1, h2, h3, hi]
    · have h2 : ¬ (f.lo ≤ i ∧ i < f.lo + f.width) := by omega
      simp [h1, hi]
  · have hw : ∀ x : BitVec 64, x.toNat.testBit i = false := fun x =>
      Nat.testBit_lt_two_pow (lt_of_lt_of_le x.isLt (Nat.pow_le_pow_right (by norm_num) (by omega)))
    rw [hw]
    split
    · next hc => omega
    · exact (hw w).symm

theorem Fld.testBit_get (f : Fld) (w : BitVec 64) (i : Nat) :
    (f.get w).testBit i = (decide (i < f.width) && w.toNat.testBit (f.lo + i)) := by
  unfold Fld.get
  rw [Nat.testBit_mod_two_pow, Nat.testBit_div_two_pow, Nat.add_comm]

/-- A field reads what it was set to, cut to its width. -/
theorem Fld.get_set_self (f : Fld) (w : BitVec 64) (v : Nat) (h : f.lo + f.width ≤ 64) :
    f.get (f.set w v) = v % 2 ^ f.width := by
  apply Nat.eq_of_testBit_eq
  intro i
  rw [Fld.testBit_get, Fld.testBit_set f w v _ h, Nat.testBit_mod_two_pow]
  by_cases hi : i < f.width <;> simp [hi]

/-- Setting a field leaves a field that shares no bit with it unchanged. -/
theorem Fld.get_set_other (f g : Fld) (w : BitVec 64) (v : Nat) (hf : f.lo + f.width ≤ 64)
    (h : f.lo + f.width ≤ g.lo ∨ g.lo + g.width ≤ f.lo) : g.get (f.set w v) = g.get w := by
  apply Nat.eq_of_testBit_eq
  intro i
  rw [Fld.testBit_get, Fld.testBit_get, Fld.testBit_set f w v _ hf]
  by_cases hi : i < g.width
  · have : ¬ (f.lo ≤ g.lo + i ∧ g.lo + i < f.lo + f.width) := by omega
    simp [hi, this]
  · simp [hi]

theorem Fld.get_lt (f : Fld) (w : BitVec 64) : f.get w < 2 ^ f.width := Nat.mod_lt _ (Nat.two_pow_pos _)

/-! ### The register store -/

@[simp] theorem State.rd_wr_self (s : State) (r : Reg) (ix : List Nat) (v : Word) : (s.wr r ix v).rd r ix = v := by
  simp [State.rd, State.wr]

/-- A write leaves registers at other offsets unchanged. -/
theorem State.rd_wr_of_ne (s : State) (r r' : Reg) (ix ix' : List Nat) (v : Word) (h : r.addr ix ≠ r'.addr ix') :
    (s.wr r ix v).rd r' ix' = s.rd r' ix' := by
  simp only [State.rd, State.wr, SMap.get, SMap.put]
  split
  · rw [SMap.find?_erase_of_ne _ h]
  · rw [SMap.find?_insert_of_ne _ _ h]

/-- A field just set reads what it was set to. -/
theorem State.fld_setFld_self (s : State) (r : Reg) (ix : List Nat) (f : Fld) (v : Nat) (h : f.lo + f.width ≤ 64) :
    (s.setFld r ix f v).fld r ix f = v % 2 ^ f.width := by
  simp [State.fld, State.setFld, Fld.get_set_self f _ v h]

/-- Setting a field leaves the register's other fields unchanged. -/
theorem State.fld_setFld_other (s : State) (r : Reg) (ix : List Nat) (f g : Fld) (v : Nat) (hf : f.lo + f.width ≤ 64)
    (h : f.lo + f.width ≤ g.lo ∨ g.lo + g.width ≤ f.lo) : (s.setFld r ix f v).fld r ix g = s.fld r ix g := by
  simp [State.fld, State.setFld, Fld.get_set_other f g _ v hf h]

/-- Setting a field leaves registers at other offsets unchanged. -/
theorem State.fld_setFld_of_ne (s : State) (r r' : Reg) (ix ix' : List Nat) (f g : Fld) (v : Nat)
    (h : r.addr ix ≠ r'.addr ix') : (s.setFld r ix f v).fld r' ix' g = s.fld r' ix' g := by
  simp [State.fld, State.setFld, State.rd_wr_of_ne s r r' ix ix' _ h]

theorem State.flag_setFlag_self (s : State) (r : Reg) (ix : List Nat) (f : Fld) (b : Bool) (h : f.lo + f.width ≤ 64)
    (hw : 0 < f.width) : (s.setFlag r ix f b).flag r ix f = b := by
  unfold State.flag State.setFlag
  rw [State.fld_setFld_self s r ix f _ h]
  have h1 : 1 < 2 ^ f.width := Nat.one_lt_two_pow (by omega)
  cases b <;> simp [Nat.mod_eq_of_lt h1]

/-- The register store keeps its canonical form per register written: the value read is the value written, and the
store lists no entry equal to the reset value at that offset. -/
theorem State.wr_lists_no_reset (s : State) (r : Reg) (ix : List Nat) :
    SMap.find? (s.wr r ix (r.resetValue ix)).regs (r.addr ix) = none := by
  simp [State.wr, SMap.put, SMap.find?_erase_self]

end Sys2Proof.Machine
end

