-- ==== Sys2Proof/Laws/State.lean ====
section
/-! SUPPORT. What the shared updates of the state leave unchanged: one lemma per field and update. -/

namespace Sys2Proof.Machine

/-! ### wr -/

@[simp] theorem State.wr_pending (s : State) (r : Reg) (ix : List Nat) (v : Word) : (s.wr r ix v).pending = s.pending := rfl
@[simp] theorem State.wr_cycle (s : State) (r : Reg) (ix : List Nat) (v : Word) : (s.wr r ix v).cycle = s.cycle := rfl
@[simp] theorem State.wr_freeCount (s : State) (r : Reg) (ix : List Nat) (v : Word) : (s.wr r ix v).freeCount = s.freeCount := rfl
@[simp] theorem State.wr_out (s : State) (r : Reg) (ix : List Nat) (v : Word) : (s.wr r ix v).out = s.out := rfl
@[simp] theorem State.wr_host (s : State) (r : Reg) (ix : List Nat) (v : Word) : (s.wr r ix v).host = s.host := rfl
@[simp] theorem State.wr_flash (s : State) (r : Reg) (ix : List Nat) (v : Word) : (s.wr r ix v).flash = s.flash := rfl
@[simp] theorem State.wr_fused (s : State) (r : Reg) (ix : List Nat) (v : Word) : (s.wr r ix v).fused = s.fused := rfl
@[simp] theorem State.wr_boot (s : State) (r : Reg) (ix : List Nat) (v : Word) : (s.wr r ix v).boot = s.boot := rfl
@[simp] theorem State.wr_mgmt (s : State) (r : Reg) (ix : List Nat) (v : Word) : (s.wr r ix v).mgmt = s.mgmt := rfl
@[simp] theorem State.wr_cnt (s : State) (r : Reg) (ix : List Nat) (v : Word) : (s.wr r ix v).cnt = s.cnt := rfl
@[simp] theorem State.wr_pwr (s : State) (r : Reg) (ix : List Nat) (v : Word) : (s.wr r ix v).pwr = s.pwr := rfl
@[simp] theorem State.wr_d2d (s : State) (r : Reg) (ix : List Nat) (v : Word) : (s.wr r ix v).d2d = s.d2d := rfl
@[simp] theorem State.wr_fpc (s : State) (r : Reg) (ix : List Nat) (v : Word) : (s.wr r ix v).fpc = s.fpc := rfl
@[simp] theorem State.wr_tab (s : State) (r : Reg) (ix : List Nat) (v : Word) : (s.wr r ix v).tab = s.tab := rfl
@[simp] theorem State.wr_line (s : State) (r : Reg) (ix : List Nat) (v : Word) : (s.wr r ix v).line = s.line := rfl
@[simp] theorem State.wr_cls (s : State) (r : Reg) (ix : List Nat) (v : Word) : (s.wr r ix v).cls = s.cls := rfl
@[simp] theorem State.wr_pols (s : State) (r : Reg) (ix : List Nat) (v : Word) : (s.wr r ix v).pols = s.pols := rfl
@[simp] theorem State.wr_twin (s : State) (r : Reg) (ix : List Nat) (v : Word) : (s.wr r ix v).twin = s.twin := rfl
@[simp] theorem State.wr_adm (s : State) (r : Reg) (ix : List Nat) (v : Word) : (s.wr r ix v).adm = s.adm := rfl
@[simp] theorem State.wr_tm (s : State) (r : Reg) (ix : List Nat) (v : Word) : (s.wr r ix v).tm = s.tm := rfl
@[simp] theorem State.wr_hbm (s : State) (r : Reg) (ix : List Nat) (v : Word) : (s.wr r ix v).hbm = s.hbm := rfl

/-! ### setFld -/

@[simp] theorem State.setFld_pending (s : State) (r : Reg) (ix : List Nat) (f : Fld) (v : Nat) : (s.setFld r ix f v).pending = s.pending := rfl
@[simp] theorem State.setFld_cycle (s : State) (r : Reg) (ix : List Nat) (f : Fld) (v : Nat) : (s.setFld r ix f v).cycle = s.cycle := rfl
@[simp] theorem State.setFld_freeCount (s : State) (r : Reg) (ix : List Nat) (f : Fld) (v : Nat) : (s.setFld r ix f v).freeCount = s.freeCount := rfl
@[simp] theorem State.setFld_out (s : State) (r : Reg) (ix : List Nat) (f : Fld) (v : Nat) : (s.setFld r ix f v).out = s.out := rfl
@[simp] theorem State.setFld_host (s : State) (r : Reg) (ix : List Nat) (f : Fld) (v : Nat) : (s.setFld r ix f v).host = s.host := rfl
@[simp] theorem State.setFld_flash (s : State) (r : Reg) (ix : List Nat) (f : Fld) (v : Nat) : (s.setFld r ix f v).flash = s.flash := rfl
@[simp] theorem State.setFld_fused (s : State) (r : Reg) (ix : List Nat) (f : Fld) (v : Nat) : (s.setFld r ix f v).fused = s.fused := rfl
@[simp] theorem State.setFld_boot (s : State) (r : Reg) (ix : List Nat) (f : Fld) (v : Nat) : (s.setFld r ix f v).boot = s.boot := rfl
@[simp] theorem State.setFld_mgmt (s : State) (r : Reg) (ix : List Nat) (f : Fld) (v : Nat) : (s.setFld r ix f v).mgmt = s.mgmt := rfl
@[simp] theorem State.setFld_cnt (s : State) (r : Reg) (ix : List Nat) (f : Fld) (v : Nat) : (s.setFld r ix f v).cnt = s.cnt := rfl
@[simp] theorem State.setFld_pwr (s : State) (r : Reg) (ix : List Nat) (f : Fld) (v : Nat) : (s.setFld r ix f v).pwr = s.pwr := rfl
@[simp] theorem State.setFld_d2d (s : State) (r : Reg) (ix : List Nat) (f : Fld) (v : Nat) : (s.setFld r ix f v).d2d = s.d2d := rfl
@[simp] theorem State.setFld_fpc (s : State) (r : Reg) (ix : List Nat) (f : Fld) (v : Nat) : (s.setFld r ix f v).fpc = s.fpc := rfl
@[simp] theorem State.setFld_tab (s : State) (r : Reg) (ix : List Nat) (f : Fld) (v : Nat) : (s.setFld r ix f v).tab = s.tab := rfl
@[simp] theorem State.setFld_line (s : State) (r : Reg) (ix : List Nat) (f : Fld) (v : Nat) : (s.setFld r ix f v).line = s.line := rfl
@[simp] theorem State.setFld_cls (s : State) (r : Reg) (ix : List Nat) (f : Fld) (v : Nat) : (s.setFld r ix f v).cls = s.cls := rfl
@[simp] theorem State.setFld_pols (s : State) (r : Reg) (ix : List Nat) (f : Fld) (v : Nat) : (s.setFld r ix f v).pols = s.pols := rfl
@[simp] theorem State.setFld_twin (s : State) (r : Reg) (ix : List Nat) (f : Fld) (v : Nat) : (s.setFld r ix f v).twin = s.twin := rfl
@[simp] theorem State.setFld_adm (s : State) (r : Reg) (ix : List Nat) (f : Fld) (v : Nat) : (s.setFld r ix f v).adm = s.adm := rfl
@[simp] theorem State.setFld_tm (s : State) (r : Reg) (ix : List Nat) (f : Fld) (v : Nat) : (s.setFld r ix f v).tm = s.tm := rfl
@[simp] theorem State.setFld_hbm (s : State) (r : Reg) (ix : List Nat) (f : Fld) (v : Nat) : (s.setFld r ix f v).hbm = s.hbm := rfl

/-! ### setFlag -/

@[simp] theorem State.setFlag_pending (s : State) (r : Reg) (ix : List Nat) (f : Fld) (b : Bool) : (s.setFlag r ix f b).pending = s.pending := rfl
@[simp] theorem State.setFlag_cycle (s : State) (r : Reg) (ix : List Nat) (f : Fld) (b : Bool) : (s.setFlag r ix f b).cycle = s.cycle := rfl
@[simp] theorem State.setFlag_freeCount (s : State) (r : Reg) (ix : List Nat) (f : Fld) (b : Bool) : (s.setFlag r ix f b).freeCount = s.freeCount := rfl
@[simp] theorem State.setFlag_out (s : State) (r : Reg) (ix : List Nat) (f : Fld) (b : Bool) : (s.setFlag r ix f b).out = s.out := rfl
@[simp] theorem State.setFlag_host (s : State) (r : Reg) (ix : List Nat) (f : Fld) (b : Bool) : (s.setFlag r ix f b).host = s.host := rfl
@[simp] theorem State.setFlag_flash (s : State) (r : Reg) (ix : List Nat) (f : Fld) (b : Bool) : (s.setFlag r ix f b).flash = s.flash := rfl
@[simp] theorem State.setFlag_fused (s : State) (r : Reg) (ix : List Nat) (f : Fld) (b : Bool) : (s.setFlag r ix f b).fused = s.fused := rfl
@[simp] theorem State.setFlag_boot (s : State) (r : Reg) (ix : List Nat) (f : Fld) (b : Bool) : (s.setFlag r ix f b).boot = s.boot := rfl
@[simp] theorem State.setFlag_mgmt (s : State) (r : Reg) (ix : List Nat) (f : Fld) (b : Bool) : (s.setFlag r ix f b).mgmt = s.mgmt := rfl
@[simp] theorem State.setFlag_cnt (s : State) (r : Reg) (ix : List Nat) (f : Fld) (b : Bool) : (s.setFlag r ix f b).cnt = s.cnt := rfl
@[simp] theorem State.setFlag_pwr (s : State) (r : Reg) (ix : List Nat) (f : Fld) (b : Bool) : (s.setFlag r ix f b).pwr = s.pwr := rfl
@[simp] theorem State.setFlag_d2d (s : State) (r : Reg) (ix : List Nat) (f : Fld) (b : Bool) : (s.setFlag r ix f b).d2d = s.d2d := rfl
@[simp] theorem State.setFlag_fpc (s : State) (r : Reg) (ix : List Nat) (f : Fld) (b : Bool) : (s.setFlag r ix f b).fpc = s.fpc := rfl
@[simp] theorem State.setFlag_tab (s : State) (r : Reg) (ix : List Nat) (f : Fld) (b : Bool) : (s.setFlag r ix f b).tab = s.tab := rfl
@[simp] theorem State.setFlag_line (s : State) (r : Reg) (ix : List Nat) (f : Fld) (b : Bool) : (s.setFlag r ix f b).line = s.line := rfl
@[simp] theorem State.setFlag_cls (s : State) (r : Reg) (ix : List Nat) (f : Fld) (b : Bool) : (s.setFlag r ix f b).cls = s.cls := rfl
@[simp] theorem State.setFlag_pols (s : State) (r : Reg) (ix : List Nat) (f : Fld) (b : Bool) : (s.setFlag r ix f b).pols = s.pols := rfl
@[simp] theorem State.setFlag_twin (s : State) (r : Reg) (ix : List Nat) (f : Fld) (b : Bool) : (s.setFlag r ix f b).twin = s.twin := rfl
@[simp] theorem State.setFlag_adm (s : State) (r : Reg) (ix : List Nat) (f : Fld) (b : Bool) : (s.setFlag r ix f b).adm = s.adm := rfl
@[simp] theorem State.setFlag_tm (s : State) (r : Reg) (ix : List Nat) (f : Fld) (b : Bool) : (s.setFlag r ix f b).tm = s.tm := rfl
@[simp] theorem State.setFlag_hbm (s : State) (r : Reg) (ix : List Nat) (f : Fld) (b : Bool) : (s.setFlag r ix f b).hbm = s.hbm := rfl

/-! ### addSat -/

@[simp] theorem State.addSat_pending (s : State) (r : Reg) (ix : List Nat) (f : Fld) (n : Nat) : (s.addSat r ix f n).pending = s.pending := rfl
@[simp] theorem State.addSat_cycle (s : State) (r : Reg) (ix : List Nat) (f : Fld) (n : Nat) : (s.addSat r ix f n).cycle = s.cycle := rfl
@[simp] theorem State.addSat_freeCount (s : State) (r : Reg) (ix : List Nat) (f : Fld) (n : Nat) : (s.addSat r ix f n).freeCount = s.freeCount := rfl
@[simp] theorem State.addSat_out (s : State) (r : Reg) (ix : List Nat) (f : Fld) (n : Nat) : (s.addSat r ix f n).out = s.out := rfl
@[simp] theorem State.addSat_host (s : State) (r : Reg) (ix : List Nat) (f : Fld) (n : Nat) : (s.addSat r ix f n).host = s.host := rfl
@[simp] theorem State.addSat_flash (s : State) (r : Reg) (ix : List Nat) (f : Fld) (n : Nat) : (s.addSat r ix f n).flash = s.flash := rfl
@[simp] theorem State.addSat_fused (s : State) (r : Reg) (ix : List Nat) (f : Fld) (n : Nat) : (s.addSat r ix f n).fused = s.fused := rfl
@[simp] theorem State.addSat_boot (s : State) (r : Reg) (ix : List Nat) (f : Fld) (n : Nat) : (s.addSat r ix f n).boot = s.boot := rfl
@[simp] theorem State.addSat_mgmt (s : State) (r : Reg) (ix : List Nat) (f : Fld) (n : Nat) : (s.addSat r ix f n).mgmt = s.mgmt := rfl
@[simp] theorem State.addSat_cnt (s : State) (r : Reg) (ix : List Nat) (f : Fld) (n : Nat) : (s.addSat r ix f n).cnt = s.cnt := rfl
@[simp] theorem State.addSat_pwr (s : State) (r : Reg) (ix : List Nat) (f : Fld) (n : Nat) : (s.addSat r ix f n).pwr = s.pwr := rfl
@[simp] theorem State.addSat_d2d (s : State) (r : Reg) (ix : List Nat) (f : Fld) (n : Nat) : (s.addSat r ix f n).d2d = s.d2d := rfl
@[simp] theorem State.addSat_fpc (s : State) (r : Reg) (ix : List Nat) (f : Fld) (n : Nat) : (s.addSat r ix f n).fpc = s.fpc := rfl
@[simp] theorem State.addSat_tab (s : State) (r : Reg) (ix : List Nat) (f : Fld) (n : Nat) : (s.addSat r ix f n).tab = s.tab := rfl
@[simp] theorem State.addSat_line (s : State) (r : Reg) (ix : List Nat) (f : Fld) (n : Nat) : (s.addSat r ix f n).line = s.line := rfl
@[simp] theorem State.addSat_cls (s : State) (r : Reg) (ix : List Nat) (f : Fld) (n : Nat) : (s.addSat r ix f n).cls = s.cls := rfl
@[simp] theorem State.addSat_pols (s : State) (r : Reg) (ix : List Nat) (f : Fld) (n : Nat) : (s.addSat r ix f n).pols = s.pols := rfl
@[simp] theorem State.addSat_twin (s : State) (r : Reg) (ix : List Nat) (f : Fld) (n : Nat) : (s.addSat r ix f n).twin = s.twin := rfl
@[simp] theorem State.addSat_adm (s : State) (r : Reg) (ix : List Nat) (f : Fld) (n : Nat) : (s.addSat r ix f n).adm = s.adm := rfl
@[simp] theorem State.addSat_tm (s : State) (r : Reg) (ix : List Nat) (f : Fld) (n : Nat) : (s.addSat r ix f n).tm = s.tm := rfl
@[simp] theorem State.addSat_hbm (s : State) (r : Reg) (ix : List Nat) (f : Fld) (n : Nat) : (s.addSat r ix f n).hbm = s.hbm := rfl

/-! ### addWrap -/

@[simp] theorem State.addWrap_pending (s : State) (r : Reg) (ix : List Nat) (f : Fld) (n : Nat) : (s.addWrap r ix f n).pending = s.pending := rfl
@[simp] theorem State.addWrap_cycle (s : State) (r : Reg) (ix : List Nat) (f : Fld) (n : Nat) : (s.addWrap r ix f n).cycle = s.cycle := rfl
@[simp] theorem State.addWrap_freeCount (s : State) (r : Reg) (ix : List Nat) (f : Fld) (n : Nat) : (s.addWrap r ix f n).freeCount = s.freeCount := rfl
@[simp] theorem State.addWrap_out (s : State) (r : Reg) (ix : List Nat) (f : Fld) (n : Nat) : (s.addWrap r ix f n).out = s.out := rfl
@[simp] theorem State.addWrap_host (s : State) (r : Reg) (ix : List Nat) (f : Fld) (n : Nat) : (s.addWrap r ix f n).host = s.host := rfl
@[simp] theorem State.addWrap_flash (s : State) (r : Reg) (ix : List Nat) (f : Fld) (n : Nat) : (s.addWrap r ix f n).flash = s.flash := rfl
@[simp] theorem State.addWrap_fused (s : State) (r : Reg) (ix : List Nat) (f : Fld) (n : Nat) : (s.addWrap r ix f n).fused = s.fused := rfl
@[simp] theorem State.addWrap_boot (s : State) (r : Reg) (ix : List Nat) (f : Fld) (n : Nat) : (s.addWrap r ix f n).boot = s.boot := rfl
@[simp] theorem State.addWrap_mgmt (s : State) (r : Reg) (ix : List Nat) (f : Fld) (n : Nat) : (s.addWrap r ix f n).mgmt = s.mgmt := rfl
@[simp] theorem State.addWrap_cnt (s : State) (r : Reg) (ix : List Nat) (f : Fld) (n : Nat) : (s.addWrap r ix f n).cnt = s.cnt := rfl
@[simp] theorem State.addWrap_pwr (s : State) (r : Reg) (ix : List Nat) (f : Fld) (n : Nat) : (s.addWrap r ix f n).pwr = s.pwr := rfl
@[simp] theorem State.addWrap_d2d (s : State) (r : Reg) (ix : List Nat) (f : Fld) (n : Nat) : (s.addWrap r ix f n).d2d = s.d2d := rfl
@[simp] theorem State.addWrap_fpc (s : State) (r : Reg) (ix : List Nat) (f : Fld) (n : Nat) : (s.addWrap r ix f n).fpc = s.fpc := rfl
@[simp] theorem State.addWrap_tab (s : State) (r : Reg) (ix : List Nat) (f : Fld) (n : Nat) : (s.addWrap r ix f n).tab = s.tab := rfl
@[simp] theorem State.addWrap_line (s : State) (r : Reg) (ix : List Nat) (f : Fld) (n : Nat) : (s.addWrap r ix f n).line = s.line := rfl
@[simp] theorem State.addWrap_cls (s : State) (r : Reg) (ix : List Nat) (f : Fld) (n : Nat) : (s.addWrap r ix f n).cls = s.cls := rfl
@[simp] theorem State.addWrap_pols (s : State) (r : Reg) (ix : List Nat) (f : Fld) (n : Nat) : (s.addWrap r ix f n).pols = s.pols := rfl
@[simp] theorem State.addWrap_twin (s : State) (r : Reg) (ix : List Nat) (f : Fld) (n : Nat) : (s.addWrap r ix f n).twin = s.twin := rfl
@[simp] theorem State.addWrap_adm (s : State) (r : Reg) (ix : List Nat) (f : Fld) (n : Nat) : (s.addWrap r ix f n).adm = s.adm := rfl
@[simp] theorem State.addWrap_tm (s : State) (r : Reg) (ix : List Nat) (f : Fld) (n : Nat) : (s.addWrap r ix f n).tm = s.tm := rfl
@[simp] theorem State.addWrap_hbm (s : State) (r : Reg) (ix : List Nat) (f : Fld) (n : Nat) : (s.addWrap r ix f n).hbm = s.hbm := rfl

/-! ### emit -/

@[simp] theorem State.emit_pending (s : State) (o : Output) : (s.emit o).pending = s.pending := rfl
@[simp] theorem State.emit_cycle (s : State) (o : Output) : (s.emit o).cycle = s.cycle := rfl
@[simp] theorem State.emit_freeCount (s : State) (o : Output) : (s.emit o).freeCount = s.freeCount := rfl
@[simp] theorem State.emit_regs (s : State) (o : Output) : (s.emit o).regs = s.regs := rfl
@[simp] theorem State.emit_host (s : State) (o : Output) : (s.emit o).host = s.host := rfl
@[simp] theorem State.emit_flash (s : State) (o : Output) : (s.emit o).flash = s.flash := rfl
@[simp] theorem State.emit_fused (s : State) (o : Output) : (s.emit o).fused = s.fused := rfl
@[simp] theorem State.emit_boot (s : State) (o : Output) : (s.emit o).boot = s.boot := rfl
@[simp] theorem State.emit_mgmt (s : State) (o : Output) : (s.emit o).mgmt = s.mgmt := rfl
@[simp] theorem State.emit_cnt (s : State) (o : Output) : (s.emit o).cnt = s.cnt := rfl
@[simp] theorem State.emit_pwr (s : State) (o : Output) : (s.emit o).pwr = s.pwr := rfl
@[simp] theorem State.emit_d2d (s : State) (o : Output) : (s.emit o).d2d = s.d2d := rfl
@[simp] theorem State.emit_fpc (s : State) (o : Output) : (s.emit o).fpc = s.fpc := rfl
@[simp] theorem State.emit_tab (s : State) (o : Output) : (s.emit o).tab = s.tab := rfl
@[simp] theorem State.emit_line (s : State) (o : Output) : (s.emit o).line = s.line := rfl
@[simp] theorem State.emit_cls (s : State) (o : Output) : (s.emit o).cls = s.cls := rfl
@[simp] theorem State.emit_pols (s : State) (o : Output) : (s.emit o).pols = s.pols := rfl
@[simp] theorem State.emit_twin (s : State) (o : Output) : (s.emit o).twin = s.twin := rfl
@[simp] theorem State.emit_adm (s : State) (o : Output) : (s.emit o).adm = s.adm := rfl
@[simp] theorem State.emit_tm (s : State) (o : Output) : (s.emit o).tm = s.tm := rfl
@[simp] theorem State.emit_hbm (s : State) (o : Output) : (s.emit o).hbm = s.hbm := rfl

/-! ### free -/

@[simp] theorem State.free_pending (s : State) : (s.free.2).pending = s.pending := rfl
@[simp] theorem State.free_cycle (s : State) : (s.free.2).cycle = s.cycle := rfl
@[simp] theorem State.free_out (s : State) : (s.free.2).out = s.out := rfl
@[simp] theorem State.free_regs (s : State) : (s.free.2).regs = s.regs := rfl
@[simp] theorem State.free_host (s : State) : (s.free.2).host = s.host := rfl
@[simp] theorem State.free_flash (s : State) : (s.free.2).flash = s.flash := rfl
@[simp] theorem State.free_fused (s : State) : (s.free.2).fused = s.fused := rfl
@[simp] theorem State.free_boot (s : State) : (s.free.2).boot = s.boot := rfl
@[simp] theorem State.free_mgmt (s : State) : (s.free.2).mgmt = s.mgmt := rfl
@[simp] theorem State.free_cnt (s : State) : (s.free.2).cnt = s.cnt := rfl
@[simp] theorem State.free_pwr (s : State) : (s.free.2).pwr = s.pwr := rfl
@[simp] theorem State.free_d2d (s : State) : (s.free.2).d2d = s.d2d := rfl
@[simp] theorem State.free_fpc (s : State) : (s.free.2).fpc = s.fpc := rfl
@[simp] theorem State.free_tab (s : State) : (s.free.2).tab = s.tab := rfl
@[simp] theorem State.free_line (s : State) : (s.free.2).line = s.line := rfl
@[simp] theorem State.free_cls (s : State) : (s.free.2).cls = s.cls := rfl
@[simp] theorem State.free_pols (s : State) : (s.free.2).pols = s.pols := rfl
@[simp] theorem State.free_twin (s : State) : (s.free.2).twin = s.twin := rfl
@[simp] theorem State.free_adm (s : State) : (s.free.2).adm = s.adm := rfl
@[simp] theorem State.free_tm (s : State) : (s.free.2).tm = s.tm := rfl
@[simp] theorem State.free_hbm (s : State) : (s.free.2).hbm = s.hbm := rfl

/-! ### modRingx -/

@[simp] theorem State.modRingx_pending (s : State) (r : Nat) (f : RingX → RingX) : (s.modRingx r f).pending = s.pending := rfl
@[simp] theorem State.modRingx_cycle (s : State) (r : Nat) (f : RingX → RingX) : (s.modRingx r f).cycle = s.cycle := rfl
@[simp] theorem State.modRingx_freeCount (s : State) (r : Nat) (f : RingX → RingX) : (s.modRingx r f).freeCount = s.freeCount := rfl
@[simp] theorem State.modRingx_out (s : State) (r : Nat) (f : RingX → RingX) : (s.modRingx r f).out = s.out := rfl
@[simp] theorem State.modRingx_regs (s : State) (r : Nat) (f : RingX → RingX) : (s.modRingx r f).regs = s.regs := rfl
@[simp] theorem State.modRingx_flash (s : State) (r : Nat) (f : RingX → RingX) : (s.modRingx r f).flash = s.flash := rfl
@[simp] theorem State.modRingx_fused (s : State) (r : Nat) (f : RingX → RingX) : (s.modRingx r f).fused = s.fused := rfl
@[simp] theorem State.modRingx_boot (s : State) (r : Nat) (f : RingX → RingX) : (s.modRingx r f).boot = s.boot := rfl
@[simp] theorem State.modRingx_mgmt (s : State) (r : Nat) (f : RingX → RingX) : (s.modRingx r f).mgmt = s.mgmt := rfl
@[simp] theorem State.modRingx_cnt (s : State) (r : Nat) (f : RingX → RingX) : (s.modRingx r f).cnt = s.cnt := rfl
@[simp] theorem State.modRingx_pwr (s : State) (r : Nat) (f : RingX → RingX) : (s.modRingx r f).pwr = s.pwr := rfl
@[simp] theorem State.modRingx_d2d (s : State) (r : Nat) (f : RingX → RingX) : (s.modRingx r f).d2d = s.d2d := rfl
@[simp] theorem State.modRingx_fpc (s : State) (r : Nat) (f : RingX → RingX) : (s.modRingx r f).fpc = s.fpc := rfl
@[simp] theorem State.modRingx_tab (s : State) (r : Nat) (f : RingX → RingX) : (s.modRingx r f).tab = s.tab := rfl
@[simp] theorem State.modRingx_line (s : State) (r : Nat) (f : RingX → RingX) : (s.modRingx r f).line = s.line := rfl
@[simp] theorem State.modRingx_cls (s : State) (r : Nat) (f : RingX → RingX) : (s.modRingx r f).cls = s.cls := rfl
@[simp] theorem State.modRingx_pols (s : State) (r : Nat) (f : RingX → RingX) : (s.modRingx r f).pols = s.pols := rfl
@[simp] theorem State.modRingx_twin (s : State) (r : Nat) (f : RingX → RingX) : (s.modRingx r f).twin = s.twin := rfl
@[simp] theorem State.modRingx_adm (s : State) (r : Nat) (f : RingX → RingX) : (s.modRingx r f).adm = s.adm := rfl
@[simp] theorem State.modRingx_tm (s : State) (r : Nat) (f : RingX → RingX) : (s.modRingx r f).tm = s.tm := rfl
@[simp] theorem State.modRingx_hbm (s : State) (r : Nat) (f : RingX → RingX) : (s.modRingx r f).hbm = s.hbm := rfl

@[simp] theorem State.emit_out (s : State) (o : Output) : (s.emit o).out = o :: s.out := rfl
@[simp] theorem State.free_freeCount (s : State) : s.free.2.freeCount = s.freeCount + 1 := rfl

/-! ### Conditional updates and folds -/

@[simp] theorem State.when_true (s : State) (f : State → State) : s.when true f = f s := rfl
@[simp] theorem State.when_false (s : State) (f : State → State) : s.when false f = s := rfl

/-- What each step of a fold keeps, the fold keeps. -/
theorem foldl_keeps {σ α β : Type} (g : σ → β) (f : σ → α → σ) (h : ∀ s a, g (f s a) = g s) (l : List α) (s : σ) :
    g (l.foldl f s) = g s := by
  induction l generalizing s with
  | nil => rfl
  | cons a l ih => rw [List.foldl_cons, ih, h]

/-- What each step of a fold keeps, the fold keeps. -/
theorem State.each_keeps {α β : Type} (g : State → β) (s : State) (l : List α) (f : State → α → State)
    (h : ∀ s a, g (f s a) = g s) : g (s.each l f) = g s := by
  exact foldl_keeps g f h l s

/-- What an update keeps, it keeps under a condition. -/
theorem State.when_keeps {β : Type} (g : State → β) (s : State) (c : Bool) (f : State → State)
    (h : g (f s) = g s) : g (s.when c f) = g s := by
  cases c with
  | true => exact h
  | false => rfl

end Sys2Proof.Machine
end

