-- ==== Sys2Proof/Laws/Ops.lean ====
section
/-! SUPPORT. What the shared operations of rings, events, access errors, counters and lifecycles keep: for each operation
the parts of the state that it never changes, and the registers that it leaves alone. -/

namespace Sys2Proof.Machine

/-! ### sendMsix -/

@[simp] theorem State.sendMsix_pending (s : State) (fn : Fn) (vec : Nat) : (s.sendMsix fn vec).pending = s.pending := by
  unfold State.sendMsix; dsimp only; split <;> simp
@[simp] theorem State.sendMsix_cycle (s : State) (fn : Fn) (vec : Nat) : (s.sendMsix fn vec).cycle = s.cycle := by
  unfold State.sendMsix; dsimp only; split <;> simp
@[simp] theorem State.sendMsix_freeCount (s : State) (fn : Fn) (vec : Nat) : (s.sendMsix fn vec).freeCount = s.freeCount := by
  unfold State.sendMsix; dsimp only; split <;> simp
@[simp] theorem State.sendMsix_regs (s : State) (fn : Fn) (vec : Nat) : (s.sendMsix fn vec).regs = s.regs := by
  unfold State.sendMsix; dsimp only; split <;> simp
@[simp] theorem State.sendMsix_flash (s : State) (fn : Fn) (vec : Nat) : (s.sendMsix fn vec).flash = s.flash := by
  unfold State.sendMsix; dsimp only; split <;> simp
@[simp] theorem State.sendMsix_fused (s : State) (fn : Fn) (vec : Nat) : (s.sendMsix fn vec).fused = s.fused := by
  unfold State.sendMsix; dsimp only; split <;> simp
@[simp] theorem State.sendMsix_boot (s : State) (fn : Fn) (vec : Nat) : (s.sendMsix fn vec).boot = s.boot := by
  unfold State.sendMsix; dsimp only; split <;> simp
@[simp] theorem State.sendMsix_mgmt (s : State) (fn : Fn) (vec : Nat) : (s.sendMsix fn vec).mgmt = s.mgmt := by
  unfold State.sendMsix; dsimp only; split <;> simp
@[simp] theorem State.sendMsix_cnt (s : State) (fn : Fn) (vec : Nat) : (s.sendMsix fn vec).cnt = s.cnt := by
  unfold State.sendMsix; dsimp only; split <;> simp
@[simp] theorem State.sendMsix_pwr (s : State) (fn : Fn) (vec : Nat) : (s.sendMsix fn vec).pwr = s.pwr := by
  unfold State.sendMsix; dsimp only; split <;> simp
@[simp] theorem State.sendMsix_d2d (s : State) (fn : Fn) (vec : Nat) : (s.sendMsix fn vec).d2d = s.d2d := by
  unfold State.sendMsix; dsimp only; split <;> simp
@[simp] theorem State.sendMsix_fpc (s : State) (fn : Fn) (vec : Nat) : (s.sendMsix fn vec).fpc = s.fpc := by
  unfold State.sendMsix; dsimp only; split <;> simp
@[simp] theorem State.sendMsix_tab (s : State) (fn : Fn) (vec : Nat) : (s.sendMsix fn vec).tab = s.tab := by
  unfold State.sendMsix; dsimp only; split <;> simp
@[simp] theorem State.sendMsix_line (s : State) (fn : Fn) (vec : Nat) : (s.sendMsix fn vec).line = s.line := by
  unfold State.sendMsix; dsimp only; split <;> simp
@[simp] theorem State.sendMsix_cls (s : State) (fn : Fn) (vec : Nat) : (s.sendMsix fn vec).cls = s.cls := by
  unfold State.sendMsix; dsimp only; split <;> simp
@[simp] theorem State.sendMsix_pols (s : State) (fn : Fn) (vec : Nat) : (s.sendMsix fn vec).pols = s.pols := by
  unfold State.sendMsix; dsimp only; split <;> simp
@[simp] theorem State.sendMsix_twin (s : State) (fn : Fn) (vec : Nat) : (s.sendMsix fn vec).twin = s.twin := by
  unfold State.sendMsix; dsimp only; split <;> simp
@[simp] theorem State.sendMsix_adm (s : State) (fn : Fn) (vec : Nat) : (s.sendMsix fn vec).adm = s.adm := by
  unfold State.sendMsix; dsimp only; split <;> simp
@[simp] theorem State.sendMsix_tm (s : State) (fn : Fn) (vec : Nat) : (s.sendMsix fn vec).tm = s.tm := by
  unfold State.sendMsix; dsimp only; split <;> simp
@[simp] theorem State.sendMsix_hbm (s : State) (fn : Fn) (vec : Nat) : (s.sendMsix fn vec).hbm = s.hbm := by
  unfold State.sendMsix; dsimp only; split <;> simp

/-! ### ringWrite -/

@[simp] theorem State.ringWrite_pending (s : State) (r : Nat) (a : Word) (d : List Byte) : (s.ringWrite r a d).pending = s.pending := by
  unfold State.ringWrite; split <;> simp
@[simp] theorem State.ringWrite_cycle (s : State) (r : Nat) (a : Word) (d : List Byte) : (s.ringWrite r a d).cycle = s.cycle := by
  unfold State.ringWrite; split <;> simp
@[simp] theorem State.ringWrite_freeCount (s : State) (r : Nat) (a : Word) (d : List Byte) : (s.ringWrite r a d).freeCount = s.freeCount := by
  unfold State.ringWrite; split <;> simp
@[simp] theorem State.ringWrite_regs (s : State) (r : Nat) (a : Word) (d : List Byte) : (s.ringWrite r a d).regs = s.regs := by
  unfold State.ringWrite; split <;> simp
@[simp] theorem State.ringWrite_host (s : State) (r : Nat) (a : Word) (d : List Byte) : (s.ringWrite r a d).host = s.host := by
  unfold State.ringWrite; split <;> simp
@[simp] theorem State.ringWrite_flash (s : State) (r : Nat) (a : Word) (d : List Byte) : (s.ringWrite r a d).flash = s.flash := by
  unfold State.ringWrite; split <;> simp
@[simp] theorem State.ringWrite_fused (s : State) (r : Nat) (a : Word) (d : List Byte) : (s.ringWrite r a d).fused = s.fused := by
  unfold State.ringWrite; split <;> simp
@[simp] theorem State.ringWrite_boot (s : State) (r : Nat) (a : Word) (d : List Byte) : (s.ringWrite r a d).boot = s.boot := by
  unfold State.ringWrite; split <;> simp
@[simp] theorem State.ringWrite_mgmt (s : State) (r : Nat) (a : Word) (d : List Byte) : (s.ringWrite r a d).mgmt = s.mgmt := by
  unfold State.ringWrite; split <;> simp
@[simp] theorem State.ringWrite_cnt (s : State) (r : Nat) (a : Word) (d : List Byte) : (s.ringWrite r a d).cnt = s.cnt := by
  unfold State.ringWrite; split <;> simp
@[simp] theorem State.ringWrite_pwr (s : State) (r : Nat) (a : Word) (d : List Byte) : (s.ringWrite r a d).pwr = s.pwr := by
  unfold State.ringWrite; split <;> simp
@[simp] theorem State.ringWrite_d2d (s : State) (r : Nat) (a : Word) (d : List Byte) : (s.ringWrite r a d).d2d = s.d2d := by
  unfold State.ringWrite; split <;> simp
@[simp] theorem State.ringWrite_fpc (s : State) (r : Nat) (a : Word) (d : List Byte) : (s.ringWrite r a d).fpc = s.fpc := by
  unfold State.ringWrite; split <;> simp
@[simp] theorem State.ringWrite_tab (s : State) (r : Nat) (a : Word) (d : List Byte) : (s.ringWrite r a d).tab = s.tab := by
  unfold State.ringWrite; split <;> simp
@[simp] theorem State.ringWrite_line (s : State) (r : Nat) (a : Word) (d : List Byte) : (s.ringWrite r a d).line = s.line := by
  unfold State.ringWrite; split <;> simp
@[simp] theorem State.ringWrite_cls (s : State) (r : Nat) (a : Word) (d : List Byte) : (s.ringWrite r a d).cls = s.cls := by
  unfold State.ringWrite; split <;> simp
@[simp] theorem State.ringWrite_pols (s : State) (r : Nat) (a : Word) (d : List Byte) : (s.ringWrite r a d).pols = s.pols := by
  unfold State.ringWrite; split <;> simp
@[simp] theorem State.ringWrite_twin (s : State) (r : Nat) (a : Word) (d : List Byte) : (s.ringWrite r a d).twin = s.twin := by
  unfold State.ringWrite; split <;> simp
@[simp] theorem State.ringWrite_adm (s : State) (r : Nat) (a : Word) (d : List Byte) : (s.ringWrite r a d).adm = s.adm := by
  unfold State.ringWrite; split <;> simp
@[simp] theorem State.ringWrite_tm (s : State) (r : Nat) (a : Word) (d : List Byte) : (s.ringWrite r a d).tm = s.tm := by
  unfold State.ringWrite; split <;> simp
@[simp] theorem State.ringWrite_hbm (s : State) (r : Nat) (a : Word) (d : List Byte) : (s.ringWrite r a d).hbm = s.hbm := by
  unfold State.ringWrite; split <;> simp

/-! ### ringWriteBack -/

@[simp] theorem State.ringWriteBack_pending (s : State) (r i : Nat) : (s.ringWriteBack r i).pending = s.pending := by
  unfold State.ringWriteBack; split <;> simp
@[simp] theorem State.ringWriteBack_cycle (s : State) (r i : Nat) : (s.ringWriteBack r i).cycle = s.cycle := by
  unfold State.ringWriteBack; split <;> simp
@[simp] theorem State.ringWriteBack_freeCount (s : State) (r i : Nat) : (s.ringWriteBack r i).freeCount = s.freeCount := by
  unfold State.ringWriteBack; split <;> simp
@[simp] theorem State.ringWriteBack_regs (s : State) (r i : Nat) : (s.ringWriteBack r i).regs = s.regs := by
  unfold State.ringWriteBack; split <;> simp
@[simp] theorem State.ringWriteBack_host (s : State) (r i : Nat) : (s.ringWriteBack r i).host = s.host := by
  unfold State.ringWriteBack; split <;> simp
@[simp] theorem State.ringWriteBack_flash (s : State) (r i : Nat) : (s.ringWriteBack r i).flash = s.flash := by
  unfold State.ringWriteBack; split <;> simp
@[simp] theorem State.ringWriteBack_fused (s : State) (r i : Nat) : (s.ringWriteBack r i).fused = s.fused := by
  unfold State.ringWriteBack; split <;> simp
@[simp] theorem State.ringWriteBack_boot (s : State) (r i : Nat) : (s.ringWriteBack r i).boot = s.boot := by
  unfold State.ringWriteBack; split <;> simp
@[simp] theorem State.ringWriteBack_mgmt (s : State) (r i : Nat) : (s.ringWriteBack r i).mgmt = s.mgmt := by
  unfold State.ringWriteBack; split <;> simp
@[simp] theorem State.ringWriteBack_cnt (s : State) (r i : Nat) : (s.ringWriteBack r i).cnt = s.cnt := by
  unfold State.ringWriteBack; split <;> simp
@[simp] theorem State.ringWriteBack_pwr (s : State) (r i : Nat) : (s.ringWriteBack r i).pwr = s.pwr := by
  unfold State.ringWriteBack; split <;> simp
@[simp] theorem State.ringWriteBack_d2d (s : State) (r i : Nat) : (s.ringWriteBack r i).d2d = s.d2d := by
  unfold State.ringWriteBack; split <;> simp
@[simp] theorem State.ringWriteBack_fpc (s : State) (r i : Nat) : (s.ringWriteBack r i).fpc = s.fpc := by
  unfold State.ringWriteBack; split <;> simp
@[simp] theorem State.ringWriteBack_tab (s : State) (r i : Nat) : (s.ringWriteBack r i).tab = s.tab := by
  unfold State.ringWriteBack; split <;> simp
@[simp] theorem State.ringWriteBack_line (s : State) (r i : Nat) : (s.ringWriteBack r i).line = s.line := by
  unfold State.ringWriteBack; split <;> simp
@[simp] theorem State.ringWriteBack_cls (s : State) (r i : Nat) : (s.ringWriteBack r i).cls = s.cls := by
  unfold State.ringWriteBack; split <;> simp
@[simp] theorem State.ringWriteBack_pols (s : State) (r i : Nat) : (s.ringWriteBack r i).pols = s.pols := by
  unfold State.ringWriteBack; split <;> simp
@[simp] theorem State.ringWriteBack_twin (s : State) (r i : Nat) : (s.ringWriteBack r i).twin = s.twin := by
  unfold State.ringWriteBack; split <;> simp
@[simp] theorem State.ringWriteBack_adm (s : State) (r i : Nat) : (s.ringWriteBack r i).adm = s.adm := by
  unfold State.ringWriteBack; split <;> simp
@[simp] theorem State.ringWriteBack_tm (s : State) (r i : Nat) : (s.ringWriteBack r i).tm = s.tm := by
  unfold State.ringWriteBack; split <;> simp
@[simp] theorem State.ringWriteBack_hbm (s : State) (r i : Nat) : (s.ringWriteBack r i).hbm = s.hbm := by
  unfold State.ringWriteBack; split <;> simp

/-! ### ringCoalesce -/

@[simp] theorem State.ringCoalesce_pending (s : State) (r : Nat) : (s.ringCoalesce r).pending = s.pending := by
  unfold State.ringCoalesce; dsimp only; split
  · split <;> simp
  · simp
@[simp] theorem State.ringCoalesce_cycle (s : State) (r : Nat) : (s.ringCoalesce r).cycle = s.cycle := by
  unfold State.ringCoalesce; dsimp only; split
  · split <;> simp
  · simp
@[simp] theorem State.ringCoalesce_freeCount (s : State) (r : Nat) : (s.ringCoalesce r).freeCount = s.freeCount := by
  unfold State.ringCoalesce; dsimp only; split
  · split <;> simp
  · simp
@[simp] theorem State.ringCoalesce_regs (s : State) (r : Nat) : (s.ringCoalesce r).regs = s.regs := by
  unfold State.ringCoalesce; dsimp only; split
  · split <;> simp
  · simp
@[simp] theorem State.ringCoalesce_flash (s : State) (r : Nat) : (s.ringCoalesce r).flash = s.flash := by
  unfold State.ringCoalesce; dsimp only; split
  · split <;> simp
  · simp
@[simp] theorem State.ringCoalesce_fused (s : State) (r : Nat) : (s.ringCoalesce r).fused = s.fused := by
  unfold State.ringCoalesce; dsimp only; split
  · split <;> simp
  · simp
@[simp] theorem State.ringCoalesce_boot (s : State) (r : Nat) : (s.ringCoalesce r).boot = s.boot := by
  unfold State.ringCoalesce; dsimp only; split
  · split <;> simp
  · simp
@[simp] theorem State.ringCoalesce_mgmt (s : State) (r : Nat) : (s.ringCoalesce r).mgmt = s.mgmt := by
  unfold State.ringCoalesce; dsimp only; split
  · split <;> simp
  · simp
@[simp] theorem State.ringCoalesce_cnt (s : State) (r : Nat) : (s.ringCoalesce r).cnt = s.cnt := by
  unfold State.ringCoalesce; dsimp only; split
  · split <;> simp
  · simp
@[simp] theorem State.ringCoalesce_pwr (s : State) (r : Nat) : (s.ringCoalesce r).pwr = s.pwr := by
  unfold State.ringCoalesce; dsimp only; split
  · split <;> simp
  · simp
@[simp] theorem State.ringCoalesce_d2d (s : State) (r : Nat) : (s.ringCoalesce r).d2d = s.d2d := by
  unfold State.ringCoalesce; dsimp only; split
  · split <;> simp
  · simp
@[simp] theorem State.ringCoalesce_fpc (s : State) (r : Nat) : (s.ringCoalesce r).fpc = s.fpc := by
  unfold State.ringCoalesce; dsimp only; split
  · split <;> simp
  · simp
@[simp] theorem State.ringCoalesce_tab (s : State) (r : Nat) : (s.ringCoalesce r).tab = s.tab := by
  unfold State.ringCoalesce; dsimp only; split
  · split <;> simp
  · simp
@[simp] theorem State.ringCoalesce_line (s : State) (r : Nat) : (s.ringCoalesce r).line = s.line := by
  unfold State.ringCoalesce; dsimp only; split
  · split <;> simp
  · simp
@[simp] theorem State.ringCoalesce_cls (s : State) (r : Nat) : (s.ringCoalesce r).cls = s.cls := by
  unfold State.ringCoalesce; dsimp only; split
  · split <;> simp
  · simp
@[simp] theorem State.ringCoalesce_pols (s : State) (r : Nat) : (s.ringCoalesce r).pols = s.pols := by
  unfold State.ringCoalesce; dsimp only; split
  · split <;> simp
  · simp
@[simp] theorem State.ringCoalesce_twin (s : State) (r : Nat) : (s.ringCoalesce r).twin = s.twin := by
  unfold State.ringCoalesce; dsimp only; split
  · split <;> simp
  · simp
@[simp] theorem State.ringCoalesce_adm (s : State) (r : Nat) : (s.ringCoalesce r).adm = s.adm := by
  unfold State.ringCoalesce; dsimp only; split
  · split <;> simp
  · simp
@[simp] theorem State.ringCoalesce_tm (s : State) (r : Nat) : (s.ringCoalesce r).tm = s.tm := by
  unfold State.ringCoalesce; dsimp only; split
  · split <;> simp
  · simp
@[simp] theorem State.ringCoalesce_hbm (s : State) (r : Nat) : (s.ringCoalesce r).hbm = s.hbm := by
  unfold State.ringCoalesce; dsimp only; split
  · split <;> simp
  · simp

/-! ### ringPut -/

@[simp] theorem State.ringPut_pending (s : State) (r : Nat) (e : List Byte) : (s.ringPut r e).pending = s.pending := by
  unfold State.ringPut; dsimp only; split <;> simp
@[simp] theorem State.ringPut_cycle (s : State) (r : Nat) (e : List Byte) : (s.ringPut r e).cycle = s.cycle := by
  unfold State.ringPut; dsimp only; split <;> simp
@[simp] theorem State.ringPut_freeCount (s : State) (r : Nat) (e : List Byte) : (s.ringPut r e).freeCount = s.freeCount := by
  unfold State.ringPut; dsimp only; split <;> simp
@[simp] theorem State.ringPut_flash (s : State) (r : Nat) (e : List Byte) : (s.ringPut r e).flash = s.flash := by
  unfold State.ringPut; dsimp only; split <;> simp
@[simp] theorem State.ringPut_fused (s : State) (r : Nat) (e : List Byte) : (s.ringPut r e).fused = s.fused := by
  unfold State.ringPut; dsimp only; split <;> simp
@[simp] theorem State.ringPut_boot (s : State) (r : Nat) (e : List Byte) : (s.ringPut r e).boot = s.boot := by
  unfold State.ringPut; dsimp only; split <;> simp
@[simp] theorem State.ringPut_mgmt (s : State) (r : Nat) (e : List Byte) : (s.ringPut r e).mgmt = s.mgmt := by
  unfold State.ringPut; dsimp only; split <;> simp
@[simp] theorem State.ringPut_cnt (s : State) (r : Nat) (e : List Byte) : (s.ringPut r e).cnt = s.cnt := by
  unfold State.ringPut; dsimp only; split <;> simp
@[simp] theorem State.ringPut_pwr (s : State) (r : Nat) (e : List Byte) : (s.ringPut r e).pwr = s.pwr := by
  unfold State.ringPut; dsimp only; split <;> simp
@[simp] theorem State.ringPut_d2d (s : State) (r : Nat) (e : List Byte) : (s.ringPut r e).d2d = s.d2d := by
  unfold State.ringPut; dsimp only; split <;> simp
@[simp] theorem State.ringPut_fpc (s : State) (r : Nat) (e : List Byte) : (s.ringPut r e).fpc = s.fpc := by
  unfold State.ringPut; dsimp only; split <;> simp
@[simp] theorem State.ringPut_tab (s : State) (r : Nat) (e : List Byte) : (s.ringPut r e).tab = s.tab := by
  unfold State.ringPut; dsimp only; split <;> simp
@[simp] theorem State.ringPut_line (s : State) (r : Nat) (e : List Byte) : (s.ringPut r e).line = s.line := by
  unfold State.ringPut; dsimp only; split <;> simp
@[simp] theorem State.ringPut_cls (s : State) (r : Nat) (e : List Byte) : (s.ringPut r e).cls = s.cls := by
  unfold State.ringPut; dsimp only; split <;> simp
@[simp] theorem State.ringPut_pols (s : State) (r : Nat) (e : List Byte) : (s.ringPut r e).pols = s.pols := by
  unfold State.ringPut; dsimp only; split <;> simp
@[simp] theorem State.ringPut_twin (s : State) (r : Nat) (e : List Byte) : (s.ringPut r e).twin = s.twin := by
  unfold State.ringPut; dsimp only; split <;> simp
@[simp] theorem State.ringPut_adm (s : State) (r : Nat) (e : List Byte) : (s.ringPut r e).adm = s.adm := by
  unfold State.ringPut; dsimp only; split <;> simp
@[simp] theorem State.ringPut_tm (s : State) (r : Nat) (e : List Byte) : (s.ringPut r e).tm = s.tm := by
  unfold State.ringPut; dsimp only; split <;> simp
@[simp] theorem State.ringPut_hbm (s : State) (r : Nat) (e : List Byte) : (s.ringPut r e).hbm = s.hbm := by
  unfold State.ringPut; dsimp only; split <;> simp

/-! ### ringDone -/

@[simp] theorem State.ringDone_pending (s : State) (r : Nat) : (s.ringDone r).pending = s.pending := by
  unfold State.ringDone; simp
@[simp] theorem State.ringDone_cycle (s : State) (r : Nat) : (s.ringDone r).cycle = s.cycle := by
  unfold State.ringDone; simp
@[simp] theorem State.ringDone_freeCount (s : State) (r : Nat) : (s.ringDone r).freeCount = s.freeCount := by
  unfold State.ringDone; simp
@[simp] theorem State.ringDone_flash (s : State) (r : Nat) : (s.ringDone r).flash = s.flash := by
  unfold State.ringDone; simp
@[simp] theorem State.ringDone_fused (s : State) (r : Nat) : (s.ringDone r).fused = s.fused := by
  unfold State.ringDone; simp
@[simp] theorem State.ringDone_boot (s : State) (r : Nat) : (s.ringDone r).boot = s.boot := by
  unfold State.ringDone; simp
@[simp] theorem State.ringDone_mgmt (s : State) (r : Nat) : (s.ringDone r).mgmt = s.mgmt := by
  unfold State.ringDone; simp
@[simp] theorem State.ringDone_cnt (s : State) (r : Nat) : (s.ringDone r).cnt = s.cnt := by
  unfold State.ringDone; simp
@[simp] theorem State.ringDone_pwr (s : State) (r : Nat) : (s.ringDone r).pwr = s.pwr := by
  unfold State.ringDone; simp
@[simp] theorem State.ringDone_d2d (s : State) (r : Nat) : (s.ringDone r).d2d = s.d2d := by
  unfold State.ringDone; simp
@[simp] theorem State.ringDone_fpc (s : State) (r : Nat) : (s.ringDone r).fpc = s.fpc := by
  unfold State.ringDone; simp
@[simp] theorem State.ringDone_tab (s : State) (r : Nat) : (s.ringDone r).tab = s.tab := by
  unfold State.ringDone; simp
@[simp] theorem State.ringDone_line (s : State) (r : Nat) : (s.ringDone r).line = s.line := by
  unfold State.ringDone; simp
@[simp] theorem State.ringDone_cls (s : State) (r : Nat) : (s.ringDone r).cls = s.cls := by
  unfold State.ringDone; simp
@[simp] theorem State.ringDone_pols (s : State) (r : Nat) : (s.ringDone r).pols = s.pols := by
  unfold State.ringDone; simp
@[simp] theorem State.ringDone_twin (s : State) (r : Nat) : (s.ringDone r).twin = s.twin := by
  unfold State.ringDone; simp
@[simp] theorem State.ringDone_adm (s : State) (r : Nat) : (s.ringDone r).adm = s.adm := by
  unfold State.ringDone; simp
@[simp] theorem State.ringDone_tm (s : State) (r : Nat) : (s.ringDone r).tm = s.tm := by
  unfold State.ringDone; simp
@[simp] theorem State.ringDone_hbm (s : State) (r : Nat) : (s.ringDone r).hbm = s.hbm := by
  unfold State.ringDone; simp

/-! ### logPut -/

@[simp] theorem State.logPut_pending (s : State) (code sev : Nat) (l a : Word) (d : List Byte) : (s.logPut code sev l a d).pending = s.pending := by
  rfl
@[simp] theorem State.logPut_cycle (s : State) (code sev : Nat) (l a : Word) (d : List Byte) : (s.logPut code sev l a d).cycle = s.cycle := by
  rfl
@[simp] theorem State.logPut_freeCount (s : State) (code sev : Nat) (l a : Word) (d : List Byte) : (s.logPut code sev l a d).freeCount = s.freeCount := by
  rfl
@[simp] theorem State.logPut_out (s : State) (code sev : Nat) (l a : Word) (d : List Byte) : (s.logPut code sev l a d).out = s.out := by
  rfl
@[simp] theorem State.logPut_regs (s : State) (code sev : Nat) (l a : Word) (d : List Byte) : (s.logPut code sev l a d).regs = s.regs := by
  rfl
@[simp] theorem State.logPut_host (s : State) (code sev : Nat) (l a : Word) (d : List Byte) : (s.logPut code sev l a d).host = s.host := by
  rfl
@[simp] theorem State.logPut_flash (s : State) (code sev : Nat) (l a : Word) (d : List Byte) : (s.logPut code sev l a d).flash = s.flash := by
  rfl
@[simp] theorem State.logPut_fused (s : State) (code sev : Nat) (l a : Word) (d : List Byte) : (s.logPut code sev l a d).fused = s.fused := by
  rfl
@[simp] theorem State.logPut_boot (s : State) (code sev : Nat) (l a : Word) (d : List Byte) : (s.logPut code sev l a d).boot = s.boot := by
  rfl
@[simp] theorem State.logPut_cnt (s : State) (code sev : Nat) (l a : Word) (d : List Byte) : (s.logPut code sev l a d).cnt = s.cnt := by
  rfl
@[simp] theorem State.logPut_pwr (s : State) (code sev : Nat) (l a : Word) (d : List Byte) : (s.logPut code sev l a d).pwr = s.pwr := by
  rfl
@[simp] theorem State.logPut_d2d (s : State) (code sev : Nat) (l a : Word) (d : List Byte) : (s.logPut code sev l a d).d2d = s.d2d := by
  rfl
@[simp] theorem State.logPut_fpc (s : State) (code sev : Nat) (l a : Word) (d : List Byte) : (s.logPut code sev l a d).fpc = s.fpc := by
  rfl
@[simp] theorem State.logPut_tab (s : State) (code sev : Nat) (l a : Word) (d : List Byte) : (s.logPut code sev l a d).tab = s.tab := by
  rfl
@[simp] theorem State.logPut_line (s : State) (code sev : Nat) (l a : Word) (d : List Byte) : (s.logPut code sev l a d).line = s.line := by
  rfl
@[simp] theorem State.logPut_cls (s : State) (code sev : Nat) (l a : Word) (d : List Byte) : (s.logPut code sev l a d).cls = s.cls := by
  rfl
@[simp] theorem State.logPut_pols (s : State) (code sev : Nat) (l a : Word) (d : List Byte) : (s.logPut code sev l a d).pols = s.pols := by
  rfl
@[simp] theorem State.logPut_twin (s : State) (code sev : Nat) (l a : Word) (d : List Byte) : (s.logPut code sev l a d).twin = s.twin := by
  rfl
@[simp] theorem State.logPut_adm (s : State) (code sev : Nat) (l a : Word) (d : List Byte) : (s.logPut code sev l a d).adm = s.adm := by
  rfl
@[simp] theorem State.logPut_tm (s : State) (code sev : Nat) (l a : Word) (d : List Byte) : (s.logPut code sev l a d).tm = s.tm := by
  rfl
@[simp] theorem State.logPut_hbm (s : State) (code sev : Nat) (l a : Word) (d : List Byte) : (s.logPut code sev l a d).hbm = s.hbm := by
  rfl

/-! ### postEventAt -/

@[simp] theorem State.postEventAt_pending (s : State) (code : Nat) (l a : Word) (d : List Byte) : (s.postEventAt code l a d).pending = s.pending := by
  unfold State.postEventAt; dsimp only; split <;> simp
@[simp] theorem State.postEventAt_cycle (s : State) (code : Nat) (l a : Word) (d : List Byte) : (s.postEventAt code l a d).cycle = s.cycle := by
  unfold State.postEventAt; dsimp only; split <;> simp
@[simp] theorem State.postEventAt_freeCount (s : State) (code : Nat) (l a : Word) (d : List Byte) : (s.postEventAt code l a d).freeCount = s.freeCount := by
  unfold State.postEventAt; dsimp only; split <;> simp
@[simp] theorem State.postEventAt_flash (s : State) (code : Nat) (l a : Word) (d : List Byte) : (s.postEventAt code l a d).flash = s.flash := by
  unfold State.postEventAt; dsimp only; split <;> simp
@[simp] theorem State.postEventAt_fused (s : State) (code : Nat) (l a : Word) (d : List Byte) : (s.postEventAt code l a d).fused = s.fused := by
  unfold State.postEventAt; dsimp only; split <;> simp
@[simp] theorem State.postEventAt_boot (s : State) (code : Nat) (l a : Word) (d : List Byte) : (s.postEventAt code l a d).boot = s.boot := by
  unfold State.postEventAt; dsimp only; split <;> simp
@[simp] theorem State.postEventAt_cnt (s : State) (code : Nat) (l a : Word) (d : List Byte) : (s.postEventAt code l a d).cnt = s.cnt := by
  unfold State.postEventAt; dsimp only; split <;> simp
@[simp] theorem State.postEventAt_pwr (s : State) (code : Nat) (l a : Word) (d : List Byte) : (s.postEventAt code l a d).pwr = s.pwr := by
  unfold State.postEventAt; dsimp only; split <;> simp
@[simp] theorem State.postEventAt_d2d (s : State) (code : Nat) (l a : Word) (d : List Byte) : (s.postEventAt code l a d).d2d = s.d2d := by
  unfold State.postEventAt; dsimp only; split <;> simp
@[simp] theorem State.postEventAt_fpc (s : State) (code : Nat) (l a : Word) (d : List Byte) : (s.postEventAt code l a d).fpc = s.fpc := by
  unfold State.postEventAt; dsimp only; split <;> simp
@[simp] theorem State.postEventAt_tab (s : State) (code : Nat) (l a : Word) (d : List Byte) : (s.postEventAt code l a d).tab = s.tab := by
  unfold State.postEventAt; dsimp only; split <;> simp
@[simp] theorem State.postEventAt_line (s : State) (code : Nat) (l a : Word) (d : List Byte) : (s.postEventAt code l a d).line = s.line := by
  unfold State.postEventAt; dsimp only; split <;> simp
@[simp] theorem State.postEventAt_cls (s : State) (code : Nat) (l a : Word) (d : List Byte) : (s.postEventAt code l a d).cls = s.cls := by
  unfold State.postEventAt; dsimp only; split <;> simp
@[simp] theorem State.postEventAt_pols (s : State) (code : Nat) (l a : Word) (d : List Byte) : (s.postEventAt code l a d).pols = s.pols := by
  unfold State.postEventAt; dsimp only; split <;> simp
@[simp] theorem State.postEventAt_twin (s : State) (code : Nat) (l a : Word) (d : List Byte) : (s.postEventAt code l a d).twin = s.twin := by
  unfold State.postEventAt; dsimp only; split <;> simp
@[simp] theorem State.postEventAt_adm (s : State) (code : Nat) (l a : Word) (d : List Byte) : (s.postEventAt code l a d).adm = s.adm := by
  unfold State.postEventAt; dsimp only; split <;> simp
@[simp] theorem State.postEventAt_tm (s : State) (code : Nat) (l a : Word) (d : List Byte) : (s.postEventAt code l a d).tm = s.tm := by
  unfold State.postEventAt; dsimp only; split <;> simp
@[simp] theorem State.postEventAt_hbm (s : State) (code : Nat) (l a : Word) (d : List Byte) : (s.postEventAt code l a d).hbm = s.hbm := by
  unfold State.postEventAt; dsimp only; split <;> simp

/-! ### postEvent -/

@[simp] theorem State.postEvent_pending (s : State) (code : Nat) (d : List Byte) : (s.postEvent code d).pending = s.pending := by
  unfold State.postEvent; simp
@[simp] theorem State.postEvent_cycle (s : State) (code : Nat) (d : List Byte) : (s.postEvent code d).cycle = s.cycle := by
  unfold State.postEvent; simp
@[simp] theorem State.postEvent_freeCount (s : State) (code : Nat) (d : List Byte) : (s.postEvent code d).freeCount = s.freeCount := by
  unfold State.postEvent; simp
@[simp] theorem State.postEvent_flash (s : State) (code : Nat) (d : List Byte) : (s.postEvent code d).flash = s.flash := by
  unfold State.postEvent; simp
@[simp] theorem State.postEvent_fused (s : State) (code : Nat) (d : List Byte) : (s.postEvent code d).fused = s.fused := by
  unfold State.postEvent; simp
@[simp] theorem State.postEvent_boot (s : State) (code : Nat) (d : List Byte) : (s.postEvent code d).boot = s.boot := by
  unfold State.postEvent; simp
@[simp] theorem State.postEvent_cnt (s : State) (code : Nat) (d : List Byte) : (s.postEvent code d).cnt = s.cnt := by
  unfold State.postEvent; simp
@[simp] theorem State.postEvent_pwr (s : State) (code : Nat) (d : List Byte) : (s.postEvent code d).pwr = s.pwr := by
  unfold State.postEvent; simp
@[simp] theorem State.postEvent_d2d (s : State) (code : Nat) (d : List Byte) : (s.postEvent code d).d2d = s.d2d := by
  unfold State.postEvent; simp
@[simp] theorem State.postEvent_fpc (s : State) (code : Nat) (d : List Byte) : (s.postEvent code d).fpc = s.fpc := by
  unfold State.postEvent; simp
@[simp] theorem State.postEvent_tab (s : State) (code : Nat) (d : List Byte) : (s.postEvent code d).tab = s.tab := by
  unfold State.postEvent; simp
@[simp] theorem State.postEvent_line (s : State) (code : Nat) (d : List Byte) : (s.postEvent code d).line = s.line := by
  unfold State.postEvent; simp
@[simp] theorem State.postEvent_cls (s : State) (code : Nat) (d : List Byte) : (s.postEvent code d).cls = s.cls := by
  unfold State.postEvent; simp
@[simp] theorem State.postEvent_pols (s : State) (code : Nat) (d : List Byte) : (s.postEvent code d).pols = s.pols := by
  unfold State.postEvent; simp
@[simp] theorem State.postEvent_twin (s : State) (code : Nat) (d : List Byte) : (s.postEvent code d).twin = s.twin := by
  unfold State.postEvent; simp
@[simp] theorem State.postEvent_adm (s : State) (code : Nat) (d : List Byte) : (s.postEvent code d).adm = s.adm := by
  unfold State.postEvent; simp
@[simp] theorem State.postEvent_tm (s : State) (code : Nat) (d : List Byte) : (s.postEvent code d).tm = s.tm := by
  unfold State.postEvent; simp
@[simp] theorem State.postEvent_hbm (s : State) (code : Nat) (d : List Byte) : (s.postEvent code d).hbm = s.hbm := by
  unfold State.postEvent; simp

/-! ### reportUe -/

@[simp] theorem State.reportUe_pending (s : State) (l a : Word) : (s.reportUe l a).pending = s.pending := by
  unfold State.reportUe; simp
@[simp] theorem State.reportUe_cycle (s : State) (l a : Word) : (s.reportUe l a).cycle = s.cycle := by
  unfold State.reportUe; simp
@[simp] theorem State.reportUe_freeCount (s : State) (l a : Word) : (s.reportUe l a).freeCount = s.freeCount := by
  unfold State.reportUe; simp
@[simp] theorem State.reportUe_flash (s : State) (l a : Word) : (s.reportUe l a).flash = s.flash := by
  unfold State.reportUe; simp
@[simp] theorem State.reportUe_fused (s : State) (l a : Word) : (s.reportUe l a).fused = s.fused := by
  unfold State.reportUe; simp
@[simp] theorem State.reportUe_boot (s : State) (l a : Word) : (s.reportUe l a).boot = s.boot := by
  unfold State.reportUe; simp
@[simp] theorem State.reportUe_cnt (s : State) (l a : Word) : (s.reportUe l a).cnt = s.cnt := by
  unfold State.reportUe; simp
@[simp] theorem State.reportUe_pwr (s : State) (l a : Word) : (s.reportUe l a).pwr = s.pwr := by
  unfold State.reportUe; simp
@[simp] theorem State.reportUe_d2d (s : State) (l a : Word) : (s.reportUe l a).d2d = s.d2d := by
  unfold State.reportUe; simp
@[simp] theorem State.reportUe_fpc (s : State) (l a : Word) : (s.reportUe l a).fpc = s.fpc := by
  unfold State.reportUe; simp
@[simp] theorem State.reportUe_tab (s : State) (l a : Word) : (s.reportUe l a).tab = s.tab := by
  unfold State.reportUe; simp
@[simp] theorem State.reportUe_line (s : State) (l a : Word) : (s.reportUe l a).line = s.line := by
  unfold State.reportUe; simp
@[simp] theorem State.reportUe_cls (s : State) (l a : Word) : (s.reportUe l a).cls = s.cls := by
  unfold State.reportUe; simp
@[simp] theorem State.reportUe_pols (s : State) (l a : Word) : (s.reportUe l a).pols = s.pols := by
  unfold State.reportUe; simp
@[simp] theorem State.reportUe_twin (s : State) (l a : Word) : (s.reportUe l a).twin = s.twin := by
  unfold State.reportUe; simp
@[simp] theorem State.reportUe_adm (s : State) (l a : Word) : (s.reportUe l a).adm = s.adm := by
  unfold State.reportUe; simp
@[simp] theorem State.reportUe_tm (s : State) (l a : Word) : (s.reportUe l a).tm = s.tm := by
  unfold State.reportUe; simp
@[simp] theorem State.reportUe_hbm (s : State) (l a : Word) : (s.reportUe l a).hbm = s.hbm := by
  unfold State.reportUe; simp

/-! ### accessError -/

@[simp] theorem State.accessError_pending (s : State) (k : Nat) (a : Access) : (s.accessError k a).pending = s.pending := by
  unfold State.accessError; dsimp only; split <;> simp
@[simp] theorem State.accessError_cycle (s : State) (k : Nat) (a : Access) : (s.accessError k a).cycle = s.cycle := by
  unfold State.accessError; dsimp only; split <;> simp
@[simp] theorem State.accessError_freeCount (s : State) (k : Nat) (a : Access) : (s.accessError k a).freeCount = s.freeCount := by
  unfold State.accessError; dsimp only; split <;> simp
@[simp] theorem State.accessError_flash (s : State) (k : Nat) (a : Access) : (s.accessError k a).flash = s.flash := by
  unfold State.accessError; dsimp only; split <;> simp
@[simp] theorem State.accessError_fused (s : State) (k : Nat) (a : Access) : (s.accessError k a).fused = s.fused := by
  unfold State.accessError; dsimp only; split <;> simp
@[simp] theorem State.accessError_boot (s : State) (k : Nat) (a : Access) : (s.accessError k a).boot = s.boot := by
  unfold State.accessError; dsimp only; split <;> simp
@[simp] theorem State.accessError_cnt (s : State) (k : Nat) (a : Access) : (s.accessError k a).cnt = s.cnt := by
  unfold State.accessError; dsimp only; split <;> simp
@[simp] theorem State.accessError_pwr (s : State) (k : Nat) (a : Access) : (s.accessError k a).pwr = s.pwr := by
  unfold State.accessError; dsimp only; split <;> simp
@[simp] theorem State.accessError_d2d (s : State) (k : Nat) (a : Access) : (s.accessError k a).d2d = s.d2d := by
  unfold State.accessError; dsimp only; split <;> simp
@[simp] theorem State.accessError_fpc (s : State) (k : Nat) (a : Access) : (s.accessError k a).fpc = s.fpc := by
  unfold State.accessError; dsimp only; split <;> simp
@[simp] theorem State.accessError_tab (s : State) (k : Nat) (a : Access) : (s.accessError k a).tab = s.tab := by
  unfold State.accessError; dsimp only; split <;> simp
@[simp] theorem State.accessError_line (s : State) (k : Nat) (a : Access) : (s.accessError k a).line = s.line := by
  unfold State.accessError; dsimp only; split <;> simp
@[simp] theorem State.accessError_cls (s : State) (k : Nat) (a : Access) : (s.accessError k a).cls = s.cls := by
  unfold State.accessError; dsimp only; split <;> simp
@[simp] theorem State.accessError_pols (s : State) (k : Nat) (a : Access) : (s.accessError k a).pols = s.pols := by
  unfold State.accessError; dsimp only; split <;> simp
@[simp] theorem State.accessError_twin (s : State) (k : Nat) (a : Access) : (s.accessError k a).twin = s.twin := by
  unfold State.accessError; dsimp only; split <;> simp
@[simp] theorem State.accessError_adm (s : State) (k : Nat) (a : Access) : (s.accessError k a).adm = s.adm := by
  unfold State.accessError; dsimp only; split <;> simp
@[simp] theorem State.accessError_tm (s : State) (k : Nat) (a : Access) : (s.accessError k a).tm = s.tm := by
  unfold State.accessError; dsimp only; split <;> simp
@[simp] theorem State.accessError_hbm (s : State) (k : Nat) (a : Access) : (s.accessError k a).hbm = s.hbm := by
  unfold State.accessError; dsimp only; split <;> simp

/-! ### countEvents -/

theorem State.cntPlus_shape (s : State) (g k n : Nat) : s.cntPlus g k n = { s with cnt := (s.cntPlus g k n).cnt } := by
  unfold State.cntPlus; dsimp only; split <;> rfl

/-- A fold of steps that change the counters alone changes the counters alone. -/
theorem foldl_cnt {α : Type} (f : State → α → State) (h : ∀ s x, f s x = { s with cnt := (f s x).cnt }) (l : List α)
    (s : State) : l.foldl f s = { s with cnt := (l.foldl f s).cnt } := by
  induction l generalizing s with
  | nil => rfl
  | cons x l ih => rw [List.foldl_cons, ih, h]

/-- Events change the counters alone. -/
theorem State.countEvents_shape (s : State) (g src n : Nat) :
    s.countEvents g src n = { s with cnt := (s.countEvents g src n).cnt } := by
  unfold State.countEvents
  split
  · exact foldl_cnt _ (fun s k => by split; exact s.cntPlus_shape g k n; rfl) _ s
  · rfl

@[simp] theorem State.countEvents_pending (s : State) (g src n : Nat) : (s.countEvents g src n).pending = s.pending := by rw [State.countEvents_shape]
@[simp] theorem State.countEvents_cycle (s : State) (g src n : Nat) : (s.countEvents g src n).cycle = s.cycle := by rw [State.countEvents_shape]
@[simp] theorem State.countEvents_freeCount (s : State) (g src n : Nat) : (s.countEvents g src n).freeCount = s.freeCount := by rw [State.countEvents_shape]
@[simp] theorem State.countEvents_out (s : State) (g src n : Nat) : (s.countEvents g src n).out = s.out := by rw [State.countEvents_shape]
@[simp] theorem State.countEvents_regs (s : State) (g src n : Nat) : (s.countEvents g src n).regs = s.regs := by rw [State.countEvents_shape]
@[simp] theorem State.countEvents_host (s : State) (g src n : Nat) : (s.countEvents g src n).host = s.host := by rw [State.countEvents_shape]
@[simp] theorem State.countEvents_flash (s : State) (g src n : Nat) : (s.countEvents g src n).flash = s.flash := by rw [State.countEvents_shape]
@[simp] theorem State.countEvents_fused (s : State) (g src n : Nat) : (s.countEvents g src n).fused = s.fused := by rw [State.countEvents_shape]
@[simp] theorem State.countEvents_boot (s : State) (g src n : Nat) : (s.countEvents g src n).boot = s.boot := by rw [State.countEvents_shape]
@[simp] theorem State.countEvents_mgmt (s : State) (g src n : Nat) : (s.countEvents g src n).mgmt = s.mgmt := by rw [State.countEvents_shape]
@[simp] theorem State.countEvents_pwr (s : State) (g src n : Nat) : (s.countEvents g src n).pwr = s.pwr := by rw [State.countEvents_shape]
@[simp] theorem State.countEvents_d2d (s : State) (g src n : Nat) : (s.countEvents g src n).d2d = s.d2d := by rw [State.countEvents_shape]
@[simp] theorem State.countEvents_fpc (s : State) (g src n : Nat) : (s.countEvents g src n).fpc = s.fpc := by rw [State.countEvents_shape]
@[simp] theorem State.countEvents_tab (s : State) (g src n : Nat) : (s.countEvents g src n).tab = s.tab := by rw [State.countEvents_shape]
@[simp] theorem State.countEvents_line (s : State) (g src n : Nat) : (s.countEvents g src n).line = s.line := by rw [State.countEvents_shape]
@[simp] theorem State.countEvents_cls (s : State) (g src n : Nat) : (s.countEvents g src n).cls = s.cls := by rw [State.countEvents_shape]
@[simp] theorem State.countEvents_pols (s : State) (g src n : Nat) : (s.countEvents g src n).pols = s.pols := by rw [State.countEvents_shape]
@[simp] theorem State.countEvents_twin (s : State) (g src n : Nat) : (s.countEvents g src n).twin = s.twin := by rw [State.countEvents_shape]
@[simp] theorem State.countEvents_adm (s : State) (g src n : Nat) : (s.countEvents g src n).adm = s.adm := by rw [State.countEvents_shape]
@[simp] theorem State.countEvents_tm (s : State) (g src n : Nat) : (s.countEvents g src n).tm = s.tm := by rw [State.countEvents_shape]
@[simp] theorem State.countEvents_hbm (s : State) (g src n : Nat) : (s.countEvents g src n).hbm = s.hbm := by rw [State.countEvents_shape]
@[simp] theorem State.count1_pending (s : State) (g src : Nat) : (s.count1 g src).pending = s.pending := by
  unfold State.count1; simp
@[simp] theorem State.count1_cycle (s : State) (g src : Nat) : (s.count1 g src).cycle = s.cycle := by
  unfold State.count1; simp
@[simp] theorem State.count1_freeCount (s : State) (g src : Nat) : (s.count1 g src).freeCount = s.freeCount := by
  unfold State.count1; simp
@[simp] theorem State.count1_out (s : State) (g src : Nat) : (s.count1 g src).out = s.out := by
  unfold State.count1; simp
@[simp] theorem State.count1_regs (s : State) (g src : Nat) : (s.count1 g src).regs = s.regs := by
  unfold State.count1; simp
@[simp] theorem State.count1_host (s : State) (g src : Nat) : (s.count1 g src).host = s.host := by
  unfold State.count1; simp
@[simp] theorem State.count1_flash (s : State) (g src : Nat) : (s.count1 g src).flash = s.flash := by
  unfold State.count1; simp
@[simp] theorem State.count1_fused (s : State) (g src : Nat) : (s.count1 g src).fused = s.fused := by
  unfold State.count1; simp
@[simp] theorem State.count1_boot (s : State) (g src : Nat) : (s.count1 g src).boot = s.boot := by
  unfold State.count1; simp
@[simp] theorem State.count1_mgmt (s : State) (g src : Nat) : (s.count1 g src).mgmt = s.mgmt := by
  unfold State.count1; simp
@[simp] theorem State.count1_pwr (s : State) (g src : Nat) : (s.count1 g src).pwr = s.pwr := by
  unfold State.count1; simp
@[simp] theorem State.count1_d2d (s : State) (g src : Nat) : (s.count1 g src).d2d = s.d2d := by
  unfold State.count1; simp
@[simp] theorem State.count1_fpc (s : State) (g src : Nat) : (s.count1 g src).fpc = s.fpc := by
  unfold State.count1; simp
@[simp] theorem State.count1_tab (s : State) (g src : Nat) : (s.count1 g src).tab = s.tab := by
  unfold State.count1; simp
@[simp] theorem State.count1_line (s : State) (g src : Nat) : (s.count1 g src).line = s.line := by
  unfold State.count1; simp
@[simp] theorem State.count1_cls (s : State) (g src : Nat) : (s.count1 g src).cls = s.cls := by
  unfold State.count1; simp
@[simp] theorem State.count1_pols (s : State) (g src : Nat) : (s.count1 g src).pols = s.pols := by
  unfold State.count1; simp
@[simp] theorem State.count1_twin (s : State) (g src : Nat) : (s.count1 g src).twin = s.twin := by
  unfold State.count1; simp
@[simp] theorem State.count1_adm (s : State) (g src : Nat) : (s.count1 g src).adm = s.adm := by
  unfold State.count1; simp
@[simp] theorem State.count1_tm (s : State) (g src : Nat) : (s.count1 g src).tm = s.tm := by
  unfold State.count1; simp
@[simp] theorem State.count1_hbm (s : State) (g src : Nat) : (s.count1 g src).hbm = s.hbm := by
  unfold State.count1; simp

/-! ### Registers that events leave alone -/

/-- An offset that no event changes: neither a PIDX nor a status of an event ring. -/
def quietAt (off : Nat) : Prop :=
  ∀ q, 34 ≤ q → q < 42 → off ≠ Reg.addr .pci_RING_PIDX [q] ∧ off ≠ Reg.addr .pci_RING_STATUS [q]

theorem State.ringPut_rd (s : State) (q : Nat) (e : List Byte) (r : Reg) (ix : List Nat) (hl : 34 ≤ q) (hq : q < 42)
    (h : quietAt (r.addr ix)) : (s.ringPut q e).rd r ix = s.rd r ix := by
  unfold State.ringPut
  dsimp only
  split
  · have : ∀ x : State, (x.setFld .pci_RING_PIDX [q] f_pci_RING_PIDX_pidx ((s.ringPidx q + 1) % 2 ^ 32)).rd r ix =
        x.rd r ix := fun x => State.rd_wr_of_ne x _ _ _ _ _ (Ne.symm (h q hl hq).1)
    simpa [State.rd] using this (s.ringWrite q (s.ringEntryAddr q (s.ringPidx q)) e)
  · exact State.rd_wr_of_ne s _ _ _ _ _ (Ne.symm (h q hl hq).2)

theorem State.postEventAt_rd (s : State) (code : Nat) (l a : Word) (d : List Byte) (r : Reg) (ix : List Nat)
    (h : quietAt (r.addr ix)) : (s.postEventAt code l a d).rd r ix = s.rd r ix := by
  unfold State.postEventAt
  dsimp only
  split
  · have := State.ringPut_rd
      { s with host := { s.host with eseq := (s.host.eseq + 1) % 2 ^ 32 } }
      (34 + s.fld .glb_EVT_ROUTE [code] f_glb_EVT_ROUTE_ring)
      (eventBytes code (SMap.get {} s.host.ringx (34 + s.fld .glb_EVT_ROUTE [code] f_glb_EVT_ROUTE_ring)).lostBefore
        s.host.eseq s.pwr.time l a d) r ix (by omega) (by
          have := Fld.get_lt f_glb_EVT_ROUTE_ring (s.rd .glb_EVT_ROUTE [code])
          have hw : 2 ^ f_glb_EVT_ROUTE_ring.width = 8 := rfl
          unfold State.fld; omega) h
    simpa [State.rd] using this
  · rfl

theorem State.postEvent_rd (s : State) (code : Nat) (d : List Byte) (r : Reg) (ix : List Nat)
    (h : quietAt (r.addr ix)) : (s.postEvent code d).rd r ix = s.rd r ix := State.postEventAt_rd s code 0 0 d r ix h

theorem State.postEvent_fld (s : State) (code : Nat) (d : List Byte) (r : Reg) (ix : List Nat) (f : Fld)
    (h : quietAt (r.addr ix)) : (s.postEvent code d).fld r ix f = s.fld r ix f := by
  simp [State.fld, State.postEvent_rd s code d r ix h]

end Sys2Proof.Machine
end

