-- ==== Sys2Proof/Laws/Thread.lean ====
section
/-! SUPPORT. Threads: what a change of one thread leaves, registers read after they are written, and what the issue of an
instruction comes to for each of its outcomes. -/

namespace Sys2Proof.Machine

/-! ### One thread changed -/

@[simp] theorem State.modTh_pending (s : State) (c t : Nat) (f : Thread → Thread) : (s.modTh c t f).pending = s.pending := rfl
@[simp] theorem State.modTh_cycle (s : State) (c t : Nat) (f : Thread → Thread) : (s.modTh c t f).cycle = s.cycle := rfl
@[simp] theorem State.modTh_freeCount (s : State) (c t : Nat) (f : Thread → Thread) : (s.modTh c t f).freeCount = s.freeCount := rfl
@[simp] theorem State.modTh_out (s : State) (c t : Nat) (f : Thread → Thread) : (s.modTh c t f).out = s.out := rfl
@[simp] theorem State.modTh_regs (s : State) (c t : Nat) (f : Thread → Thread) : (s.modTh c t f).regs = s.regs := rfl
@[simp] theorem State.modTh_host (s : State) (c t : Nat) (f : Thread → Thread) : (s.modTh c t f).host = s.host := rfl
@[simp] theorem State.modTh_flash (s : State) (c t : Nat) (f : Thread → Thread) : (s.modTh c t f).flash = s.flash := rfl
@[simp] theorem State.modTh_fused (s : State) (c t : Nat) (f : Thread → Thread) : (s.modTh c t f).fused = s.fused := rfl
@[simp] theorem State.modTh_boot (s : State) (c t : Nat) (f : Thread → Thread) : (s.modTh c t f).boot = s.boot := rfl
@[simp] theorem State.modTh_mgmt (s : State) (c t : Nat) (f : Thread → Thread) : (s.modTh c t f).mgmt = s.mgmt := rfl
@[simp] theorem State.modTh_cnt (s : State) (c t : Nat) (f : Thread → Thread) : (s.modTh c t f).cnt = s.cnt := rfl
@[simp] theorem State.modTh_pwr (s : State) (c t : Nat) (f : Thread → Thread) : (s.modTh c t f).pwr = s.pwr := rfl
@[simp] theorem State.modTh_d2d (s : State) (c t : Nat) (f : Thread → Thread) : (s.modTh c t f).d2d = s.d2d := rfl
@[simp] theorem State.modTh_tab (s : State) (c t : Nat) (f : Thread → Thread) : (s.modTh c t f).tab = s.tab := rfl
@[simp] theorem State.modTh_line (s : State) (c t : Nat) (f : Thread → Thread) : (s.modTh c t f).line = s.line := rfl
@[simp] theorem State.modTh_cls (s : State) (c t : Nat) (f : Thread → Thread) : (s.modTh c t f).cls = s.cls := rfl
@[simp] theorem State.modTh_pols (s : State) (c t : Nat) (f : Thread → Thread) : (s.modTh c t f).pols = s.pols := rfl
@[simp] theorem State.modTh_twin (s : State) (c t : Nat) (f : Thread → Thread) : (s.modTh c t f).twin = s.twin := rfl
@[simp] theorem State.modTh_adm (s : State) (c t : Nat) (f : Thread → Thread) : (s.modTh c t f).adm = s.adm := rfl
@[simp] theorem State.modTh_tm (s : State) (c t : Nat) (f : Thread → Thread) : (s.modTh c t f).tm = s.tm := rfl
@[simp] theorem State.modTh_hbm (s : State) (c t : Nat) (f : Thread → Thread) : (s.modTh c t f).hbm = s.hbm := rfl

@[simp] theorem State.th_modTh_self (s : State) (c t : Nat) (f : Thread → Thread) :
    (s.modTh c t f).th c t = f (s.th c t) := SMap.get_modify_self _ _ _ _

theorem State.th_modTh_of_ne (s : State) {c t c' t' : Nat} (f : Thread → Thread) (h : c * 128 + t ≠ c' * 128 + t') :
    (s.modTh c t f).th c' t' = s.th c' t' := SMap.get_modify_of_ne _ _ f h

/-! ### General registers (R123) -/

@[simp] theorem Thread.gr_zero (th : Thread) : th.gr 0 = 0 := rfl
@[simp] theorem Thread.setG_zero (th : Thread) (v : Word) : th.setG 0 v = th := rfl

theorem Thread.gr_setG_self (th : Thread) {r : BitVec 5} (v : Word) (h : r ≠ 0) : (th.setG r v).gr r = v := by
  unfold Thread.gr Thread.setG
  rw [if_neg h, if_neg h]
  exact SMap.get_put_self _ _ _ _

theorem Thread.gr_setG_of_ne (th : Thread) {r r' : BitVec 5} (v : Word) (h : r ≠ r') : (th.setG r v).gr r' = th.gr r' := by
  by_cases hr : r = 0
  · simp [Thread.setG, hr]
  · by_cases hr' : r' = 0
    · simp [Thread.gr, hr']
    · simp only [Thread.gr, Thread.setG, hr, hr', if_false]
      exact SMap.get_put_of_ne _ _ _ fun e => h (BitVec.eq_of_toNat_eq e)

@[simp] theorem Thread.setG_state (th : Thread) (r : BitVec 5) (v : Word) : (th.setG r v).state = th.state := by
  unfold Thread.setG; split <;> rfl
@[simp] theorem Thread.setG_under (th : Thread) (r : BitVec 5) (v : Word) : (th.setG r v).under = th.under := by
  unfold Thread.setG; split <;> rfl
@[simp] theorem Thread.setG_pc (th : Thread) (r : BitVec 5) (v : Word) : (th.setG r v).pc = th.pc := by
  unfold Thread.setG; split <;> rfl
@[simp] theorem Thread.setG_m (th : Thread) (r : BitVec 5) (v : Word) : (th.setG r v).m = th.m := by
  unfold Thread.setG; split <;> rfl
@[simp] theorem Thread.setG_l (th : Thread) (r : BitVec 5) (v : Word) : (th.setG r v).l = th.l := by
  unfold Thread.setG; split <;> rfl
@[simp] theorem Thread.setG_hdr (th : Thread) (r : BitVec 5) (v : Word) : (th.setG r v).hdr = th.hdr := by
  unfold Thread.setG; split <;> rfl
@[simp] theorem Thread.setG_scratch (th : Thread) (r : BitVec 5) (v : Word) : (th.setG r v).scratch = th.scratch := by
  unfold Thread.setG; split <;> rfl
@[simp] theorem Thread.setG_prepend (th : Thread) (r : BitVec 5) (v : Word) : (th.setG r v).prepend = th.prepend := by
  unfold Thread.setG; split <;> rfl
@[simp] theorem Thread.setG_kb (th : Thread) (r : BitVec 5) (v : Word) : (th.setG r v).kb = th.kb := by
  unfold Thread.setG; split <;> rfl
@[simp] theorem Thread.setG_gen (th : Thread) (r : BitVec 5) (v : Word) : (th.setG r v).gen = th.gen := by
  unfold Thread.setG; split <;> rfl
@[simp] theorem Thread.setG_pkt (th : Thread) (r : BitVec 5) (v : Word) : (th.setG r v).pkt = th.pkt := by
  unfold Thread.setG; split <;> rfl
@[simp] theorem Thread.setG_deferred (th : Thread) (r : BitVec 5) (v : Word) : (th.setG r v).deferred = th.deferred := by
  unfold Thread.setG; split <;> rfl
@[simp] theorem Thread.setG_mirrors (th : Thread) (r : BitVec 5) (v : Word) : (th.setG r v).mirrors = th.mirrors := by
  unfold Thread.setG; split <;> rfl
@[simp] theorem Thread.setG_stamps (th : Thread) (r : BitVec 5) (v : Word) : (th.setG r v).stamps = th.stamps := by
  unfold Thread.setG; split <;> rfl
@[simp] theorem Thread.setG_resv (th : Thread) (r : BitVec 5) (v : Word) : (th.setG r v).resv = th.resv := by
  unfold Thread.setG; split <;> rfl
@[simp] theorem Thread.setG_waitKind (th : Thread) (r : BitVec 5) (v : Word) : (th.setG r v).waitKind = th.waitKind := by
  unfold Thread.setG; split <;> rfl
@[simp] theorem Thread.setG_waitObj (th : Thread) (r : BitVec 5) (v : Word) : (th.setG r v).waitObj = th.waitObj := by
  unfold Thread.setG; split <;> rfl
@[simp] theorem Thread.setG_waitSince (th : Thread) (r : BitVec 5) (v : Word) : (th.setG r v).waitSince = th.waitSince := by
  unfold Thread.setG; split <;> rfl
@[simp] theorem Thread.setG_waitLine (th : Thread) (r : BitVec 5) (v : Word) : (th.setG r v).waitLine = th.waitLine := by
  unfold Thread.setG; split <;> rfl
@[simp] theorem Thread.setG_longSeen (th : Thread) (r : BitVec 5) (v : Word) : (th.setG r v).longSeen = th.longSeen := by
  unfold Thread.setG; split <;> rfl
@[simp] theorem Thread.setG_ready (th : Thread) (r : BitVec 5) (v : Word) : (th.setG r v).ready = th.ready := by
  unfold Thread.setG; split <;> rfl

/-! ### The issue of an instruction (R85, R135) -/

theorem State.issue_running (s : State) (c : Fin 32) (t : Fin 128) (e : CoreErr) (i : KInstr) (h : (s.th c t).state = 2) :
    s.issue c t e i = .next (s.runInstr c t e i) := if_pos h

theorem State.issue_not_running (s : State) (c : Fin 32) (t : Fin 128) (e : CoreErr) (i : KInstr)
    (h : (s.th c t).state ≠ 2) : s.issue c t e i = .next s := if_neg h

/-- Instruction completion of a thread that is not being stepped is its core's count alone (R111). -/
theorem State.complete_of_free {s : State} {c t : Nat} (h : (s.th c t).stepping = false) : s.complete c t = s.count1 c 4 := by
  have h' : ((s.count1 c 4).th c t).stepping = false := by
    rwa [State.th, State.count1_fpc]
  unfold State.complete; simp [h']

/-- A fetch from a word whose error stands drops the packet, whatever the instruction is (R120). -/
theorem State.runInstr_of_fetchFails {s : State} {c t : Nat} {e : CoreErr} {i : KInstr} (h : s.fetchFails c t e = true) :
    s.runInstr c t e i = s.fetchError c t := by
  unfold State.runInstr; rw [if_pos h]

/-- An instruction that meets no error of a memory is what its meaning answers. -/
theorem State.runInstr_clean {s : State} {c t : Nat} {i : KInstr} (h : s.fetchFails c t .clean = false) :
    s.runInstr c t .clean i =
      match s.kexec c t .clean i with
      | .next s jump => (s.advance c t jump).complete c t
      | .stall s kind obj line =>
        ((s.modTh c t fun th =>
          { th with state := 3, waitKind := kind, waitObj := obj, waitLine := line, waitSince := s.cycle,
                    longSeen := false, ready := false }).stir c).coreSwitch c (t / 8)
      | .raise code => s.exception c t code
      | .memErr s mem => if mem = 4 then s.coreError c t 4 else s.memError c t mem
      | .yield' =>
        ((((s.advance c t none).modTh c t fun th => { th with state := 1 }).complete c t).stir c).coreSwitch c (t / 8)
      | .over s => s.count1 c 4 := by
  unfold State.runInstr; rw [h]; simp; rfl

theorem State.runInstr_of_next {s t' : State} {c t : Nat} {i : KInstr} {j : Option Nat}
    (hf : s.fetchFails c t .clean = false) (h : s.kexec c t .clean i = .next t' j) :
    s.runInstr c t .clean i = (t'.advance c t j).complete c t := by
  rw [State.runInstr_clean hf, h]

theorem State.runInstr_of_raise {s : State} {c t code : Nat} {i : KInstr}
    (hf : s.fetchFails c t .clean = false) (h : s.kexec c t .clean i = .raise code) :
    s.runInstr c t .clean i = s.exception c t code := by
  rw [State.runInstr_clean hf, h]

theorem State.runInstr_of_over {s t' : State} {c t : Nat} {i : KInstr}
    (hf : s.fetchFails c t .clean = false) (h : s.kexec c t .clean i = .over t') :
    s.runInstr c t .clean i = t'.count1 c 4 := by
  rw [State.runInstr_clean hf, h]

theorem State.runInstr_of_yield {s : State} {c t : Nat} {i : KInstr}
    (hf : s.fetchFails c t .clean = false) (h : s.kexec c t .clean i = .yield') :
    s.runInstr c t .clean i =
      ((((s.advance c t none).modTh c t fun th => { th with state := 1 }).complete c t).stir c).coreSwitch c (t / 8) := by
  rw [State.runInstr_clean hf, h]

theorem State.runInstr_of_stall {s t' : State} {c t kind obj line : Nat} {i : KInstr}
    (hf : s.fetchFails c t .clean = false) (h : s.kexec c t .clean i = .stall t' kind obj line) :
    s.runInstr c t .clean i =
      ((t'.modTh c t fun th =>
        { th with state := 3, waitKind := kind, waitObj := obj, waitLine := line, waitSince := t'.cycle,
                  longSeen := false, ready := false }).stir c).coreSwitch c (t / 8) := by
  rw [State.runInstr_clean hf, h]

/-- The pc after an instruction that goes on, and the general registers, which moving on does not change. -/
theorem State.advance_pc (s : State) (c t : Nat) (j : Option Nat) :
    ((s.advance c t j).th c t).pc = j.getD ((s.th c t).pc + 1) % 131072 := by simp [State.advance]

theorem State.advance_gr (s : State) (c t : Nat) (j : Option Nat) (r : BitVec 5) :
    ((s.advance c t j).th c t).gr r = (s.th c t).gr r := by simp [State.advance, Thread.gr]

theorem State.advance_th_of_ne (s : State) {c t c' t' : Nat} (j : Option Nat) (h : c * 128 + t ≠ c' * 128 + t') :
    (s.advance c t j).th c' t' = s.th c' t' := State.th_modTh_of_ne s _ h

@[simp] theorem State.advance_pending (s : State) (c t : Nat) (j : Option Nat) : (s.advance c t j).pending = s.pending := rfl
@[simp] theorem State.advance_cycle (s : State) (c t : Nat) (j : Option Nat) : (s.advance c t j).cycle = s.cycle := rfl
@[simp] theorem State.advance_freeCount (s : State) (c t : Nat) (j : Option Nat) : (s.advance c t j).freeCount = s.freeCount := rfl
@[simp] theorem State.advance_out (s : State) (c t : Nat) (j : Option Nat) : (s.advance c t j).out = s.out := rfl
@[simp] theorem State.advance_regs (s : State) (c t : Nat) (j : Option Nat) : (s.advance c t j).regs = s.regs := rfl
@[simp] theorem State.advance_host (s : State) (c t : Nat) (j : Option Nat) : (s.advance c t j).host = s.host := rfl
@[simp] theorem State.advance_flash (s : State) (c t : Nat) (j : Option Nat) : (s.advance c t j).flash = s.flash := rfl
@[simp] theorem State.advance_fused (s : State) (c t : Nat) (j : Option Nat) : (s.advance c t j).fused = s.fused := rfl
@[simp] theorem State.advance_boot (s : State) (c t : Nat) (j : Option Nat) : (s.advance c t j).boot = s.boot := rfl
@[simp] theorem State.advance_mgmt (s : State) (c t : Nat) (j : Option Nat) : (s.advance c t j).mgmt = s.mgmt := rfl
@[simp] theorem State.advance_cnt (s : State) (c t : Nat) (j : Option Nat) : (s.advance c t j).cnt = s.cnt := rfl
@[simp] theorem State.advance_pwr (s : State) (c t : Nat) (j : Option Nat) : (s.advance c t j).pwr = s.pwr := rfl
@[simp] theorem State.advance_d2d (s : State) (c t : Nat) (j : Option Nat) : (s.advance c t j).d2d = s.d2d := rfl
@[simp] theorem State.advance_tab (s : State) (c t : Nat) (j : Option Nat) : (s.advance c t j).tab = s.tab := rfl
@[simp] theorem State.advance_line (s : State) (c t : Nat) (j : Option Nat) : (s.advance c t j).line = s.line := rfl
@[simp] theorem State.advance_cls (s : State) (c t : Nat) (j : Option Nat) : (s.advance c t j).cls = s.cls := rfl
@[simp] theorem State.advance_pols (s : State) (c t : Nat) (j : Option Nat) : (s.advance c t j).pols = s.pols := rfl
@[simp] theorem State.advance_twin (s : State) (c t : Nat) (j : Option Nat) : (s.advance c t j).twin = s.twin := rfl
@[simp] theorem State.advance_adm (s : State) (c t : Nat) (j : Option Nat) : (s.advance c t j).adm = s.adm := rfl
@[simp] theorem State.advance_tm (s : State) (c t : Nat) (j : Option Nat) : (s.advance c t j).tm = s.tm := rfl
@[simp] theorem State.advance_hbm (s : State) (c t : Nat) (j : Option Nat) : (s.advance c t j).hbm = s.hbm := rfl

@[simp] theorem State.stir_pending (s : State) (c : Nat) : (s.stir c).pending = s.pending := rfl
@[simp] theorem State.stir_cycle (s : State) (c : Nat) : (s.stir c).cycle = s.cycle := rfl
@[simp] theorem State.stir_freeCount (s : State) (c : Nat) : (s.stir c).freeCount = s.freeCount := rfl
@[simp] theorem State.stir_out (s : State) (c : Nat) : (s.stir c).out = s.out := rfl
@[simp] theorem State.stir_regs (s : State) (c : Nat) : (s.stir c).regs = s.regs := rfl
@[simp] theorem State.stir_host (s : State) (c : Nat) : (s.stir c).host = s.host := rfl
@[simp] theorem State.stir_flash (s : State) (c : Nat) : (s.stir c).flash = s.flash := rfl
@[simp] theorem State.stir_fused (s : State) (c : Nat) : (s.stir c).fused = s.fused := rfl
@[simp] theorem State.stir_boot (s : State) (c : Nat) : (s.stir c).boot = s.boot := rfl
@[simp] theorem State.stir_mgmt (s : State) (c : Nat) : (s.stir c).mgmt = s.mgmt := rfl
@[simp] theorem State.stir_cnt (s : State) (c : Nat) : (s.stir c).cnt = s.cnt := rfl
@[simp] theorem State.stir_pwr (s : State) (c : Nat) : (s.stir c).pwr = s.pwr := rfl
@[simp] theorem State.stir_d2d (s : State) (c : Nat) : (s.stir c).d2d = s.d2d := rfl
@[simp] theorem State.stir_tab (s : State) (c : Nat) : (s.stir c).tab = s.tab := rfl
@[simp] theorem State.stir_line (s : State) (c : Nat) : (s.stir c).line = s.line := rfl
@[simp] theorem State.stir_cls (s : State) (c : Nat) : (s.stir c).cls = s.cls := rfl
@[simp] theorem State.stir_pols (s : State) (c : Nat) : (s.stir c).pols = s.pols := rfl
@[simp] theorem State.stir_twin (s : State) (c : Nat) : (s.stir c).twin = s.twin := rfl
@[simp] theorem State.stir_adm (s : State) (c : Nat) : (s.stir c).adm = s.adm := rfl
@[simp] theorem State.stir_tm (s : State) (c : Nat) : (s.stir c).tm = s.tm := rfl
@[simp] theorem State.stir_hbm (s : State) (c : Nat) : (s.stir c).hbm = s.hbm := rfl

end Sys2Proof.Machine
end

