-- ==== Sys2Proof/Tests/Slice0.lean ====
section
/-! SUPPORT. The model's own tests: well-formedness, words of the spec's example program, operations with published
values, and for every statement of Obligations.lean witnesses that its hypotheses can be met, clause by clause. -/

open Sys2Proof Sys2Proof.Machine

set_option Elab.async false
set_option linter.unusedVariables false

namespace Sys2Proof.Tests
/-- A device at work: every domain ON, the die-to-die link at full rate, port 0 ON with its link up, cluster 0 ON. -/
def on : State :=
  let s := State.reset
  let s := { s with cycle := 100000000, pwr := { s.pwr with inReset := false, pllLocked := true, pwrGood := true } }
  let s := s.each (List.range 24) fun s n => s.setFld .cpr_PD_STATUS [n] f_cpr_PD_STATUS_state 2
  let s := s.setFld .d2d_STATUS [] f_d2d_STATUS_health 0
  let s := s.setFld .lmac_PORT_CFG [0] f_lmac_PORT_CFG_mode 1
  let s := s.setFld .lmac_PORT_STATUS [0] f_lmac_PORT_STATUS_state 2
  let s := s.setFlag .lmac_PORT_STATUS [0] f_lmac_PORT_STATUS_link_up true
  let s := s.setFld .fpc_CL_STATUS [0] f_fpc_CL_STATUS_state 2
  let s := s.setFld .fpc_CL_STATUS [0] f_fpc_CL_STATUS_present 0xFFFF
  s.wr .fpc_ROSTER [0, 0] 0x8
/-- A packet of MAC 0. -/
def pkt (seq : Nat) : Pkt :=
  { seq, fid := 1, mac := 0, ts := 5, bytes := List.replicate 64 0, bank := 0, hov := [], final := 0,
    kb := List.replicate 128 0, reasons := 0, lastEnd := 14 }

/-! ### Well-formedness: an ill-formed operand for each check is refused -/

/-- An image and a core program that are well-formed, to break one field of. -/
def img : ImageInfo := { sigOk := true, secver := 1, schema := 0x0100, reads := [1], migrates := [1] }
def prog : CoreProgram :=
  { cluster := 0, words := [], entry := 0, residentEntry := 0, shared := [], chanCfg := [], evtCfg := [], resident0 := 0,
    resident1 := 0 }
def pbk : PlaybookInfo :=
  { sigOk := true, stepId := 0, compatible := [], fallback := none, regs := [],
    programs := [prog], baseOps := [] }

theorem test_wf_access_bar2_of_pf :
    Instr.wf (.registerWrite { who := .host (.pf 0) .bar2, off := 0 } 0) = false ∧
    Instr.wf (.readClearAccess { who := .host (.vf 0) .bar0, off := 0 }) = false ∧
    Instr.wf (.narrowUnalignedAccess { who := .host (.vf 0) .bar0, off := 0 } true) = false ∧
    Instr.wf (.poisonedWrite { who := .host (.pf 1) .bar2, off := 0 }) = false ∧
    Instr.wf (.poisonedWrite { who := .mgmt, off := 0 }) = true := by decide
theorem test_wf_lengths :
    Instr.wf (.rxFrameStart 0 []) = false ∧ Instr.wf (.fabricCellReceive 0 0 []) = false ∧
    Instr.wf (.rallyFrameReceive 0 0 []) = false ∧ Instr.wf (.hbmRequest 0 0 0 0 (some [])) = false ∧
    Instr.wf (.txnBatchTake (.data []) (.failed 1) (.failed 1)) = false ∧
    Instr.wf (.txnBatchTake (.failed 1) (.data []) (.failed 1)) = false ∧
    Instr.wf (.injectDescriptor (.data []) (.failed 1)) = false ∧ Instr.wf (.avsCheck [] none) = false ∧
    Instr.wf (.puntDeliver [.data []]) = false := by decide
theorem test_wf_functions : Instr.wf (.flr (.vf 0)) = false ∧ Instr.wf (.msixVectorUnmask (.vf 0) 0) = false := by decide
theorem test_wf_image : Instr.wf (.stageImageLoad img img) = true ∧
    Instr.wf (.stageImageLoad { img with reads := [256] } img) = false ∧
    Instr.wf (.stageImageLoad img { img with migrates := [2] }) = false ∧
    Instr.wf (.mgmtRestart { img with migrates := [2] } true none) = false := by decide
theorem test_wf_programs : Instr.wf (.mgmtRestart img true (some [prog])) = true ∧
    Instr.wf (.mgmtRestart img true (some [{ prog with chanCfg := List.replicate 65 0 }])) = false ∧
    Instr.wf (.mgmtRestart img true (some [{ prog with evtCfg := List.replicate 33 0 }])) = false := by decide +kernel
theorem test_wf_playbook : Instr.wf (.stagePlaybookRead pbk) = true ∧
    Instr.wf (.stagePlaybookRead { pbk with compatible := [1, 2, 3, 4] }) = false ∧
    Instr.wf (.stagePlaybookRead { pbk with programs := [prog, prog] }) = false ∧
    Instr.wf (.stagePlaybookRead { pbk with baseOps := [[]] }) = false := by decide +kernel
theorem test_wf_low_rail : Instr.wf (.pdRampSlotTake (some (47, 0))) = false ∧
    Instr.wf (.pdRampSlotTake (some (112, 0))) = false ∧ Instr.wf (.pdRampSlotTake (some (48, 0))) = true := by decide

/-! ### The opcode table gives its rows no bits -/

theorem test_table_word_spells_nothing : decodeTableWord 32 0 = none := rfl

/-! ### Kryx words: the program of chapter 4 (the table after R154), word by word -/

theorem test_word_lkp : decodeKryx 0x7001C000 = some (.lkp 0 3 true 0) := by decide
theorem test_word_hld : decodeKryx 0x40400B00 = some (.hld 2 0 22 0 false) := by decide
theorem test_word_lkw : decodeKryx 0x74000000 = some (.lkw 0) := by decide
theorem test_word_hld_two : decodeKryx 0x40600C20 = some (.hld 3 0 24 1 false) := by decide
theorem test_word_lread : decodeKryx 0x48200002 = some (.lread 1 false 0) := by decide
theorem test_word_sltiu : decodeKryx 0x25020002 = some (.imm .sltiu 8 2 2) := by decide
theorem test_word_ori : decodeKryx 0x10A00100 = some (.imm .ori 5 0 0x100) := by decide
theorem test_word_bne : decodeKryx 0x3100100A = some (.bcc .ne 8 0 false 10) := by decide
theorem test_word_addi : decodeKryx 0x0842FFFF = some (.imm .addi 2 2 0xFFFF) := by decide
theorem test_word_ext : decodeKryx 0x28810120 = some (.field .ext 4 1 0 18) := by decide
theorem test_word_csum : decodeKryx 0x0463280F = some (.alu .csum 3 3 5) := by decide
theorem test_word_ext_high : decodeKryx 0x28C181B0 = some (.field .ext 6 1 32 27) := by decide
theorem test_word_hst : decodeKryx 0x44400B00 = some (.hst 2 0 22 0) := by decide
theorem test_word_movmg : decodeKryx 0x48E18000 = some (.movmg 7 3) := by decide
theorem test_word_cnt_add : decodeKryx 0x90C70000 = some (.cntAdd 6 7) := by decide
theorem test_word_emit : decodeKryx 0xA0800000 = some (.emit 4) := by decide
/-- Words that R137 and R139 make ILLEGAL: op 0, an unused fn, a reserved field that is not zero, and a bit field past bit
63. -/
theorem test_words_that_are_illegal :
    decodeKryx 0 = none ∧ decodeKryx 0x04000015 = none ∧ decodeKryx 0x04000040 = none ∧ decodeKryx 0x28000410 = some (.field .ext 0 0 1 1) ∧
    decodeKryx 0x2800FC10 = none := by decide

/-! ### Operations -/

/-- The check value of CRC-32C, of the bytes "123456789", is the published one. -/
theorem test_crc32c_check : crc32c 0xFFFFFFFF ((List.range 9).map fun i => BitVec.ofNat 8 (0x31 + i)) = 0xE3069283 := by
  decide +kernel
/-- SHA-384 of "abc" is the published digest. -/
theorem test_sha384_abc :
    sha384 [0x61, 0x62, 0x63] =
      0xcb00753f45a35e8bb5a03d699ac65007272c32ab0eded1631a8b605a43ff5bed8086072ba1e7cc2358baeca134c825a7 := by
  decide +kernel
/-- The first output of SplitMix64 from state 0 (R127). -/
theorem test_splitmix_first : splitMixMix (splitMixNext 0) = 16294208416658607535#64 := by decide +kernel
/-- CSUM of the program's checksum word: a carry out of 16 bits is added back (R138). -/
theorem test_csum_carry : AluFn.csum.eval 0xFFFF 0x0100 = 0x0100 := by decide +kernel
theorem test_mulhu : AluFn.mulhu.eval 0xFFFFFFFFFFFFFFFF 2 = 1 := by decide +kernel
theorem test_clz_zero : AluFn.clz.eval 0 0 = 64 := by decide +kernel
theorem test_sar_keeps_sign : AluFn.sar.eval 0x8000000000000000 63 = 0xFFFFFFFFFFFFFFFF := by decide +kernel
theorem test_mask_whole_word : FieldFn.mask.eval 0 0 0 64 = 0xFFFFFFFFFFFFFFFF := by decide +kernel
/-- The place of an access that runs from scratch past its end is nowhere (R129, R130). -/
theorem test_place_straddles : place 0 0x1FF 2 = .nowhere ∧ place 0 0x1FE 2 = .scratch 0x1FE := by decide

/-! ### Steps and reset -/

theorem test_step_takes_the_front :
    step { State.reset with pending := [.jtagTrst, .wdogKick] } = exec .jtagTrst { State.reset with pending := [.wdogKick] } := rfl
theorem test_reset_is_safe : State.reset.safe = true := by decide
theorem test_reset_d2d_health_failed : State.reset.fld .d2d_STATUS [] f_d2d_STATUS_health = 2 := by decide +kernel
theorem test_idle_cycle_advances : State.reset.tick.cycle = 1 := by decide +kernel

/-! ### Witnesses of the statements on steps, words and frames -/

theorem witness_StepRunsTheFrontCommand : ∃ s : State, s.pending = [] := ⟨State.reset, rfl⟩
theorem witness_KryxDecodeOfEncode : ∃ i : KInstr, i.wf = true := ⟨.field .ext 4 1 0 63, by decide⟩
theorem witness_StepKeepsMemoriesAndThreadBounds :
    ∃ s t : State, s.memoriesOk = true ∧ s.threadsOk = true ∧ step s = .next t :=
  ⟨State.reset, _, by decide, by decide, rfl⟩
theorem witness_CommandsLeaveOtherUnitsUnchanged : ∃ (c : Instr) (s t : State), exec c s = .next t :=
  ⟨.jtagTrst, State.reset, _, rfl⟩

/-- Thread 0 of cluster 0 RUNNING, with an address in g1 and a value in g2; channel 7 enabled. -/
def running (a b : Word) : State :=
  (on.setFld .fpc_CHAN_CFG [0, 7] f_fpc_CHAN_CFG_enable 1).modTh 0 0 fun x =>
    { x with state := 2, g := [(1, a), (2, b)], pkt := some (pkt 3) }

/-- A running thread issues an instruction. -/
theorem issued (c : Instr) (s : State) (i : KInstr) (hc : exec c s = s.issue 0 0 .clean i)
    (h : (s.th (0 : Fin 32) (0 : Fin 128)).state = 2) :
    exec c s = .next (s.runInstr (0 : Fin 32) (0 : Fin 128) .clean i) := by
  rw [hc]; unfold State.issue; rw [if_pos h]; rfl

theorem witness_KryxInstructionsLeaveOtherStateUnchanged :
    (∃ (s t : State) (i : Instr), (s.th 0 0).state = 2 ∧ (t.th 0 0).state = 2 ∧ ownThread i = some (0, 0) ∧
      exec i s = .next t) ∧
    (∃ (s t : State), (s.th 0 0).state = 2 ∧ (t.th 0 0).state = 2 ∧ exec (.st 0 0 2 1 0 3 .clean) s = .next t) ∧
    (∃ (s t : State) (i : Instr), (s.th 0 0).state = 2 ∧ (t.th 0 0).state = 2 ∧ atomicOf i = some (0, 0, 3, 1) ∧
      exec i s = .next t) ∧
    (∃ (s t : State), (s.th 0 0).state = 2 ∧ (t.th 0 0).state = 2 ∧ exec (.cinv 0 0 1 .clean) s = .next t) ∧
    (∃ (s t : State), (s.th 0 0).state = 2 ∧ (t.th 0 0).state = 2 ∧ exec (.passRes 0 0 3 7 false 0 .clean) s = .next t) ∧
    (∃ (s t : State), (s.th 0 0).state = 2 ∧ (t.th 0 0).state = 2 ∧ exec (.passCommit 0 0 3 .clean) s = .next t) :=
  ⟨⟨running 5 6, _, .add 0 0 3 1 2 .clean, by decide +kernel, by decide +kernel, rfl,
      issued _ _ (.alu .add 3 1 2) rfl (by decide +kernel)⟩,
    ⟨running 0x100000 6, _, by decide +kernel, by decide +kernel, issued _ _ (.st 2 1 0 3) rfl (by decide +kernel)⟩,
    ⟨running 0x100000 6, _, .amoAdd 0 0 3 1 2 .clean, by decide +kernel, by decide +kernel, rfl,
      issued _ _ (.amo .add 3 1 2) rfl (by decide +kernel)⟩,
    ⟨running 0x200000000 6, _, by decide +kernel, by decide +kernel, issued _ _ (.cinv 1) rfl (by decide +kernel)⟩,
    ⟨running 5 6, _, by decide +kernel, by decide +kernel,
      issued _ _ (.passRes 3 7 false 0) rfl (by decide +kernel)⟩,
    ⟨(running 5 6).runInstr 0 0 .clean (.passRes 3 7 false 0), _, by decide +kernel, by decide +kernel,
      issued _ _ (.passCommit 3) rfl (by decide +kernel)⟩⟩

end Sys2Proof.Tests

/-! ### Witnesses of part 01 of the statements -/

namespace Sys2Proof.Tests.W01
open Sys2Proof.Tests

def rdy : State := on.setFlag .glb_BOOT_STATUS [] f_glb_BOOT_STATUS_ready true
def sealedOn : State := { rdy with boot := { rdy.boot with sealed := true } }
def linkDown : State := rdy.setFld .d2d_STATUS [] f_d2d_STATUS_health 2
def acc (off : Nat) : Access := { who := .host (.pf 0) .bar0, off := BitVec.ofNat _ off }
def accM (off : Nat) : Access := { who := .mgmt, off := BitVec.ofNat _ off }

theorem witness_PlainRegisterWriteFollowsFieldTypes :
    (∃ (s : State) (a : Access) (r : _) (ix : _), s.reaches a = true ∧ s.tmClosed a.off.toNat = false ∧ findReg a.off.toNat = some (r, ix) ∧ ownWrite r = false ∧ s.sealsOff r = false) ∧
    (∃ (s : State) (a : Access) (n : _) (w : _), s.reaches a = true ∧ s.tmClosed a.off.toNat = false ∧ findReg a.off.toNat = some (.fbk_TMPL, [n, w]) ∧ s.boot.sealed = false) ∧
    (∃ (s : State) (a : Access), s.reaches a = true ∧ s.tmClosed a.off.toNat = false ∧ findReg a.off.toNat = none) :=
  ⟨⟨rdy, (acc 0x1200010), .dsp_OK_CFG, [], by decide +kernel⟩,
    ⟨rdy, (acc (Reg.addr .fbk_TMPL [3, 2])), 3, 2, by decide +kernel⟩,
    ⟨rdy, (acc 0x12FFFF8), by decide +kernel⟩⟩

theorem witness_RegisterReadShowsFieldsAndClearsRc :
    (∃ (s : State) (a : Access) (r : _) (ix : _), s.reaches a = true ∧ s.tmClosed a.off.toNat = false ∧ findReg a.off.toNat = some (r, ix) ∧ regHeld r ix = true ∧ ownRead r = false) ∧
    (∃ (s : State) (a : Access), s.reaches a = true ∧ s.tmClosed a.off.toNat = false ∧ findReg a.off.toNat = none) ∧
    (∃ (s : State) (a : Access) (n : _) (w : _), s.reaches a = true ∧ s.tmClosed a.off.toNat = false ∧ findReg a.off.toNat = some (.fbk_TMPL, [n, w])) ∧
    (∃ (s : State) (a : Access) (m : _), s.reaches a = true ∧ s.tmClosed a.off.toNat = false ∧ findReg a.off.toNat = some (.lmac_PORT_STATUS, [m])) ∧
    (∃ (s : State) (a : Access) (c : _), s.reaches a = true ∧ s.tmClosed a.off.toNat = false ∧ findReg a.off.toNat = some (.qmg_CH_STATUS, [c])) :=
  ⟨⟨rdy, (acc 0x1200010), .dsp_OK_CFG, [], by decide +kernel⟩,
    ⟨rdy, (accM 0x12FFFF8), by decide +kernel⟩,
    ⟨rdy, (acc (Reg.addr .fbk_TMPL [3, 2])), 3, 2, by decide +kernel⟩,
    ⟨rdy, (acc (Reg.addr .lmac_PORT_STATUS [3])), 3, by decide +kernel⟩,
    ⟨rdy, (acc (Reg.addr .qmg_CH_STATUS [3])), 3, by decide +kernel⟩⟩

theorem witness_NarrowAccessIsDiscardedAndRecorded :
    (∃ (s : State) (a : Access), s.reaches { a with off := 0 } = true) :=
  ⟨rdy, (accM 0x1200011), by decide +kernel⟩

theorem witness_RefusedAccessesAreRecordedByKind :
    (∃ (s : State) (a : Access), s.reaches a = true ∧ a.who ≠ .mgmt) ∧
    (∃ (s : State) (a : Access) (r : _) (ix : _), s.reaches a = true ∧ findReg a.off.toNat = some (r, ix) ∧ s.boot.sealed = true ∧ (r.row.sealing = .sealed ∨ r.row.sealing = .txnOnly) ∧ s.tmClosed a.off.toNat = false) ∧
    (∃ (s : State) (a : Access), s.reaches a = true ∧ s.d2dHealth = 2 ∧ 0x2000000 ≤ a.off.toNat) :=
  ⟨⟨sealedOn, (acc 0x1100000), by decide +kernel⟩,
    ⟨sealedOn, (acc 0x1100000), .prs_HORIZON, [], by decide +kernel⟩,
    ⟨linkDown, (accM 0x2000000), by decide +kernel⟩⟩

end Sys2Proof.Tests.W01

/-! ### Witnesses of part 02 of the statements -/

namespace Sys2Proof.Tests.W02
open Sys2Proof.Tests

def sUp : State := ((State.reset.setFld .d2d_MOD_STATUS [3] f_d2d_MOD_STATUS_state 2))
def sLate : State := { (sUp.modD2d 3 fun x => { x with winReplays := 1, fails := 2}) with cycle := 100000000 }

theorem witness_D2dLinkCommandsComplete :
    (∃ (s : State) (m : Fin 40) (n : Nat) (crcOk : Bool), s.d2dMod m = 2 ∧ n = s.d2d.rxTm.next ∧ s.d2d.rxTm.ahead = [] ∧ n = s.d2d.rxFe.next ∧ s.d2d.rxFe.ahead = [] ∧ s.pwr.inReset = false ∧ s.d2d.sigNext ≤ n ∧ s.whistleState = 0 ∧ (s.pwr.inReset = true ∨ s.d2dMod m ≠ 2 ∨ crcOk = false ∨ n < s.d2d.sigNext)) ∧
    (∃ (s : State) (m : Fin 40) (n : Nat), s.d2dMod m = 2 ∧ s.d2d.rxTm.next < n ∧ n ∉ s.d2d.rxTm.ahead ∧ s.d2d.rxTm.next ∉ s.d2d.rxTm.ahead ∧ s.passed (SMap.get {} s.d2d.modules m.val).winSince (10000 * cyclesPerUs) = true) ∧
    (∃ (s : State) (m : Fin 40), (s.d2dMod m = 1 ∨ s.d2dMod m = 3)) :=
  ⟨⟨{sUp with pwr := {sUp.pwr with inReset := false}}, 3, 0, false, by decide +kernel⟩,
    ⟨sLate, 3, 2, by decide +kernel⟩,
    ⟨(sLate.setFld .d2d_MOD_STATUS [3] f_d2d_MOD_STATUS_state 3), 3, by decide +kernel⟩⟩

theorem witness_D2dHealthFollowsModulesUp :
    (∃ (s : State) (m : Fin 40), (s.d2dMod m = 1 ∨ s.d2dMod m = 3)) :=
  ⟨(sLate.setFld .d2d_MOD_STATUS [3] f_d2d_MOD_STATUS_state 3), 3, by decide +kernel⟩

end Sys2Proof.Tests.W02

/-! ### Witnesses of part 03 of the statements -/

namespace Sys2Proof.Tests.W03
open Sys2Proof.Tests

def rs0 (r st : Nat) : State := (State.reset.setFld .pci_RING_STATUS [r] f_pci_RING_STATUS_state st).setFld .cpr_PD_STATUS [20] f_cpr_PD_STATUS_state 2
def rs (r st : Nat) : State := {(rs0 r st).setFlag .glb_BOOT_STATUS [] f_glb_BOOT_STATUS_ready true with pwr := {(rs0 r st).pwr with inReset := false}}
def s3 : State := { ((rs 35 2).setFld .pci_RING_CFG [35] f_pci_RING_CFG_coal_timer 1).modRingx 35 (fun x => {x with coal := 2}) with cycle := 5000 }
def pn : Punt := ⟨2, 5, 6, 1, 0, 0, 0, 64, 64, 3, [], [1,2,3], 9, 0⟩
def gd : List Byte := List.replicate 8 0 ++ [0,1,0,0]
def sp : State := { (rs 66 2).setFld .pci_RING_PIDX [66] f_pci_RING_PIDX_pidx 1 with host := { State.reset.host with punts := [pn, pn] } }
def x0 : InjPkt := ⟨5, 0, 1, 0, 7, [], [1,2,3]⟩
def si : State := { (rs 1093 2).setFld .pci_RING_PIDX [1093] f_pci_RING_PIDX_pidx 1 with host := { State.reset.host with injHeld := [x0] } }
def gi : List Byte := List.replicate 8 0 ++ [60,0,1,0,7,0,0,0]

theorem witness_RingIndexWritesAreStoredAndChecked :
    (∃ (s : State), s.barsOpen = false) ∧
    (∃ (s : State) (r : Fin 2112), s.barsOpen = true ∧ hostPosted r = true ∧ 2 ≤ s.ringState r) ∧
    (∃ (s : State) (r : Fin 2112), hostPosted r = true ∧ s.ringState r < 2) ∧
    (∃ (s : State) (r : Fin 2112), s.barsOpen = true ∧ hostPosted r = false ∧ 2 ≤ s.ringState r ∧ ((∀ x, s.tab.report = some x → x.ring < 16))) ∧
    (∃ (s : State) (r : Fin 2112), hostPosted r = false ∧ s.ringState r < 2) :=
  ⟨⟨(rs0 3 2), by decide +kernel⟩,
    ⟨(rs 3 2), 3, by decide +kernel⟩,
    ⟨(rs 3 0), 3, by decide +kernel⟩,
    ⟨(rs 17 2), 17, by decide +kernel⟩,
    ⟨(rs 35 1), 35, by decide +kernel⟩⟩

theorem witness_RingLifecycleCommandsComplete_1 :
    (∃ (s : State) (r : Fin 2112) (v : Word), ringUsed r = true ∧ s.ringState r ≠ 0 ∧ s.barsOpen = true ∧ s.rd .pci_RING_BASE [r] ≠ v &&& f_pci_RING_BASE_base.mask ∧ v &&& ringCfgFixed = s.rd .pci_RING_CFG [r] &&& ringCfgFixed ∧ s.ringState r = 2 ∧ s.flag .pci_RING_STATUS [r] f_pci_RING_STATUS_stop_pending = true ∧ ((∀ x, s.tab.report = some x → x.ring < 16))) ∧
    (∃ (s : State) (r : Fin 2112), ringUsed r = true ∧ s.ringState r = 0 ∧ s.barsOpen = true ∧ s.flag .pci_RING_STATUS [r] f_pci_RING_STATUS_restart_pending = true ∧ s.pdOn 20 = true) ∧
    (∃ (s : State) (r : Fin 2112) (v : Word), ringUsed r = true ∧ s.ringState r ≠ 0 ∧ s.barsOpen = true ∧ v &&& ringCfgFixed ≠ s.rd .pci_RING_CFG [r] &&& ringCfgFixed) ∧
    (∃ (s : State) (r : Fin 2112), ringUsed r = true ∧ s.ringState r = 1) ∧
    (∃ (s : State) (r : Fin 2112), ringUsed r = true ∧ s.ringState r = 3 ∧ s.ringBusy r = false ∧ ((∀ x, s.tab.report = some x → x.ring < 16)) ∧ s.flag .pci_RING_STATUS [r] f_pci_RING_STATUS_restart_pending = false) :=
  ⟨⟨((rs 35 2).setFlag .pci_RING_STATUS [35] f_pci_RING_STATUS_stop_pending true), 35, 0x1800010000E00000, by decide +kernel⟩,
    ⟨((rs 35 0).setFlag .pci_RING_STATUS [35] f_pci_RING_STATUS_restart_pending true), 35, by decide +kernel⟩,
    ⟨(rs 70 2), 70, 0x8000000000001001, by decide +kernel⟩,
    ⟨(rs 35 1), 35, by decide +kernel⟩,
    ⟨(rs 35 3), 35, by decide +kernel⟩⟩

theorem witness_RingLifecycleCommandsComplete_2 :
    (∃ (s : State) (r : Fin 2112), ringUsed r = true ∧ s.ringState r = 3 ∧ s.ringBusy r = false ∧ ((∀ x, s.tab.report = some x → x.ring < 16)) ∧ s.flag .pci_RING_STATUS [r] f_pci_RING_STATUS_restart_pending = true) ∧
    (∃ (s : State) (r : Fin 2112), ringUsed r = true ∧ s.barsOpen = false) :=
  ⟨⟨((rs 35 3).setFlag .pci_RING_STATUS [35] f_pci_RING_STATUS_restart_pending true), 35, by decide +kernel⟩,
    ⟨((rs 70 0).setFlag .glb_BOOT_STATUS [] f_glb_BOOT_STATUS_ready false), 70, by decide +kernel⟩⟩

theorem witness_RingMessagesAndVfRingsComplete :
    (∃ (s : State) (r : Fin 2112) (v : Fin 63) (w : Word), (SMap.get {} s.host.ringx r.val).coal ≠ 0 ∧ s.fld .pci_RING_CFG [r] f_pci_RING_CFG_coal_timer ≠ 0 ∧ s.passed (SMap.get {} s.host.ringx r.val).coalSince (s.fld .pci_RING_CFG [r] f_pci_RING_CFG_coal_timer * cyclesPerUs) = true ∧ s.barsOpen = true ∧ (¬ (s.vfRingsRefused v w = true))) ∧
    (∃ (s : State) (v : Fin 63) (w : Word), s.barsOpen = true ∧ s.vfRingsRefused v w = true) ∧
    (∃ (s : State), s.barsOpen = false) :=
  ⟨⟨s3, 35, 4, 0x000, by decide +kernel⟩,
    ⟨s3, 4, 0xFFFFFFFFFFFFFFFF, by decide +kernel⟩,
    ⟨(rs0 35 1), by decide +kernel⟩⟩

theorem witness_PuntAndInjectComplete :
    (∃ (s : State) (d : List Byte) (i : Nat) (n : Fin 1024) (r : Fin 2112) (x : InjPkt), s.injectRing = some i ∧ s.injectRefused (1088 + i) (padTo 64 d) (if s.flag .pci_RING_CFG [1088 + i] f_pci_RING_CFG_fixed then s.fld .pci_RING_CFG [1088 + i] f_pci_RING_CFG_target else leAt (padTo 64 d) 12 4) true = none ∧ s.host.injHeld.find? (fun x => x.ring == n.val) = some x ∧ s.isFollower = false ∧ s.following = false ∧ s.intakeHeld = false ∧ s.twinState ≠ 1 ∧ ((x.mode = 0 → s.waitFree x.target = true)) ∧ 2 ≤ s.ringState r ∧ s.ringFill r ≠ 0 ∧ 64 ≤ r.val ∧ ((1088 ≤ r.val → (SMap.get {} s.host.ringx r.val).taken = 0))) ∧
    (∃ (s : State) (p : Punt) (rest : List Punt) (d : List Byte), s.host.punts = p :: rest ∧ s.frameState p.frame ≠ 1 ∧ s.puntTaken p = true ∧ badPuntDesc (padTo 64 d) = false ∧ p.ring < 1024) ∧
    (∃ (s : State) (p : Punt) (rest : List Punt), s.host.punts = p :: rest ∧ s.frameState p.frame ≠ 1 ∧ s.puntTaken p = false) ∧
    (∃ (s : State) (d : List Byte) (i : Nat), s.injectRing = some i ∧ s.injectRefused (1088 + i) (padTo 64 d) (if s.flag .pci_RING_CFG [1088 + i] f_pci_RING_CFG_fixed then s.fld .pci_RING_CFG [1088 + i] f_pci_RING_CFG_target else leAt (padTo 64 d) 12 4) true ≠ none) :=
  ⟨⟨si, gi, 5, 5, 1093, x0, by decide +kernel⟩,
    ⟨sp, pn, [pn], gd, by decide +kernel⟩,
    ⟨{sp with regs := []}, pn, [pn], by decide +kernel⟩,
    ⟨si, gd, 5, by decide +kernel⟩⟩

end Sys2Proof.Tests.W03

/-! ### Witnesses of part 04 of the statements -/

namespace Sys2Proof.Tests.W04
open Sys2Proof.Tests

def fr : List Byte := List.replicate 60 1
def f0 : RxFrame := { fid := 7, bytes := fr, raw := fr, size := 64, cls := 0, ts := 4 }
def onp (f : PortX → PortX) : State := on.modPort 0 f
def fc : State := (on.setFlag .lmac_PORT_FC [0] f_lmac_PORT_FC_rx_en true).setFld .lmac_PORT_FC [0] f_lmac_PORT_FC_quanta 100
def fcp (f : PortX → PortX) : State := fc.modPort 0 f
def inF : State := onp fun x => { x with rx := [{ f0 with ended := true }] }
def oe : OrdEntry := { domain := 4, seq := 9, done := true, outs := [{ seq := 9, bytes := [1], queue := 3, dp := 0, ts := 0 }] }
def oe2 : OrdEntry := { domain := 4, seq := 9, since := some 0 }
def lk : Lookup := { id := 3, rau := false, slot := 0, seq := 9, table := 0, key := [1] }
def dqs : State := { on with fpc := { on.fpc with dispq := [(0, [pkt 9, pkt 10])], inq := [(1, [pkt 11])], lookups := [{ lk with dest := some (0, 0, 2) }] } }
def busy : State := (((dqs.setFld .fpc_CL_STATUS [1] f_fpc_CL_STATUS_state 2).setFld .fpc_CL_STATUS [1] f_fpc_CL_STATUS_present 1).wr .fpc_ROSTER [1,0] 0x98)
def wt : State := (busy.modTh 1 0 fun x => { x with state := 3, waitKind := 2, waitLine := 5 })

theorem witness_LineReceiveCommandsComplete :
    (∃ (s : State) (m : Fin 256) (q : Nat) (c : Fin 9) (rest : List PauseReq), s.portOn m = true ∧ s.flag .lmac_PORT_STATUS [m] f_lmac_PORT_STATUS_link_up = true ∧ ((s.port m).rx).all (·.ended) = true ∧ s.flag .lmac_MSEC_CFG [m] f_lmac_MSEC_CFG_enable = false ∧ s.txXoff m c = true ∧ s.fld .lmac_PORT_FC [m] f_lmac_PORT_FC_fc_mode = (if c.val = 8 then 1 else 2) ∧ (c.val = 8 ∨ bitOf (s.fld .lmac_PORT_FC [m] f_lmac_PORT_FC_tx_class_en) c.val = true) ∧ (s.port m).pauseQ = [] ∧ s.passed (SMap.get 0 (s.port m).pauseSent c.val) (s.pauseTicks m (s.fld .lmac_PORT_FC [m] f_lmac_PORT_FC_quanta) / 2) = true ∧ (s.port m).reports = .pause q :: rest ∧ s.flag .lmac_PORT_FC [m] f_lmac_PORT_FC_rx_en = true) ∧
    (∃ (s : State) (m : Fin 256) (en : Nat) (qs : List Nat) (c : Fin 9) (rest : List PauseReq), (s.port m).reports = .pfc en qs :: rest ∧ s.flag .lmac_PORT_FC [m] f_lmac_PORT_FC_rx_en = true ∧ SMap.get 0 (s.port m).pausedUntil c.val ≠ 0 ∧ SMap.get 0 (s.port m).pausedUntil c.val ≤ s.cycle) ∧
    (∃ (s : State) (m : Fin 256) (f : RxFrame), (s.port m).rx.find? (fun f => !f.ended) = some f) ∧
    (∃ (s : State) (m : Fin 256) (q : Nat) (rest : List PauseReq), (s.port m).reports = .pause q :: rest ∧ s.flag .lmac_PORT_FC [m] f_lmac_PORT_FC_rx_en = false) :=
  ⟨⟨((((fcp fun x => { x with reports := [.pause 5] }).setXoff 0 8 true).setFld .lmac_PORT_FC [0] f_lmac_PORT_FC_fc_mode 1)), 0, 5, 8, [], by decide +kernel⟩,
    ⟨((fcp fun x => { x with reports := [.pfc 3 [5,6,7]], pausedUntil := [(1, 7)] })), 0, 3, [5,6,7], 1, [], by decide +kernel⟩,
    ⟨(onp fun x => { x with rx := [f0] }), 0, f0, by decide +kernel⟩,
    ⟨((onp fun x => { x with reports := [.pause 5] })), 0, 5, [], by decide +kernel⟩⟩

theorem witness_ParserEntryCommandsComplete :
    (∃ (s : State) (m : Fin 256) (beats : Nat) (f : RxFrame), s.following = false ∧ s.intakeHeld = false ∧ s.waitFree m = true ∧ s.pipeHeld (m.val / 16) = false ∧ s.twinState ≠ 1 ∧ s.nextFrame m = some f ∧ (f.ended = true ∨ (1 ≤ beats ∧ 64 < f.bytes.length))) ∧
    (∃ (s : State) (m : Fin 256) (p : Pkt) (w : Walk), SMap.get none s.fpc.waits m.val = some (p, w) ∧ p.mac = m.val) :=
  ⟨⟨inF, 0, 1, { f0 with ended := true }, by decide +kernel⟩,
    ⟨({ inF with fpc := { inF.fpc with badNodes := [(5, 0xFFFF), (1029, 0xF)], waits := SMap.put none [] 0 (some (pkt 9, { node := 0, final := 0 })) } }), 0, (pkt 9), { node := 0, final := 0 }, by decide +kernel⟩⟩

theorem witness_OrderKeeperCommandsComplete :
    (∃ (s : State) (pipe : Fin 16) (p : Pkt) (rest : List Pkt) (domain : Fin 4096) (e : OrdEntry), SMap.get [] s.fpc.stage pipe.val = p :: rest ∧ s.outstanding < 65536 ∧ releasable domain s.fpc.order = some e) ∧
    (∃ (s : State) (domain : Fin 4096) (e : OrdEntry) (since : Nat), s.fpc.order.find? (fun e => e.domain == domain.val && !e.skipped) = some e ∧ e.since = some since ∧ e.done = false ∧ s.fld .dsp_OK_CFG [] f_dsp_OK_CFG_skip_timeout ≠ 0 ∧ s.passed since (s.fld .dsp_OK_CFG [] f_dsp_OK_CFG_skip_timeout * 1024 + 1) = true) :=
  ⟨⟨({ on with fpc := { on.fpc with stage := [(0, [pkt 9, pkt 10])], order := [oe] } }), 0, (pkt 9), [pkt 10], 4, oe, by decide +kernel⟩,
    ⟨((({ on with fpc := { on.fpc with stage := [(0, [pkt 9, pkt 10])], order := [oe2, { oe with seq := 10 }] } } : State)).setFld .dsp_OK_CFG [] f_dsp_OK_CFG_skip_timeout 2), 4, oe2, 0, by decide +kernel⟩⟩

theorem witness_DispatchCommandsComplete :
    (∃ (s : State) (pipe : Fin 16) (c : Fin 32) (c' : Nat) (th : Nat) (ovr : Bool) (p : Pkt) (rest : List Pkt) (id : Nat) (x : Lookup) (l : Nat) (k : Fin 16) (w : Word), SMap.get [] s.fpc.dispq pipe.val = p :: rest ∧ s.chooseCluster p.seq p.hDisp = some (c', ovr) ∧ (s.queueOf c').length < 64 ∧ s.fpc.lookups.find? (fun x => x.id == id && x.result.isNone) = some x ∧ x.squashed = false ∧ x.dest = some (c', th, l) ∧ (List.range 8).any (fun i => ((s.th c (k.val * 8 + i)).state != 0 || s.isResident c (k.val * 8 + i)) && !onRoster w i) = false) ∧
    (∃ (s : State) (c : Fin 32) (th : Nat) (line : BitVec 27) (k : Fin 16) (w : Word), (List.range 128).any (fun i => (s.th c i).eff == 3 && (s.th c i).waitKind == 2 && (s.th c i).waitLine == line.toNat) = true ∧ (List.range 8).any (fun i => ((s.th c (k.val * 8 + i)).state != 0 || s.isResident c (k.val * 8 + i)) && !onRoster w i) = true) ∧
    (∃ (s : State) (c : Fin 32) (th : Nat) (p : Pkt) (rest : List Pkt), s.queueOf c = p :: rest ∧ s.chooseThread c = some th) ∧
    (∃ (s : State) (id : Nat) (x : Lookup), s.fpc.lookups.find? (fun x => x.id == id && x.result.isNone) = some x ∧ x.squashed = false ∧ x.dest = none) ∧
    (∃ (s : State) (id : Nat) (x : Lookup), s.fpc.lookups.find? (fun x => x.id == id && x.result.isNone) = some x ∧ x.squashed = true) :=
  ⟨⟨dqs, 0, 0, 0, 0, false, (pkt 9), [pkt 10], 3, { lk with dest := some (0, 0, 2) }, 2, 0, 0x8, by decide +kernel⟩,
    ⟨wt, 1, 0, 5, 0, 0x0, by decide +kernel⟩,
    ⟨busy, 1, 0, (pkt 11), [], by decide +kernel⟩,
    ⟨{ wt with fpc := { wt.fpc with lookups := [lk] } }, 3, lk, by decide +kernel⟩,
    ⟨{ wt with fpc := { wt.fpc with lookups := [{ lk with squashed := true}] } }, 3, { lk with squashed := true }, by decide +kernel⟩⟩

end Sys2Proof.Tests.W04

/-! ### Witnesses of part 05 of the statements -/

namespace Sys2Proof.Tests.W05
open Sys2Proof.Tests

def run (a b : Word) : State := on.modTh 0 0 fun x => { x with state := 2, pc := 5, g := [(1, a), (2, b), (3, 0x123456789abcdef0)] }

theorem witness_ArithmeticInstructionsWriteTheirResults :
    (∃ (s : State) (c : Fin 32) (th : Fin 128) (ra : BitVec 5) (rb : BitVec 5) (a : Word) (b : Word), s.running c th ∧ (s.th c th).gr ra = a ∧ (s.th c th).gr rb = b) :=
  ⟨(run 0xFFFFFFFFFFFFFFF3 0x8000000000000005), 0, 0, 1, 2, 0xFFFFFFFFFFFFFFF3, 0x8000000000000005, by unfold State.running; decide +kernel⟩

theorem witness_ImmediateAndFieldInstructionsWriteTheirResults :
    (∃ (s : State) (c : Fin 32) (th : Fin 128) (rd : BitVec 5) (ra : BitVec 5) (a : Word) (d : Word) (pos : BitVec 6) (wm1 : BitVec 6), s.running c th ∧ (s.th c th).gr ra = a ∧ (s.th c th).gr rd = d ∧ pos.toNat + wm1.toNat ≤ 63 ∧ rd ≠ 0) ∧
    (∃ (s : State) (c : Fin 32) (th : Fin 128) (rd : BitVec 5) (ra : BitVec 5) (a : Word) (d : Word) (pos : BitVec 6) (wm1 : BitVec 6), s.running c th ∧ (s.th c th).gr ra = a ∧ (s.th c th).gr rd = d ∧ 63 < pos.toNat + wm1.toNat) :=
  ⟨⟨(run 0x80000000FEDC0043 9), 0, 0, 1, 1, 0x80000000FEDC0043, 0x80000000FEDC0043, 7, 8, by unfold State.running; decide +kernel⟩,
    ⟨(run 0x80000000FEDC0043 9), 0, 0, 3, 1, 0x80000000FEDC0043, 0x123456789abcdef0, 61, 3, by unfold State.running; decide +kernel⟩⟩

theorem witness_BranchInstructionsMoveThePc :
    (∃ (s : State) (c : Fin 32) (th : Fin 128) (ra : BitVec 5) (rb : BitVec 5) (a : Word) (b : Word), s.running c th ∧ (s.th c th).gr ra = a ∧ (s.th c th).gr rb = b) :=
  ⟨(run 0x80000000FEDC0043 9), 0, 0, 1, 2, 0x80000000FEDC0043, 9, by unfold State.running; decide +kernel⟩

end Sys2Proof.Tests.W05

/-! ### Witnesses of part 06 of the statements -/

namespace Sys2Proof.Tests.W06
open Sys2Proof.Tests

def run (a b : Word) : State := on.modTh 0 0 fun x => { x with state := 2, pc := 5, pkt := some (pkt 3), g := [(1, a), (2, b), (3, 0x123456789abcdef0)], kb := (List.range 128).map fun i => BitVec.ofNat 8 (i+3) }
def lw : State := (run 0 0).modTh 0 0 fun x => { x with l := [(2, { waited := true, result := some { status := 1, data := 0x123456789abcdef0aabbccddee } })] }
def prep (s : State) : State := {s with fpc := {s.fpc with shared := s.fpc.shared.writeBytes 0 [1,2,3,0xF4,5,6,7,0x88,9,10]}}
def dj : DmaJob := { cluster := 0, thread := 0, src := 0x100000, dst := 0x200000000, blocks := 1, isFlag := true, obj := 0}
def dst (n : Nat) : State := 
  let s := prep (run 0x100000 0x200000000)
  let s := s.modTh 0 0 fun x => { x with g := x.g ++ [(4, 0x10001)]}
  let s := (s.setFld .fpc_EVT_CFG [0,0] f_fpc_EVT_CFG_enable 1).setFld .fpc_EVT_CFG [0,0] f_fpc_EVT_CFG_ext_kind 2
  {s with fpc := {s.fpc with dmas := List.replicate n dj}}
def rsd (s : State) : State := s.setFld .fpc_RESIDENT [0,0] ⟨0,1⟩ 1
def rsv (s : State) : State := s.modTh 0 0 fun x => {x with resv := [{cluster := 0, chan := 0, slot := 0}]}
def cch (s : State) : State := {s with fpc := {s.fpc with dcache := [(0, (List.range 64).map fun i => BitVec.ofNat 8 (i+0x81))]}}
def hbmon (s : State) : State := (List.range 256).foldl (fun s i => s.setFld .fe_hmc_CH_STATUS [i] ⟨0,2⟩ 2) s
def dcc (n : Nat) : State := ((dst n).setFld .fpc_CHAN_CFG [0,0] f_fpc_CHAN_CFG_enable 1).setFld .fpc_CHAN_CFG [0,0] f_fpc_CHAN_CFG_ext_kind 2
def djc : DmaJob := {dj with isFlag := false}
def wd (l : List DmaJob) (s : State) : State := {s with fpc := {s.fpc with dmas := l}}

theorem witness_HeaderAndMetadataInstructionsComplete :
    (∃ (s : State) (c : Fin 32) (th : Fin 128) (ra : BitVec 5) (off : BitVec 9) (size : BitVec 2) (idx : BitVec 6) (l : BitVec 3) (o : Nat) (n : Nat), s.running c th ∧ n = 2 ^ size.toNat ∧ o = ((s.th c th).gr ra).toNat % 512 + off.toNat ∧ s.isResident c th = false ∧ o + n ≤ 384 ∧ idx = 33 ∧ ((s.th c th).lreg l.toNat).waited = false) ∧
    (∃ (s : State) (c : Fin 32) (th : Fin 128) (ra : BitVec 5) (off : BitVec 9) (size : BitVec 2) (idx : BitVec 6) (o : Nat) (n : Nat), s.running c th ∧ n = 2 ^ size.toNat ∧ o = ((s.th c th).gr ra).toNat % 512 + off.toNat ∧ s.isResident c th = false ∧ 384 < o + n ∧ 48 ≤ idx.toNat) ∧
    (∃ (s : State) (c : Fin 32) (th : Fin 128) (ra : BitVec 5) (off : BitVec 9) (size : BitVec 2) (idx : BitVec 6) (l : BitVec 3) (o : Nat) (n : Nat) (r : LkResult), s.running c th ∧ n = 2 ^ size.toNat ∧ o = ((s.th c th).gr ra).toNat % 512 + off.toNat ∧ s.isResident c th = false ∧ idx.toNat < 48 ∧ idx ≠ 32 ∧ idx ≠ 33 ∧ ((s.th c th).lreg l.toNat).waited = true ∧ ((s.th c th).lreg l.toNat).result = some r) ∧
    (∃ (s : State) (c : Fin 32) (th : Fin 128) (ra : BitVec 5) (off : BitVec 9) (size : BitVec 2) (idx : BitVec 6) (o : Nat) (n : Nat), s.running c th ∧ n = 2 ^ size.toNat ∧ o = ((s.th c th).gr ra).toNat % 512 + off.toNat ∧ s.isResident c th = false ∧ idx = 32) ∧
    (∃ (s : State) (c : Fin 32) (th : Fin 128) (ra : BitVec 5) (off : BitVec 9) (size : BitVec 2) (o : Nat) (n : Nat), s.running c th ∧ n = 2 ^ size.toNat ∧ o = ((s.th c th).gr ra).toNat % 512 + off.toNat ∧ s.isResident c th = true) :=
  ⟨⟨(run 10 0x8000000000000005), 0, 0, 1, 6, 2, 33, 2, 16, 4, by unfold State.running; decide +kernel⟩,
    ⟨(run 510 0x8000000000000005), 0, 0, 1, 6, 2, 50, 516, 4, by unfold State.running; decide +kernel⟩,
    ⟨lw, 0, 0, 1, 6, 3, 1, 2, 6, 8, { status := 1, data := 0x123456789abcdef0aabbccddee }, by unfold State.running; decide +kernel⟩,
    ⟨(run 370 0x8000000000000005), 0, 0, 1, 6, 3, 32, 376, 8, by unfold State.running; decide +kernel⟩,
    ⟨(rsd lw), 0, 0, 1, 6, 3, 6, 8, by unfold State.running; decide +kernel⟩⟩

theorem witness_LoadAndStoreInstructionsComplete_1 :
    (∃ (s : State) (c : Fin 32) (th : Fin 128) (ra : BitVec 5) (off : BitVec 12) (size : BitVec 2) (a : Nat) (n : Nat), s.running c th ∧ n = 2 ^ size.toNat ∧ a = ((s.th c th).gr ra + off.signExtend 64).toNat ∧ 0x100000 ≤ a ∧ a + n ≤ 0x200000 ∧ a % n = 0 ∧ s.sharedBad c (a - 0x100000) = false) ∧
    (∃ (s : State) (c : Fin 32) (th : Fin 128) (ra : BitVec 5) (off : BitVec 12) (size : BitVec 2) (a : Nat) (n : Nat), s.running c th ∧ n = 2 ^ size.toNat ∧ a = ((s.th c th).gr ra + off.signExtend 64).toNat ∧ 0x40000 ≤ a ∧ a + n ≤ 0x60000 ∧ a % 64 + n ≤ 64 ∧ (s.th c th).resvOf c ((a - 0x40000) / 2048) (a % 2048 / 64) = none) ∧
    (∃ (s : State) (c : Fin 32) (th : Fin 128) (ra : BitVec 5) (off : BitVec 12) (size : BitVec 2) (a : Nat) (n : Nat), s.running c th ∧ n = 2 ^ size.toNat ∧ a = ((s.th c th).gr ra + off.signExtend 64).toNat ∧ 0x200000000 ≤ a ∧ a + n ≤ 0x400000000 ∧ a % n = 0 ∧ s.cachedLine c ((a - 0x200000000) / 64) = none ∧ s.windowOk (a - 0x200000000) = true) ∧
    (∃ (s : State) (c : Fin 32) (th : Fin 128) (ra : BitVec 5) (off : BitVec 12) (size : BitVec 2) (a : Nat) (n : Nat), s.running c th ∧ n = 2 ^ size.toNat ∧ a = ((s.th c th).gr ra + off.signExtend 64).toNat ∧ a + n ≤ 0x200) ∧
    (∃ (s : State) (c : Fin 32) (th : Fin 128) (ra : BitVec 5) (off : BitVec 12) (size : BitVec 2) (a : Nat) (n : Nat), s.running c th ∧ n = 2 ^ size.toNat ∧ a = ((s.th c th).gr ra + off.signExtend 64).toNat ∧ 0x1000 ≤ a ∧ a + n ≤ 0x1080) :=
  ⟨⟨(prep (run 0x100000 0x8000000000000005)), 0, 0, 1, 0x4, 2, 0x100004, 4, by unfold State.running; decide +kernel⟩,
    ⟨(prep (run 0x40000 0x8000000000000005)), 0, 0, 1, 0x4, 2, 0x40004, 4, by unfold State.running; decide +kernel⟩,
    ⟨(hbmon (run 0x200000000 0x8000000000000005)), 0, 0, 1, 0x4, 2, 0x200000004, 4, by unfold State.running; decide +kernel⟩,
    ⟨(run 0x1f0 0x8000000000000005), 0, 0, 1, 8, 3, 0x1f8, 8, by unfold State.running; decide +kernel⟩,
    ⟨(run 0x1000 0x8000000000000005), 0, 0, 1, 0x78, 3, 0x1078, 8, by unfold State.running; decide +kernel⟩⟩

theorem witness_LoadAndStoreInstructionsComplete_2 :
    (∃ (s : State) (c : Fin 32) (th : Fin 128) (ra : BitVec 5) (off : BitVec 12) (size : BitVec 2) (a : Nat) (n : Nat), s.running c th ∧ n = 2 ^ size.toNat ∧ a = ((s.th c th).gr ra + off.signExtend 64).toNat ∧ 0x1100 ≤ a ∧ a + n ≤ 0x1180 ∧ s.isResident c th = false) ∧
    (∃ (s : State) (c : Fin 32) (th : Fin 128) (ra : BitVec 5) (off : BitVec 12) (size : BitVec 2) (a : Nat) (n : Nat), s.running c th ∧ n = 2 ^ size.toNat ∧ a = ((s.th c th).gr ra + off.signExtend 64).toNat ∧ ((0x100000 ≤ a ∧ a + n ≤ 0x200000) ∨ (0x200000000 ≤ a ∧ a + n ≤ 0x400000000)) ∧ a % n ≠ 0) ∧
    (∃ (s : State) (c : Fin 32) (th : Fin 128) (ra : BitVec 5) (off : BitVec 12) (size : BitVec 2) (a : Nat) (n : Nat), s.running c th ∧ n = 2 ^ size.toNat ∧ a = ((s.th c th).gr ra + off.signExtend 64).toNat ∧ 0x400000000 ≤ a) ∧
    (∃ (s : State) (c : Fin 32) (th : Fin 128) (ra : BitVec 5) (off : BitVec 12) (size : BitVec 2) (a : Nat) (n : Nat), s.running c th ∧ n = 2 ^ size.toNat ∧ a = ((s.th c th).gr ra + off.signExtend 64).toNat ∧ 0x40000 ≤ a ∧ a + n ≤ 0x60000 ∧ a % 64 + n ≤ 64 ∧ ((s.th c th).resvOf c ((a - 0x40000) / 2048) (a % 2048 / 64)).any (fun r => !r.released && !r.committed) = true) ∧
    (∃ (s : State) (c : Fin 32) (th : Fin 128) (ra : BitVec 5) (off : BitVec 12) (size : BitVec 2) (a : Nat) (n : Nat) (line : List Byte), s.running c th ∧ n = 2 ^ size.toNat ∧ a = ((s.th c th).gr ra + off.signExtend 64).toNat ∧ 0x200000000 ≤ a ∧ a + n ≤ 0x400000000 ∧ a % n = 0 ∧ s.cachedLine c ((a - 0x200000000) / 64) = some line) :=
  ⟨⟨(run 0x1100 0x8000000000000005), 0, 0, 1, 0x7F, 0, 0x117f, 1, by unfold State.running; decide +kernel⟩,
    ⟨(prep (run 0x100000 0x8000000000000005)), 0, 0, 1, 0x3, 2, 0x100003, 4, by unfold State.running; decide +kernel⟩,
    ⟨(prep (run 0xFFFFFFFFFFFFFFFF 0x8000000000000005)), 0, 0, 1, 0x0, 3, 0xFFFFFFFFFFFFFFFF, 8, by unfold State.running; decide +kernel⟩,
    ⟨(rsv (run 0x40000 0x8000000000000005)), 0, 0, 1, 0x4, 2, 0x40004, 4, by unfold State.running; decide +kernel⟩,
    ⟨(cch (run 0x200000000 0x8000000000000005)), 0, 0, 1, 0x4, 2, 0x200000004, 4, ((List.range 64).map fun i => BitVec.ofNat 8 (i+0x81)), by unfold State.running; decide +kernel⟩⟩

theorem witness_AtomicInstructionsComplete :
    (∃ (s : State) (c : Fin 32) (th : Fin 128) (rd : BitVec 5) (ra : BitVec 5) (rb : BitVec 5) (a : Nat) (old : Word) (b : Word) (d : Word), s.running c th ∧ a = ((s.th c th).gr ra).toNat ∧ b = (s.th c th).gr rb ∧ d = (s.th c th).gr rd ∧ old = BitVec.ofNat 64 (leNat (s.fpc.shared.readBytes (c.val * 2 ^ 20 + (a - 0x100000)) 8)) ∧ 0x100000 ≤ a ∧ a + 8 ≤ 0x200000 ∧ a % 8 = 0 ∧ s.sharedBad c (a - 0x100000) = false) ∧
    (∃ (s : State) (c : Fin 32) (th : Fin 128) (rd : BitVec 5) (ra : BitVec 5) (rb : BitVec 5) (a : Nat) (old : Word) (b : Word) (d : Word), s.running c th ∧ a = ((s.th c th).gr ra).toNat ∧ b = (s.th c th).gr rb ∧ d = (s.th c th).gr rd ∧ old = BitVec.ofNat 64 (leNat (s.fpc.shared.readBytes (c.val * 2 ^ 20 + (a - 0x100000)) 8)) ∧ 0x100000 ≤ a ∧ a + 8 ≤ 0x200000 ∧ a % 8 ≠ 0) ∧
    (∃ (s : State) (c : Fin 32) (th : Fin 128) (rd : BitVec 5) (ra : BitVec 5) (rb : BitVec 5) (a : Nat) (old : Word) (b : Word) (d : Word), s.running c th ∧ a = ((s.th c th).gr ra).toNat ∧ b = (s.th c th).gr rb ∧ d = (s.th c th).gr rd ∧ old = BitVec.ofNat 64 (leNat (s.fpc.shared.readBytes (c.val * 2 ^ 20 + (a - 0x100000)) 8)) ∧ (a < 0x40000 ∨ 0x400000000 ≤ a)) :=
  ⟨⟨(prep (run 0x100000 0x8000000000000005)), 0, 0, 3, 1, 2, 0x100000, 0x88070605f4030201, 0x8000000000000005, 0x123456789abcdef0, by unfold State.running; decide +kernel⟩,
    ⟨(prep (run 0x100004 0x8000000000000005)), 0, 0, 3, 1, 2, 0x100004, 0x00000a0988070605, 0x8000000000000005, 0x123456789abcdef0, by unfold State.running; decide +kernel⟩,
    ⟨(prep (run 0x4 0x8000000000000005)), 0, 0, 3, 1, 2, 0x4, 0x88070605f4030201, 0x8000000000000005, 0x123456789abcdef0, by unfold State.running; decide +kernel⟩⟩

theorem witness_FenceCacheAndDmaInstructionsComplete :
    (∃ (s : State) (c : Fin 32) (th : Fin 128) (ra : BitVec 5) (rb : BitVec 5) (rc : BitVec 5) (a : Nat) (b : Nat) (r : Nat) (d : DmaJob) (err : DmaError) (id : Nat), s.running c th ∧ a = ((s.th c th).gr ra).toNat ∧ b = ((s.th c th).gr rb).toNat ∧ r = ((s.th c th).gr rc).toNat ∧ (a < 0x200000000 ∨ 0x400000000 ≤ a) ∧ dmaSpans a b (64 * (r % 1024)) ∧ a % 64 = 0 ∧ b % 64 = 0 ∧ 0 < r % 1024 ∧ ((bitOf r 16 = true ∧ r / 1024 % 64 < 32 ∧ f_fpc_EVT_CFG_enable.get (s.rd .fpc_EVT_CFG [c.val, r / 1024 % 64]) = 1 ∧ f_fpc_EVT_CFG_ext_kind.get (s.rd .fpc_EVT_CFG [c.val, r / 1024 % 64]) = 2) ∨ (bitOf r 16 = false ∧ f_fpc_CHAN_CFG_enable.get (s.rd .fpc_CHAN_CFG [c.val, r / 1024 % 64]) = 1 ∧ f_fpc_CHAN_CFG_ext_kind.get (s.rd .fpc_CHAN_CFG [c.val, r / 1024 % 64]) = 2)) ∧ (s.fpc.dmas.filter fun d => d.cluster == c.val && d.thread == th.val).length < 4 ∧ s.fpc.dmas[id]? = some d ∧ d.isFlag = true ∧ d.obj < 32 ∧ s.threadsListed ∧ d.finished = none ∧ err = .clean ∧ 0 < d.blocks ∧ dmaSpans d.src d.dst (64 * d.blocks) ∧ s.dmaBad d.cluster d.src (64 * d.blocks) = false ∧ s.dmaReach d.cluster d.src (64 * d.blocks) = true ∧ s.dmaReach d.cluster d.dst (64 * d.blocks) = true) ∧
    (∃ (s : State) (c : Fin 32) (th : Fin 128) (ra : BitVec 5) (rb : BitVec 5) (rc : BitVec 5) (a : Nat) (b : Nat) (r : Nat) (d : DmaJob) (err : DmaError) (id : Nat) (st : Nat), s.running c th ∧ a = ((s.th c th).gr ra).toNat ∧ b = ((s.th c th).gr rb).toNat ∧ r = ((s.th c th).gr rc).toNat ∧ 0x200000000 ≤ a ∧ a < 0x400000000 ∧ s.fpc.dmas[id]? = some d ∧ d.isFlag = false ∧ d.obj < 64 ∧ s.chanUsed d.cluster d.obj + s.awarded 4 d.obj d.cluster < 32 ∧ s.chanTail d.cluster d.obj < 32 ∧ (d.finished = some st ∨ (d.finished = none ∧ err = .clean ∧ dmaSpans d.src d.dst (64 * d.blocks) ∧ 0 < d.blocks ∧ s.dmaReach d.cluster d.src (64 * d.blocks) = true ∧ s.dmaReach d.cluster d.dst (64 * d.blocks) = true ∧ s.dmaBad d.cluster d.src (64 * d.blocks) = false ∧ st = 0))) ∧
    (∃ (s : State) (c : Fin 32) (th : Fin 128) (ra : BitVec 5) (rb : BitVec 5) (rc : BitVec 5) (a : Nat) (b : Nat) (r : Nat) (d : DmaJob), s.running c th ∧ a = ((s.th c th).gr ra).toNat ∧ b = ((s.th c th).gr rb).toNat ∧ r = ((s.th c th).gr rc).toNat ∧ dmaSpans a b (64 * (r % 1024)) ∧ a % 64 = 0 ∧ b % 64 = 0 ∧ 0 < r % 1024 ∧ ((bitOf r 16 = true ∧ r / 1024 % 64 < 32 ∧ f_fpc_EVT_CFG_enable.get (s.rd .fpc_EVT_CFG [c.val, r / 1024 % 64]) = 1 ∧ f_fpc_EVT_CFG_ext_kind.get (s.rd .fpc_EVT_CFG [c.val, r / 1024 % 64]) = 2) ∨ (bitOf r 16 = false ∧ f_fpc_CHAN_CFG_enable.get (s.rd .fpc_CHAN_CFG [c.val, r / 1024 % 64]) = 1 ∧ f_fpc_CHAN_CFG_ext_kind.get (s.rd .fpc_CHAN_CFG [c.val, r / 1024 % 64]) = 2)) ∧ (¬ ((s.fpc.dmas.filter fun d => d.cluster == c.val && d.thread == th.val).length < 4))) :=
  ⟨⟨(hbmon (dst 1)), 0, 0, 1, 2, 4, 0x100000, 0x200000000, 0x10001, dj, .clean, 0, by unfold State.running State.threadsListed dmaSpans; decide +kernel⟩,
    ⟨(hbmon (wd [djc] (dcc 1))), 0, 0, 2, 2, 4, 0x200000000, 0x200000000, 0x10001, djc, .clean, 0, 0, by unfold State.running dmaSpans; decide +kernel⟩,
    ⟨(dst 4), 0, 0, 1, 2, 4, 0x100000, 0x200000000, 0x10001, dj, by unfold State.running dmaSpans; decide +kernel⟩⟩

end Sys2Proof.Tests.W06

/-! ### Witnesses of part 07 of the statements -/

namespace Sys2Proof.Tests.W07
open Sys2Proof.Tests

def G : Word := 0x9E3779B97F4A7C15
def Z1 : Word := (G ^^^ (G >>> 30)) * 0xBF58476D1CE4E5B9
def Z2 : Word := (Z1 ^^^ (Z1 >>> 27)) * 0x94D049BB133111EB
def run0 (g : List (Nat × Word)) (p : Option Pkt) : State := on.modTh 0 0 fun x => { x with state := 2, pc := 5, pkt := p, g, kb := (List.range 128).map fun i => BitVec.ofNat 8 (i+3) }
def rn (p : Option Pkt) : State := (run0 [(1,10)] p)
def lkd (s : State) := (s.setFld .rau_TBL_DIR [3] f_rau_TBL_DIR_key_len_m1 8).setFld .rau_TBL_DIR [3] f_rau_TBL_DIR_valid 1
def wl (s : State) (l : LReg) : State := s.modTh 0 0 fun x => { x with l := [(2,l)] }
def ch (s : State) := s.setFld .fpc_CHAN_CFG [0,7] f_fpc_CHAN_CFG_enable 1
def used (s : State) (n : Nat) := s.setFld .fpc_CHAN_STATUS [0,7] f_fpc_CHAN_STATUS_occupied n
def resv4 (s : State) (n : Nat) : State := s.modTh 0 0 fun x => {x with resv := (List.range n).map fun i => {cluster := 0, chan := 7, slot := i}}
def ev (s : State) := s.setFld .fpc_EVT_CFG [0,7] f_fpc_EVT_CFG_enable 1
def evr (s : State) := ((ev s).setFld .fpc_EVT_CFG [0,7] f_fpc_EVT_CFG_ext_kind 3)
def wt (s : State) : State := s.modTh 0 9 fun x => { x with state := 3, waitKind := 5, waitObj := 7, waitLine := 0 }
def rmt (s : State) (o : RemoteOp) : State := {s with fpc := {s.fpc with remote := [o]}}
def perm (s : State) (n : Nat) : State := {s.setFld .skp_PERM [1] f_skp_PERM_score 1 with cnt := {s.cnt with sweepPage := [(10, 77)]}}
def resd (s : State) : State := s.setFld .fpc_RESIDENT [0,0] ⟨0,1⟩ 1
def df (s : State) (n : Nat) : State := s.modTh 0 0 fun x => {x with deferred := List.replicate n (.charge 1 2)}
def mir (s : State) (n : Nat) : State := s.modTh 0 0 fun x => {x with mirrors := List.replicate n {seq := 0, fid := 0, inMac := 0, ts := 0, bytes := [], queue := 1, dp := 0}}
def pk (s : State) (m : SMap (BitVec 32)) : State := s.modTh 0 0 fun x => {x with m }
def cr (s : State) : State := s.setFld .fe_hmc_REGION [4] f_fe_hmc_REGION_size 1
def pe (s : State) : State := s.setFlag .tm_hmc_CARVE [] f_tm_hmc_CARVE_pol_en true

theorem witness_LookupInstructionsComplete :
    (∃ (s : State) (c : Fin 32) (th : Fin 128) (l : BitVec 3) (table : BitVec 8) (ks : Bool) (koff : BitVec 7) (len : Nat) (start : Nat) (space : Nat), s.running c th ∧ start = (if ks then koff.toNat else 4 * koff.toNat) ∧ space = (if ks then 128 else 512) ∧ s.tableKeyLen table.toNat = some len ∧ start + len ≤ space ∧ ((s.th c th).lreg l.toNat).issued = false ∧ (s.th c th).pkt = none) ∧
    (∃ (s : State) (c : Fin 32) (th : Fin 128) (l : BitVec 3) (table : BitVec 8) (ks : Bool) (koff : BitVec 7) (len : Nat) (start : Nat) (space : Nat), s.running c th ∧ start = (if ks then koff.toNat else 4 * koff.toNat) ∧ space = (if ks then 128 else 512) ∧ s.tableKeyLen table.toNat = some len ∧ start + len ≤ space ∧ ((s.th c th).lreg l.toNat).issued = true ∧ ((s.th c th).lreg l.toNat).waited = false ∧ ((s.th c th).lreg l.toNat).result = none) ∧
    (∃ (s : State) (c : Fin 32) (th : Fin 128) (table : BitVec 8) (ks : Bool) (koff : BitVec 7) (len : Nat) (start : Nat) (space : Nat), s.running c th ∧ start = (if ks then koff.toNat else 4 * koff.toNat) ∧ space = (if ks then 128 else 512) ∧ (s.tableKeyLen table.toNat = none ∨ (s.tableKeyLen table.toNat = some len ∧ space < start + len))) ∧
    (∃ (s : State) (c : Fin 32) (th : Fin 128) (l : BitVec 3) (ks : Bool) (koff : BitVec 7) (start : Nat) (space : Nat) (r : LkResult), s.running c th ∧ start = (if ks then koff.toNat else 4 * koff.toNat) ∧ space = (if ks then 128 else 512) ∧ ((s.th c th).lreg l.toNat).issued = true ∧ ((s.th c th).lreg l.toNat).result = some r) :=
  ⟨⟨(lkd (rn none)), 0, 0, 2, 3, true, 4, 9, 4, 128, by unfold State.running; decide +kernel⟩,
    ⟨(wl (lkd (rn none)) {issued := true}), 0, 0, 2, 3, false, 4, 9, 16, 512, by unfold State.running; decide +kernel⟩,
    ⟨(lkd (rn none)), 0, 0, 3, true, 120, 9, 120, 128, by unfold State.running; decide +kernel⟩,
    ⟨(wl (lkd (rn none)) {issued := true, result := some {status := 0, data := 7}}), 0, 0, 2, false, 4, 16, 512, {status := 0, data := 7}, by unfold State.running; decide +kernel⟩⟩

theorem witness_ChannelInstructionsComplete_1 :
    (∃ (s : State) (c : Fin 32) (th : Fin 128) (rd : BitVec 5) (ch : BitVec 6) (i : Nat), s.threadsListed ∧ s.running c th ∧ (s.th c th).ready = false ∧ i < 32 ∧ f_fpc_CHAN_CFG_enable.get (s.rd .fpc_CHAN_CFG [c.val, ch.toNat]) = 1 ∧ (s.th c th).live.length < 4 ∧ s.chanUsed c ch.toNat + s.awarded 4 ch.toNat c < 32 ∧ s.chanTail c ch.toNat = i ∧ s.awarded 3 ch.toNat c = 0 ∧ s.chanUsed c ch.toNat = 0) ∧
    (∃ (s : State) (c : Fin 32) (th : Fin 128) (rd : BitVec 5) (ch : BitVec 6) (i : Nat), s.threadsListed ∧ s.running c th ∧ (s.th c th).ready = false ∧ i < 32 ∧ f_fpc_CHAN_CFG_enable.get (s.rd .fpc_CHAN_CFG [c.val, ch.toNat]) = 1 ∧ (s.th c th).live.length < 4 ∧ 32 ≤ s.chanUsed c ch.toNat ∧ s.awarded 3 ch.toNat c = 0 ∧ 0 < s.chanUsed c ch.toNat ∧ s.chanHead c ch.toNat = i ∧ s.slotState c ch.toNat i = 2) ∧
    (∃ (s : State) (c : Fin 32) (th : Fin 128) (rd : BitVec 5) (ch : BitVec 6) (i : Nat), s.threadsListed ∧ s.running c th ∧ (s.th c th).ready = false ∧ i < 32 ∧ f_fpc_CHAN_CFG_enable.get (s.rd .fpc_CHAN_CFG [c.val, ch.toNat]) = 0) ∧
    (∃ (s : State) (c : Fin 32) (th : Fin 128) (rd : BitVec 5) (ch : BitVec 6) (i : Nat), s.threadsListed ∧ s.running c th ∧ (s.th c th).ready = false ∧ i < 32 ∧ f_fpc_CHAN_CFG_enable.get (s.rd .fpc_CHAN_CFG [c.val, ch.toNat]) = 1 ∧ 4 ≤ (s.th c th).live.length) ∧
    (∃ (s : State) (c : Fin 32) (th : Fin 128) (rd : BitVec 5) (ch : BitVec 6) (i : Nat), s.threadsListed ∧ s.running c th ∧ (s.th c th).ready = false ∧ i < 32 ∧ ((s.th c th).gr rd).toNat = 0x40000 + 0x800 * ch.toNat + 0x40 * i ∧ (s.th c th).resvOf c ch.toNat i = none) :=
  ⟨⟨(ch (rn none)), 0, 0, 1, 7, 0, by unfold State.running State.threadsListed; decide +kernel⟩,
    ⟨((used (ch (rn none)) 32).setSlot 0 7 0 2), 0, 0, 1, 7, 0, by unfold State.running State.threadsListed; decide +kernel⟩,
    ⟨(rn none), 0, 0, 1, 7, 0, by unfold State.running State.threadsListed; decide +kernel⟩,
    ⟨(resv4 (used (ch (rn none)) 4) 4), 0, 0, 1, 7, 0, by unfold State.running State.threadsListed; decide +kernel⟩,
    ⟨((used (ch (run0 [(1, 0x43800)] none)) 4)), 0, 0, 1, 7, 0, by unfold State.running State.threadsListed; decide +kernel⟩⟩

theorem witness_ChannelInstructionsComplete_2 :
    (∃ (s : State) (c : Fin 32) (th : Fin 128) (rd : BitVec 5) (ch : BitVec 6) (i : Nat), s.threadsListed ∧ s.running c th ∧ (s.th c th).ready = false ∧ i < 32 ∧ ((s.th c th).gr rd).toNat = 0x40000 + 0x800 * ch.toNat + 0x40 * i ∧ s.slotState c ch.toNat i = 1 ∧ (((s.th c th).resvOf c ch.toNat i).any fun r => !r.released && !r.committed) = true) :=
  ⟨((resv4 (used (ch (run0 [(1, 0x43800)] none)) 4) 2).setSlot 0 7 0 1), 0, 0, 1, 7, 0, by unfold State.running State.threadsListed; decide +kernel⟩

theorem witness_EventInstructionsComplete :
    (∃ (s : State) (c : Fin 32) (th : Fin 128) (f : BitVec 6) (cl : BitVec 5) (k : Nat) (ch : Nat) (i : Nat), s.threadsListed ∧ f.toNat < 32 ∧ ch < 64 ∧ i < 32 ∧ s.running c th ∧ (s.th c th).ready = false ∧ f_fpc_EVT_CFG_enable.get (s.rd .fpc_EVT_CFG [c.val, f.toNat]) = 1 ∧ s.firstWaiter 5 f.toNat c = some k ∧ k / 128 < 32 ∧ s.evtSet c f.toNat = false ∧ f_fpc_EVT_CFG_enable.get (s.rd .fpc_EVT_CFG [cl.toNat, f.toNat]) = 1 ∧ f_fpc_EVT_CFG_ext_kind.get (s.rd .fpc_EVT_CFG [cl.toNat, f.toNat]) = 3 ∧ f_fpc_EVT_CFG_src_cluster.get (s.rd .fpc_EVT_CFG [cl.toNat, f.toNat]) = c) ∧
    (∃ (s : State) (c : Fin 32) (th : Fin 128) (f : BitVec 6) (ch : Nat) (i : Nat), s.threadsListed ∧ f.toNat < 32 ∧ ch < 64 ∧ i < 32 ∧ s.running c th ∧ (s.th c th).ready = false ∧ f_fpc_EVT_CFG_enable.get (s.rd .fpc_EVT_CFG [c.val, f.toNat]) = 1 ∧ s.firstWaiter 5 f.toNat c = none ∧ s.evtSet c f.toNat = true) ∧
    (∃ (s : State) (c : Fin 32) (th : Fin 128) (f : BitVec 6) (cl : BitVec 5) (ch : Nat) (i : Nat) (rest : List RemoteOp), s.threadsListed ∧ f.toNat < 32 ∧ ch < 64 ∧ i < 32 ∧ s.running c th ∧ (s.th c th).ready = false ∧ f_fpc_EVT_CFG_enable.get (s.rd .fpc_EVT_CFG [c.val, f.toNat]) = 0 ∧ s.fpc.remote = .signal c cl.toNat f.toNat :: rest ∧ s.firstWaiter 5 f.toNat cl.toNat = none) ∧
    (∃ (s : State) (c : Fin 32) (f : BitVec 6) (cl : BitVec 5) (ch : Nat) (i : Nat) (rest : List RemoteOp), s.threadsListed ∧ f.toNat < 32 ∧ ch < 64 ∧ i < 32 ∧ s.fpc.remote = .commit c cl.toNat ch i :: rest ∧ s.slotState cl.toNat ch i = 1) :=
  ⟨⟨(evr (wt (rn none))), 0, 0, 7, 0, 9, 7, 1, by unfold State.running State.threadsListed; decide +kernel⟩,
    ⟨((ev (rn none)).setEvt 0 7 true), 0, 0, 7, 7, 1, by unfold State.running State.threadsListed; decide +kernel⟩,
    ⟨(rmt (rn none) (.signal 0 0 7)), 0, 0, 7, 0, 7, 1, [], by unfold State.running State.threadsListed; decide +kernel⟩,
    ⟨(rmt ((rn none).setSlot 0 7 1 1) (.commit 0 0 7 1)), 0, 7, 0, 7, 1, [], by unfold State.threadsListed; decide +kernel⟩⟩

theorem witness_ControlInstructionsComplete :
    (∃ (s : State) (c : Fin 32) (th : Fin 128) (ra : BitVec 5) (w : BitVec 32) (g : Word) (z1 : Word) (z2 : Word) (n : Nat), s.running c th ∧ g = (s.th c th).gen + 0x9E3779B97F4A7C15 ∧ z1 = (g ^^^ (g >>> 30)) * 0xBF58476D1CE4E5B9 ∧ z2 = (z1 ^^^ (z1 >>> 27)) * 0x94D049BB133111EB ∧ n = ((s.th c th).gr ra).toNat ∧ n / 8 < 321 ∧ s.flag .skp_PERM [n / 8] f_skp_PERM_score = true ∧ s.isResident c th = false ∧ decodeKryx w = none) ∧
    (∃ (s : State) (c : Fin 32) (th : Fin 128) (ra : BitVec 5) (g : Word) (z1 : Word) (z2 : Word) (n : Nat), s.running c th ∧ g = (s.th c th).gen + 0x9E3779B97F4A7C15 ∧ z1 = (g ^^^ (g >>> 30)) * 0xBF58476D1CE4E5B9 ∧ z2 = (z1 ^^^ (z1 >>> 27)) * 0x94D049BB133111EB ∧ n = ((s.th c th).gr ra).toNat ∧ (321 ≤ n / 8 ∨ s.flag .skp_PERM [n / 8] f_skp_PERM_score = false) ∧ s.isResident c th = true) :=
  ⟨⟨(perm (rn none) 1), 0, 0, 1, 0xFFFFFFFF, G, Z1, Z2, 10, by unfold State.running; decide +kernel⟩,
    ⟨(df (resd (rn none)) 3), 0, 0, 1, G, Z1, Z2, 10, by unfold State.running; decide +kernel⟩⟩

theorem witness_DeferredUpdateInstructionsComplete :
    (∃ (s : State) (c : Fin 32) (th : Fin 128) (ra : BitVec 5) (rb : BitVec 5) (rc : BitVec 5) (a : Nat) (b : Nat) (r : Nat), s.running c th ∧ a = ((s.th c th).gr ra).toNat ∧ b = ((s.th c th).gr rb).toNat ∧ r = ((s.th c th).gr rc).toNat ∧ s.counterCount ≤ a % 2 ^ 28 ∧ s.flag .tm_hmc_CARVE [] f_tm_hmc_CARVE_pol_en = false ∧ (s.th c th).deferred.length < 32 ∧ a % 512 ≤ 480) ∧
    (∃ (s : State) (c : Fin 32) (th : Fin 128) (ra : BitVec 5) (rb : BitVec 5) (rc : BitVec 5) (a : Nat) (b : Nat) (r : Nat), s.running c th ∧ a = ((s.th c th).gr ra).toNat ∧ b = ((s.th c th).gr rb).toNat ∧ r = ((s.th c th).gr rc).toNat ∧ 32 ≤ (s.th c th).deferred.length ∧ a % 2 ^ 28 < s.counterCount ∧ s.flag .tm_hmc_CARVE [] f_tm_hmc_CARVE_pol_en = true ∧ a % 512 ≤ 480) ∧
    (∃ (s : State) (c : Fin 32) (th : Fin 128) (ra : BitVec 5) (rb : BitVec 5) (rc : BitVec 5) (a : Nat) (b : Nat) (r : Nat), s.running c th ∧ a = ((s.th c th).gr ra).toNat ∧ b = ((s.th c th).gr rb).toNat ∧ r = ((s.th c th).gr rc).toNat ∧ (s.th c th).deferred.length < 32 ∧ a % 2 ^ 28 < s.counterCount ∧ s.flag .tm_hmc_CARVE [] f_tm_hmc_CARVE_pol_en = true) ∧
    (∃ (s : State) (c : Fin 32) (th : Fin 128) (ra : BitVec 5) (rb : BitVec 5) (rc : BitVec 5) (a : Nat) (b : Nat) (r : Nat), s.running c th ∧ a = ((s.th c th).gr ra).toNat ∧ b = ((s.th c th).gr rb).toNat ∧ r = ((s.th c th).gr rc).toNat ∧ 480 < a % 512) :=
  ⟨⟨(df (run0 [(1,10),(2,0x12345)] none) 31), 0, 0, 1, 2, 2, 10, 0x12345, 0x12345, by unfold State.running; decide +kernel⟩,
    ⟨(pe (cr (df (run0 [(1,10),(2,0x12345)] none) 32))), 0, 0, 1, 2, 2, 10, 0x12345, 0x12345, by unfold State.running; decide +kernel⟩,
    ⟨(pe (cr (df (run0 [(1,10),(2,0x12345)] none) 31))), 0, 0, 1, 2, 2, 10, 0x12345, 0x12345, by unfold State.running; decide +kernel⟩,
    ⟨(df (run0 [(1,0xFFFFFFF),(2,0x12345)] none) 32), 0, 0, 1, 2, 2, 0xFFFFFFF, 0x12345, 0x12345, by unfold State.running; decide +kernel⟩⟩

theorem witness_DispositionInstructionsComplete :
    (∃ (s : State) (c : Fin 32) (th : Fin 128) (p : Pkt), s.running c th ∧ (s.th c th).pkt = some p ∧ (s.th c th).editOk = true ∧ (s.th c th).mirrors.length < 4) ∧
    (∃ (s : State) (c : Fin 32) (th : Fin 128) (p : Pkt), s.running c th ∧ (s.th c th).pkt = some p ∧ (s.th c th).editOk = false ∧ 4 ≤ (s.th c th).mirrors.length) ∧
    (∃ (s : State) (c : Fin 32) (th : Fin 128), s.running c th ∧ (s.th c th).pkt = none) :=
  ⟨⟨(pk (df (mir (rn (some (pkt 3))) 3) 3) [(33,64)]), 0, 0, (pkt 3), by unfold State.running; decide +kernel⟩,
    ⟨(pk (df (mir (rn (some (pkt 3))) 4) 3) [(33,385)]), 0, 0, (pkt 3), by unfold State.running; decide +kernel⟩,
    ⟨(rn none), 0, 0, by unfold State.running; decide +kernel⟩⟩

end Sys2Proof.Tests.W07

/-! ### Witnesses of part 08 of the statements -/

namespace Sys2Proof.Tests.W08
open Sys2Proof.Tests

def com (k : Commit) (s : State) : State := {s with fpc := {s.fpc with commits := [k]}}
def cm (s : State) : State := (List.range 12).foldl (fun s i => (s.setFld .fe_hmc_CH_STATUS [i] ⟨0,2⟩ 2).setFld .tm_hmc_CH_STATUS [i] f_tm_hmc_CH_STATUS_state 2) (s.setFlag .tm_hmc_CARVE [] f_tm_hmc_CARVE_pol_en true)
def a1 : AdmPkt := {seq := 0, fid := 0, inMac := 0, ts := 0, bytes := [], queue := 1, dp := 0}
def k1 : Commit := {seq := some 3, kind := 1, entries := [.count 10 3 100], mirrors := [a1]}
def k2 : Commit := {seq := some 3, kind := 1, charges := [(10,100)]}
def pl (a b : Nat) : Policer := {cfg := 2 * 2^112, lvl0 := a, lvl1 := b}
def wp (p : Policer) (s : State) : State := s.putPol 10 p
def st (n : Nat) : State := on.setFld .fpc_CL_STATUS [0] f_fpc_CL_STATUS_state n
def wt (s : State) : State := s.modTh 0 8 fun x => {x with state := 3, waitKind := 5, waitObj := 7, pkt := some (pkt 3)}
def db (s : State) : State := (s.setFlag .fpc_DB_CFG [0] f_fpc_DB_CFG_enable true).setFlag .fpc_DB_CFG [0] f_fpc_DB_CFG_hold true
def dc (s : State) : State := (s.setFld .fpc_WATCH_CFG [0] f_fpc_WATCH_CFG_threshold 3)
def hl (s : State) : State := {s with fpc := {s.fpc with dbHeld := [(0, true)]}}
def hh (s : State) (n : Nat) : State := s.modTh 0 8 fun x => {x with state := 4, under := n, pkt := some (pkt 3)}
def nopp (s : State) : State := {s with fpc := {s.fpc with isram := [(0, KInstr.encode .nop)]}}
def er (s : State) : State := s.modTh 0 8 fun x => {x with state := 2, pc := 5, pkt := some (pkt 3), scratch := [] }

theorem witness_CommitAndPolicerCommandsComplete :
    (∃ (s : State) (k : Commit) (l : List Commit) (n : Nat) (p : Nat) (b : Nat) (q : Nat), s.fpc.commits = k :: l ∧ k.charges = [] ∧ k.entries = [.count n p b] ∧ k.kind = 1 ∧ k.seq = some q) ∧
    (∃ (s : State) (k : Commit) (l : List Commit) (b : Nat) (m : Nat) (r : List (Nat × Nat)), s.fpc.commits = k :: l ∧ k.charges = (m, b) :: r ∧ s.polOk m = false) ∧
    (∃ (s : State) (k : Commit) (l : List Commit) (n : Nat) (b : Nat) (r : List (Nat × Nat)) (x : Policer), s.fpc.commits = k :: l ∧ k.charges = (n, b) :: r ∧ s.polOk n = true ∧ x = (s.pol n).upTo false (k.ts.toNat / 5120) ∧ bitsOf (x.modeAt (k.ts.toNat / 5120)) 112 2 = 2) :=
  ⟨⟨(com k1 (cm on)), k1, [], 10, 3, 100, 3, by decide +kernel⟩,
    ⟨(com k2 (on)), k2, [], 100, 10, [], by decide +kernel⟩,
    ⟨(wp (pl 25600 0) (com k2 (cm on))), k2, [], 10, 100, [], (pl 25600 0), by decide +kernel⟩⟩

theorem witness_ClusterLifecycleCommandsComplete_1 :
    (∃ (s : State) (c : Fin 32) (p : Fin 17) (k : Nat) (th : Fin 128), s.lc (clusterLc c) = 3 ∧ s.passed (SMap.get 0 s.fpc.stopSince c.val) (max 1 (s.fld .fpc_CL_CTRL [c] f_fpc_CL_CTRL_drain_limit) * 2000) = true ∧ s.queueOf c = [] ∧ (∀ th < 128, (s.th c th).pkt = none) ∧ s.threadsListed ∧ 2 ≤ s.lc (clusterLc c) ∧ s.logicalOf c p = some k ∧ k < 16) ∧
    (∃ (s : State) (c : Fin 32) (th : Fin 128) (i : Instr) (e : CoreErr), s.flag .fpc_CL_STATUS [c] f_fpc_CL_STATUS_retired = false ∧ s.lc (clusterLc c) = 2 ∧ s.flag .fpc_CL_STATUS [c] f_fpc_CL_STATUS_stop_pending = false ∧ kryxErr i = some (c, th, e) ∧ (s.th c th).state = 2 ∧ (e = .fetchBad ∨ s.fetchFails c th .clean = true)) ∧
    (∃ (s : State) (c : Fin 32), s.flag .fpc_CL_STATUS [c] f_fpc_CL_STATUS_retired = false ∧ s.lc (clusterLc c) = 0 ∧ s.flag .fpc_CL_STATUS [c] f_fpc_CL_STATUS_restart_pending = false ∧ s.pdOn (2 + c.val / 4) = true) ∧
    (∃ (s : State) (c : Fin 32) (failed : List (Fin 17)), s.lc (clusterLc c) = 1 ∧ s.badCores c = [] ∧ s.mgmt.reload = [] ∧ failed = []) ∧
    (∃ (s : State) (c : Fin 32) (failed : List (Fin 17)), s.lc (clusterLc c) = 1 ∧ s.badCores c = [] ∧ s.mgmt.reload = [] ∧ failed.Nodup ∧ failed.length = 6) :=
  ⟨⟨((st 3)), 0, 0, 0, 8, by unfold State.threadsListed; decide +kernel⟩,
    ⟨(er on), 0, 8, (.add 0 8 1 2 3 .fetchBad), .fetchBad, by decide +kernel⟩,
    ⟨(st 0), 0, by decide +kernel⟩,
    ⟨(st 1), 0, [], by decide +kernel⟩,
    ⟨(st 1), 0, [0,1,2,3,4,5], by decide +kernel⟩⟩

theorem witness_ClusterLifecycleCommandsComplete_2 :
    (∃ (s : State) (c : Fin 32) (th : Fin 128) (i : Instr) (e : CoreErr), kryxErr i = some (c, th, e) ∧ (s.th c th).state = 2 ∧ e = .regBad ∧ s.fetchFails c th .clean = false) ∧
    (∃ (s : State) (c : Fin 32) (th : Fin 128) (i : Instr) (e : CoreErr), kryxErr i = some (c, th, e) ∧ (s.th c th).state = 2 ∧ (e = .fetchFixed ∨ e = .icache ∨ e = .regFixed) ∧ s.fetchFails c th .clean = false) :=
  ⟨⟨(er on), 0, 8, (.ld 0 8 1 2 3 0 false .regBad), .regBad, by decide +kernel⟩,
    ⟨(er on), 0, 8, (.drop 0 8 1 .icache), .icache, by decide +kernel⟩⟩

theorem witness_DeadBallCommandsComplete :
    (∃ (s : State) (c : Fin 32) (th : Fin 128), s.flag .fpc_DB_CFG [c] f_fpc_DB_CFG_enable = true ∧ s.lc (clusterLc c) = 2 ∧ s.isHeld c = false ∧ s.deadBall c = true ∧ (∀ i < 128, (s.th c i).state ≠ 4) ∧ s.passed (SMap.get 0 s.fpc.quiet c.val) (max 256 (s.fld .fpc_DB_CFG [c] f_fpc_DB_CFG_window)) = true ∧ s.flag .fpc_DB_CFG [c] f_fpc_DB_CFG_hold = true ∧ (s.th c th).state = 3 ∧ (s.th c th).longSeen = false ∧ s.fld .fpc_WATCH_CFG [c] f_fpc_WATCH_CFG_threshold ≠ 0 ∧ s.passed (s.th c th).waitSince (s.fld .fpc_WATCH_CFG [c] f_fpc_WATCH_CFG_threshold * 1024 + 1) = true) ∧
    (∃ (s : State) (c : Fin 32) (th : Fin 128) (p : Pkt), s.isHeld c = true ∧ (s.th c th).state = 3 ∧ (s.th c th).pkt = some p) :=
  ⟨⟨(dc (db (wt on))), 0, 8, by decide +kernel⟩,
    ⟨(hl (db (wt on))), 0, 8, (pkt 3), by decide +kernel⟩⟩

theorem witness_DebuggerCommandsComplete :
    (∃ (s : State) (c : Fin 32) (th : Fin 128) (ch : Fin 64) (i : Fin 32), (s.th c th).state = 4 ∧ (s.th c th).under = 1 ∧ decodeKryx (s.nextWord c th) = some .nop ∧ s.fetchFails c th .clean = false ∧ s.slotState c ch i = 1) ∧
    (∃ (s : State) (c : Fin 32) (th : Fin 128) (k : Nat), (s.th c th).state = 4 ∧ (s.th c th).under = k ∧ (k = 0 ∨ k = 3) ∧ (s.th c th).under = 3) ∧
    (∃ (s : State) (c : Fin 32) (th : Fin 128), (s.th c th).state ≠ 4 ∧ (s.th c th).state = 2 ∧ (s.th c th).stepping = true ∧ s.fetchFails c th .clean = false) ∧
    (∃ (s : State) (c : Fin 32) (th : Fin 128), (s.th c th).state = 4 ∧ (s.th c th).under = 1 ∧ decodeKryx (s.nextWord c th) = none ∧ s.fetchFails c th .clean = false) :=
  ⟨⟨((nopp (hh on 1)).setSlot 0 0 0 1), 0, 8, 0, 0, by decide +kernel⟩,
    ⟨(hh on 3), 0, 8, 3, by decide +kernel⟩,
    ⟨((er on).modTh 0 8 fun x => {x with stepping := true}), 0, 8, by decide +kernel⟩,
    ⟨(hh on 1), 0, 8, by decide +kernel⟩⟩

end Sys2Proof.Tests.W08

/-! ### Witnesses of part 09 of the statements -/

namespace Sys2Proof.Tests.W09
open Sys2Proof.Tests

def P63 : Nat := 2^63
def B63 : Word := BitVec.ofNat 64 (2^63)
def P60 : Nat := 2^60
def P61 : Nat := 2^61
def P32 : Nat := 2^32
def A1 : Nat := P63+5
def A2 : Nat := P32+7
def A3 : Nat := P60+P32+7
def A4 : Nat := P61+1
def rec (kind inst op flags tag idx : Nat) (rest : List Byte) : List Byte := padTo 64 (natLE 1 inst ++ natLE 1 kind ++ natLE 1 op ++ natLE 1 flags ++ natLE 4 tag ++ natLE 8 idx ++ rest)
def bat (r : List Byte) : Batch := { ring := some 0, resultAddr := 0, tag := 7, atomic := true, stopOnFail := false, ops := [r] }
def withOp (s : State) (r : List Byte) : State := {s with tab := {s.tab with batch := some (bat r)}}
def lpm0 (s : State) : State := (s.setFld .lpm_SLICE_CFG [3] f_lpm_SLICE_CFG_ondie_quota 1).setFlag .lpm_SLICE_CFG [3] f_lpm_SLICE_CFG_valid true
def rI : List Byte := rec 2 3 1 0 77 0 (natBE 4 0x0A000000 ++ List.replicate 12 0 ++ natLE 4 99 ++ List.replicate 12 0 ++ natLE 2 1 ++ [8, 0])
def rD : List Byte := rec 2 3 2 0 77 0 (natBE 4 0x0A000000 ++ List.replicate 28 0 ++ natLE 2 1 ++ [8, 0])
def rM : List Byte := rec 2 3 3 0 77 0 (natBE 4 0x0A000000 ++ List.replicate 12 0 ++ natLE 4 99 ++ List.replicate 12 0 ++ natLE 2 1 ++ [8, 0])
def k0 : Nat := routeKey 3 0 8 1 0x0A000000
def e0 : TEntry := {data := 5}
def pres (k : Nat) (e : TEntry) (s : State) : State := s.putCell k {cur := some e}
def ex (s : State) : State := ((s.setFld .exm_TBL_CFG [3] f_exm_TBL_CFG_data_width 1).setFlag .exm_TBL_CFG [3] f_exm_TBL_CFG_valid true).setFld .exm_TBL_GEOM [3] f_exm_TBL_GEOM_ondie_log2 4 |>.setFld .exm_TBL_GEOM [3] f_exm_TBL_GEOM_hbm_log2 31
def xr (kind op : Nat) (dat : Bool) : List Byte := rec kind (if kind = 3 then 3 else 0) op 0 77 0 ([1,2,3,4] ++ List.replicate 12 0 ++ (if dat then natLE 8 99 else natLE 8 0))
def kx (s : State) : Nat := match s.exmPlace (xr 3 1 true) true with | .ok k => k | _ => 0
def kf : Nat := match fbkPlace (xr 9 1 true) true with | .ok k => k | _ => 0
def lx (s : State) (k : Nat) : Nat := ((((s.candidates k).filter s.bucketLive).findSome? fun b => lowestWay b s.wayFreeNew)).getD 0
def go2 (kind op : Nat) (dat p : Bool) : State := let s := withOp (ex on) (xr kind op dat); let k := if kind = 3 then kx s else kf; if p then pres k e0 s else s

def wr (kind inst idx flagsOp : Nat) (rest : List Byte) : List Byte := rec kind inst flagsOp 0 9 idx (List.replicate 16 0 ++ rest)
def hb (s : State) : State := ((List.range 8).foldl (fun s i => (s.setFld .fe_hmc_CH_STATUS [i] f_fe_hmc_CH_STATUS_state 2).setFld .tm_hmc_CH_STATUS [i] f_tm_hmc_CH_STATUS_state 2) (s.setFlag .tm_hmc_CARVE [] f_tm_hmc_CARVE_pol_en true)).setFld .fe_hmc_REGION [4] f_fe_hmc_REGION_size 1
def r31 := wr 10 0 9 4 (natLE 8 0xFFFF)
def r32 := wr 10 0 9000 4 (natLE 8 0xFFFF)
def W (r : List Byte) : Word := BitVec.ofNat 64 (leAt r 32 8)
def pa := Reg.addr .prs_NODE_CFG [3]
def r33 := wr 1 0 pa 4 (natLE 8 0xFFFF)
def r34 := wr 6 0 5 4 (natLE 8 0xFFFF)
def r35 := wr 6 0 0x100000 4 (natLE 8 0xFFFF)
def r36 := wr 6 0 5 4 (natLE 16 (2^121))
def r37 := wr 7 0 5 4 (natLE 8 0x0)
def r38 := wr 7 0 (2^63+5) 4 (natLE 8 0x55)
def gd : Nat := P63
def r39 := wr 7 0 5 6 (natLE 16 (3 + 5 * 2^20 + 2 * 2^120))
def r3a := wr 6 0 defaultIndex 4 (natLE 16 77)
def r3b := wr 11 0 10 7 (natLE 4 3)
def r3c := wr 12 0 0 9 []
def ra := Reg.addr .dsp_OK_CFG []
def r3d := wr 12 0 ra 8 (natLE 8 3)
def rb := Reg.addr .dsp_RNG_SEED []
def r3e := wr 12 0 rb 8 (natLE 8 3)
def r3f := wr 6 0 5 5 []
def tc (s : State) : State := ((s.setFlag .tcm_TBL_CFG [2] f_tcm_TBL_CFG_valid true).setFld .tcm_TBL_CFG [2] f_tcm_TBL_CFG_first_block 4).setFld .tcm_TBL_CFG [2] f_tcm_TBL_CFG_block_count 2
def t1 := rec 4 4 4 0 9 17 ([1,2,3,4,5,6,7,8,9,10] ++ List.replicate 10 0 ++ List.replicate 10 255 ++ List.replicate 10 0 ++ [9,0,1,2,3,4])
def t2 := rec 4 4 2 0 9 17 []
def t3 := rec 4 4 1 0 9 0 ([1,2,3,4,5,6,7,8,9,10] ++ List.replicate 10 0 ++ List.replicate 10 255 ++ List.replicate 10 0 ++ [9,0,1,2,3,4])
def dt (s : State) : State := hb (((s.setFlag .dtc_TBL_CFG [3] f_dtc_TBL_CFG_valid true).setFld .dtc_TBL_NODES [3] f_dtc_TBL_NODES_node_log2 5).setFld .dtc_TBL_CFG [3] f_dtc_TBL_CFG_rule_log2 5 |>.setFld .dtc_TBL_CFG [3] f_dtc_TBL_CFG_tree_count 2)
def d1 := wr 5 3 7 1 (natLE 4 11)
def d2 := wr 5 3 7 2 (natLE 4 11)
def d3 := rec 5 3 4 0 9 (2^32+7) ((List.range 32).map fun i => BitVec.ofNat 8 (i+1))
def d4 := rec 5 3 4 0 9 (2^60 + 2^32+7) ((List.range 32).map fun i => BitVec.ofNat 8 (i+1))
def d5 := wr 5 3 (2^61+1) 4 (natLE 4 (2^24+3))
def q1 (s : State) := s.setFld .qmg_POOL_CFG [0] f_qmg_POOL_CFG_limit 5
def s0 (kind idx c : Nat) := rec kind 0 4 0 9 idx (List.replicate 16 0 ++ natLE 16 c)
def cc : Nat := ((List.range 128).filter (fun i => qcMinCells (2^i) != 0)).foldl (fun a i => a + 2^i) 0
def c2 : Nat := cc
def wgt : Nat := (List.range 50).find? (fun i => ndWeight (2^i) != 0 && ndShaper (2^i) == 0) |>.getD 0
def shb : Nat := ((List.range 50).filter (fun i => ndShaper (2^i) != 0)).foldl (fun a i => a + 2^i) 0
def c3 : Nat := 2^wgt + shb
def pirb : Nat := ((List.range 128).filter (fun i => spPir (2^i) != 0)).foldl (fun a i => a + 2^i) 0
def p3 : Nat := 3 * 2^112
def p2 : Nat := 2 * 2^112
def i8 := P63 + 8
def gc : Nat := 2000 * 2^64 + 2^95
def gt (s : State) := s.setFlag .tgt_PORT_CFG [8] f_tgt_PORT_CFG_gate_en true
def dsc : List Byte := natLE 8 64 ++ natLE 8 128 ++ natLE 4 3 ++ List.replicate 44 0
def hdr : List Byte := natLE 4 7 ++ [1,0,0,0] ++ natLE 4 2 ++ List.replicate 52 0
def rg2 (s : State) : State := ((s.setFld .pci_RING_STATUS [0] f_pci_RING_STATUS_state 2).setFld .pci_RING_CFG [0] f_pci_RING_CFG_size_log2 4).setFld .pci_RING_PIDX [0] ⟨0,16⟩ 3
def cb : Batch := { ring := some 0, resultAddr := 0, tag := 7, atomic := false, stopOnFail := false, boot := true, ready := true, ops := [r34, r34], results := [{tag := 1, status := 0, cause := 0, unit := 0}], staged := [(0, .cell (nhopKey 9) (some {data := 3}))] }
def wb (s : State) (b : Batch) : State := {s with tab := {s.tab with batch := some b}}
def oc : Cell := {cur := some {data := 4}, old := some none, seq := 3}
def cb3 : Batch := {cb with ring := none, atomic := true, ready := false, waitSince := some 5, staged := [(0, .cell (nhopKey 9) (some {data := 3}))]}
def oc' : Cell := {cur := some {data := 4}, old := some none, seq := 3}
def nk : Nat := nhopKey 9
def s6 : State := ({on with fpc := {on.fpc with seqNext := 6}}).putCell (nhopKey 9) oc
def nb (a : Bool) : Batch := {cb with boot := false, atomic := a, ready := !a, results := cb.results ++ cb.results.take (if a then 1 else 0)}
def cb4 : Batch := {nb false with ready := false, waitSince := some 5, staged := [(0, .cell (nhopKey 9) none)]}
def aw (s : State) : State := {s.setFld .exm_TBL_CFG [3] f_exm_TBL_CFG_age_limit 5 with tab := {s.tab with ageWalk := [(3,[77,78])]}} 
def au (s : State) : State := {s.setFlag .gkp_AUDIT_CFG [3] f_gkp_AUDIT_CFG_enable true with boot := {s.boot with mgmtUp := true}}
def r37b := wr 7 0 5 4 (natLE 8 (2^63+1))

theorem witness_RouteOperationsStage_1 :
    (∃ (s : State) (b : Batch) (n : Nat) (k : Nat) (r : List Byte) (e : TEntry), s.takes .lpmInsert b n r ∧ s.routeOf r true = .ok k ∧ s.view k = some e) ∧
    (∃ (s : State) (b : Batch) (n : Nat) (k : Nat) (r : List Byte), s.takes .lpmInsert b n r ∧ s.routeOf r true = .ok k ∧ s.view k = none ∧ s.unitsUsed (opInst r) false + (routeUnits (routeFamily k) : Int) ≤ (s.fld .lpm_SLICE_CFG [opInst r] f_lpm_SLICE_CFG_ondie_quota * 4096 : Nat)) ∧
    (∃ (s : State) (b : Batch) (n : Nat) (k : Nat) (r : List Byte), s.takes .lpmDelete b n r ∧ s.routeOf r false = .ok k ∧ s.view k = none) ∧
    (∃ (s : State) (b : Batch) (n : Nat) (k : Nat) (r : List Byte) (e : TEntry), s.takes .lpmDelete b n r ∧ s.routeOf r false = .ok k ∧ s.view k = some e ∧ s.routeOk e = true) ∧
    (∃ (s : State) (b : Batch) (n : Nat) (k : Nat) (r : List Byte), s.takes .lpmModify b n r ∧ s.routeOf r true = .ok k ∧ s.view k = none) :=
  ⟨⟨(pres k0 e0 (withOp (lpm0 on) rI)), (bat rI), 0, k0, rI, e0, by unfold State.takes; decide +kernel⟩,
    ⟨(withOp (lpm0 on) rI), (bat rI), 0, k0, rI, by unfold State.takes; decide +kernel⟩,
    ⟨(withOp (lpm0 on) rD), (bat rD), 0, k0, rD, by unfold State.takes; decide +kernel⟩,
    ⟨(pres k0 e0 (withOp (lpm0 on) rD)), (bat rD), 0, k0, rD, e0, by unfold State.takes; decide +kernel⟩,
    ⟨(withOp (lpm0 on) rM), (bat rM), 0, k0, rM, by unfold State.takes; decide +kernel⟩⟩

theorem witness_RouteOperationsStage_2 :
    (∃ (s : State) (b : Batch) (n : Nat) (k : Nat) (r : List Byte) (e : TEntry), s.takes .lpmModify b n r ∧ s.routeOf r true = .ok k ∧ s.view k = some e ∧ s.routeOk e = true) :=
  ⟨(pres k0 e0 (withOp (lpm0 on) rM)), (bat rM), 0, k0, rM, e0, by unfold State.takes; decide +kernel⟩

theorem witness_BucketOperationsStage_1 :
    (∃ (s : State) (b : Batch) (n : Nat) (k : Nat) (l : Nat) (r : List Byte) (e : TEntry), (((s.candidates k).filter s.bucketLive).findSome? fun b => lowestWay b s.wayFreeNew) = some l ∧ s.takes .exmInsert b n r ∧ bitOf (opFlags r) 0 = false ∧ s.exmPlace r true = .ok k ∧ s.view k = some e) ∧
    (∃ (s : State) (b : Batch) (n : Nat) (k : Nat) (l : Nat) (r : List Byte), (((s.candidates k).filter s.bucketLive).findSome? fun b => lowestWay b s.wayFreeNew) = some l ∧ s.takes .exmInsert b n r ∧ bitOf (opFlags r) 0 = false ∧ s.exmPlace r true = .ok k ∧ s.view k = none) ∧
    (∃ (s : State) (b : Batch) (n : Nat) (k : Nat) (l : Nat) (r : List Byte) (e : TEntry), (((s.candidates k).filter s.bucketLive).findSome? fun b => lowestWay b s.wayFreeNew) = some l ∧ s.takes .exmDelete b n r ∧ s.exmPlace r false = .ok k ∧ s.view k = some e ∧ s.bucketLive (e.loc / 4) = true) ∧
    (∃ (s : State) (b : Batch) (n : Nat) (k : Nat) (l : Nat) (r : List Byte), (((s.candidates k).filter s.bucketLive).findSome? fun b => lowestWay b s.wayFreeNew) = some l ∧ s.takes .exmDelete b n r ∧ s.exmPlace r false = .ok k ∧ s.view k = none) ∧
    (∃ (s : State) (b : Batch) (n : Nat) (k : Nat) (l : Nat) (r : List Byte) (e : TEntry), (((s.candidates k).filter s.bucketLive).findSome? fun b => lowestWay b s.wayFreeNew) = some l ∧ s.takes .exmModify b n r ∧ s.exmPlace r true = .ok k ∧ s.view k = some e ∧ s.bucketLive (e.loc / 4) = true) :=
  ⟨⟨(go2 3 1 true true), (bat (xr 3 1 true)), 0, (kx (ex on)), (lx (go2 3 1 true true) (kx (ex on))), (xr 3 1 true), e0, by unfold State.takes; decide +kernel⟩,
    ⟨(go2 3 1 true false), (bat (xr 3 1 true)), 0, (kx (ex on)), (lx (go2 3 1 true false) (kx (ex on))), (xr 3 1 true), by unfold State.takes; decide +kernel⟩,
    ⟨(go2 3 2 false true), (bat (xr 3 2 false)), 0, (kx (ex on)), (lx (go2 3 2 false true) (kx (ex on))), (xr 3 2 false), e0, by unfold State.takes; decide +kernel⟩,
    ⟨(go2 3 2 false false), (bat (xr 3 2 false)), 0, (kx (ex on)), (lx (go2 3 2 false false) (kx (ex on))), (xr 3 2 false), by unfold State.takes; decide +kernel⟩,
    ⟨(go2 3 3 true true), (bat (xr 3 3 true)), 0, (kx (ex on)), (lx (go2 3 3 true true) (kx (ex on))), (xr 3 3 true), e0, by unfold State.takes; decide +kernel⟩⟩

theorem witness_BucketOperationsStage_2 :
    (∃ (s : State) (b : Batch) (n : Nat) (k : Nat) (l : Nat) (r : List Byte), (((s.candidates k).filter s.bucketLive).findSome? fun b => lowestWay b s.wayFreeNew) = some l ∧ s.takes .exmModify b n r ∧ s.exmPlace r true = .ok k ∧ s.view k = none) :=
  ⟨(go2 3 3 true false), (bat (xr 3 3 true)), 0, (kx (ex on)), (lx (go2 3 3 true false) (kx (ex on))), (xr 3 3 true), by unfold State.takes; decide +kernel⟩

theorem witness_IndexedOperationsStage_1 :
    (∃ (s : State) (b : Batch) (n : Nat) (i : Nat) (r : List Byte) (w : Word), opIndex r = i ∧ w = BitVec.ofNat 64 (leAt r 32 8) ∧ s.takes .fbkTmpl b n r ∧ restZero r [(8, 8), (32, 8)] = true ∧ i < 8192 ∧ ((i % 8 = 0 → badTemplate (w &&& templateBits 0) = false))) ∧
    (∃ (s : State) (b : Batch) (n : Nat) (i : Nat) (r : List Byte) (w : Word), opIndex r = i ∧ w = BitVec.ofNat 64 (leAt r 32 8) ∧ s.takes .fbkTmpl b n r ∧ restZero r [(8, 8), (32, 8)] = true ∧ 8192 ≤ i) ∧
    (∃ (s : State) (b : Batch) (n : Nat) (i : Nat) (r : List Byte) (g : Reg) (ix : List Nat) (w : Word), opIndex r = i ∧ w = BitVec.ofNat 64 (leAt r 32 8) ∧ s.takes .parse b n r ∧ restZero r [(8, 8), (32, 8)] = true ∧ findReg i = some (g, ix) ∧ isParseReg g = true ∧ s.badParseWord g (w &&& g.writable) = false) ∧
    (∃ (s : State) (b : Batch) (n : Nat) (i : Nat) (r : List Byte) (w : Word), opIndex r = i ∧ w = BitVec.ofNat 64 (leAt r 32 8) ∧ s.takes .nhop b n r ∧ restZero r [(8, 8), (32, 15)] = true ∧ i ≤ 0xFFFFF) ∧
    (∃ (s : State) (b : Batch) (n : Nat) (i : Nat) (r : List Byte) (w : Word), opIndex r = i ∧ w = BitVec.ofNat 64 (leAt r 32 8) ∧ s.takes .nhop b n r ∧ restZero r [(8, 8), (32, 15)] = true ∧ 0xFFFFF < i) :=
  ⟨⟨(withOp on r31), (bat r31), 0, 9, r31, (W r31), by unfold State.takes; decide +kernel⟩,
    ⟨(withOp on r32), (bat r32), 0, 9000, r32, (W r32), by unfold State.takes; decide +kernel⟩,
    ⟨(withOp on r33), (bat r33), 0, pa, r33, .prs_NODE_CFG, [3], (W r33), by unfold State.takes; decide +kernel⟩,
    ⟨(withOp on r34), (bat r34), 0, 5, r34, (W r34), by unfold State.takes; decide +kernel⟩,
    ⟨(withOp on r35), (bat r35), 0, 0x100000, r35, (W r35), by unfold State.takes; decide +kernel⟩⟩

theorem witness_IndexedOperationsStage_2 :
    (∃ (s : State) (b : Batch) (n : Nat) (i : Nat) (r : List Byte) (w : Word), opIndex r = i ∧ w = BitVec.ofNat 64 (leAt r 32 8) ∧ s.takes .nhop b n r ∧ restZero r [(8, 8), (32, 15)] = false) ∧
    (∃ (s : State) (b : Batch) (n : Nat) (i : Nat) (r : List Byte) (w : Word), opIndex r = i ∧ w = BitVec.ofNat 64 (leAt r 32 8) ∧ s.takes .groupDesc b n r ∧ restZero r [(8, 8), (32, 8)] = true ∧ i < groupCount (opKind r) ∧ badDescriptor (opKind r) (leAt r 32 8) = false) ∧
    (∃ (s : State) (b : Batch) (n : Nat) (i : Nat) (r : List Byte) (w : Word), opIndex r = i ∧ w = BitVec.ofNat 64 (leAt r 32 8) ∧ s.takes .poolSlot b n r ∧ restZero r [(8, 8), (32, 16)] = true ∧ opData r < 2 ^ slotBits (opKind r) ∧ i - 2 ^ 63 < poolCount (opKind r)) ∧
    (∃ (s : State) (b : Batch) (n : Nat) (i : Nat) (r : List Byte) (w : Word) (d : Nat) (size : Nat) (c : Nat), opIndex r = i ∧ w = BitVec.ofNat 64 (leAt r 32 8) ∧ s.takes .groupFill b n r ∧ restZero r [(8, 8), (32, 16)] = true ∧ i < groupCount (opKind r) ∧ (s.view (groupKey (opKind r) i)).map (·.data) = some d ∧ groupSize d = some size ∧ c = bitsOf (opData r) 120 4 ∧ 1 ≤ c ∧ c ≤ fillMax (opKind r) ∧ bitsOf (opData r) (slotBits (opKind r) * c) (120 - slotBits (opKind r) * c) = 0 ∧ bitsOf (opData r) 124 4 = 0) ∧
    (∃ (s : State) (b : Batch) (n : Nat) (i : Nat) (r : List Byte) (w : Word) (tbl : Nat) (size : Nat), opIndex r = i ∧ w = BitVec.ofNat 64 (leAt r 32 8) ∧ s.takes .default b n r ∧ opKind r ≠ 4 ∧ s.defaultTable r = some (tbl, size) ∧ restZero r [(8, 8), (32, 16)] = true ∧ opData r < 2 ^ size) :=
  ⟨⟨(withOp on r36), (bat r36), 0, 5, r36, (W r36), by unfold State.takes; decide +kernel⟩,
    ⟨(withOp on r37), (bat r37), 0, 5, r37, (W r37), by unfold State.takes; decide +kernel⟩,
    ⟨(withOp on r38), (bat r38), 0, A1, r38, (W r38), by unfold State.takes; decide +kernel⟩,
    ⟨(pres (groupKey 7 5) {data := gd} (withOp on r39)), (bat r39), 0, 5, r39, (W r39), gd, ((groupSize gd).getD 0), 2, by unfold State.takes; decide +kernel⟩,
    ⟨(withOp on r3a), (bat r3a), 0, defaultIndex, r3a, (W r3a), 0, 120, by unfold State.takes; decide +kernel⟩⟩

theorem witness_IndexedOperationsStage_3 :
    (∃ (s : State) (b : Batch) (n : Nat) (i : Nat) (r : List Byte) (w : Word) (c : Nat), opIndex r = i ∧ w = BitVec.ofNat 64 (leAt r 32 8) ∧ s.takes .counterClear b n r ∧ restZero r [(8, 8), (32, 4)] = true ∧ leAt r 32 4 = c ∧ 0 < c ∧ c ≤ 65536 ∧ i + c ≤ s.counterCount ∧ (∀ j < c, s.regionOk 4 (16 * (i + j)) = true)) ∧
    (∃ (s : State) (b : Batch) (n : Nat) (i : Nat) (r : List Byte) (w : Word) (c : Nat), opIndex r = i ∧ w = BitVec.ofNat 64 (leAt r 32 8) ∧ s.takes .counterClear b n r ∧ restZero r [(8, 8), (32, 4)] = true ∧ leAt r 32 4 = c ∧ 0 < c ∧ c ≤ 65536 ∧ s.counterCount < i + c) ∧
    (∃ (s : State) (b : Batch) (n : Nat) (i : Nat) (r : List Byte) (w : Word), opIndex r = i ∧ w = BitVec.ofNat 64 (leAt r 32 8) ∧ s.takes .ageTick b n r ∧ restZero r [] = true) ∧
    (∃ (s : State) (b : Batch) (n : Nat) (i : Nat) (r : List Byte) (g : Reg) (ix : List Nat) (w : Word), opIndex r = i ∧ w = BitVec.ofNat 64 (leAt r 32 8) ∧ s.takes .regWrite b n r ∧ restZero r [(8, 8), (32, 8)] = true ∧ findReg i = some (g, ix) ∧ regUnitRange (opKind r) i = true ∧ g.row.sealing = .tunable ∧ g ≠ .exm_TBL_CFG ∧ s.regRefuses g ix w = false) ∧
    (∃ (s : State) (b : Batch) (n : Nat) (i : Nat) (r : List Byte) (g : Reg) (ix : List Nat) (w : Word), opIndex r = i ∧ w = BitVec.ofNat 64 (leAt r 32 8) ∧ s.takes .regWrite b n r ∧ restZero r [(8, 8), (32, 8)] = true ∧ findReg i = some (g, ix) ∧ regUnitRange (opKind r) i = true ∧ g.row.sealing ≠ .tunable ∧ g ≠ .exm_TBL_CFG) :=
  ⟨⟨(withOp (hb on) r3b), (bat r3b), 0, 10, r3b, (W r3b), 3, by unfold State.takes; decide +kernel⟩,
    ⟨(withOp on r3b), (bat r3b), 0, 10, r3b, (W r3b), 3, by unfold State.takes; decide +kernel⟩,
    ⟨(withOp on r3c), (bat r3c), 0, 0, r3c, (W r3c), by unfold State.takes; decide +kernel⟩,
    ⟨(withOp on r3d), (bat r3d), 0, ra, r3d, .dsp_OK_CFG, [], (W r3d), by unfold State.takes; decide +kernel⟩,
    ⟨(withOp on r3e), (bat r3e), 0, rb, r3e, .dsp_RNG_SEED, [], (W r3e), by unfold State.takes; decide +kernel⟩⟩

theorem witness_IndexedOperationsStage_4 :
    (∃ (s : State) (b : Batch) (n : Nat) (i : Nat) (r : List Byte) (w : Word), opIndex r = i ∧ w = BitVec.ofNat 64 (leAt r 32 8) ∧ s.takes .read b n r ∧ opKind r = 6 ∧ restZero r [(8, 8)] = true ∧ i ≤ 0xFFFFF) ∧
    (∃ (s : State) (b : Batch) (n : Nat) (i : Nat) (r : List Byte) (w : Word), opIndex r = i ∧ w = BitVec.ofNat 64 (leAt r 32 8) ∧ s.takes .groupDesc b n r ∧ restZero r [(8, 8), (32, 8)] = true ∧ i < groupCount (opKind r) ∧ badDescriptor (opKind r) (leAt r 32 8) = true) :=
  ⟨⟨(pres (nhopKey 5) {data := 99} (withOp on r3f)), (bat r3f), 0, 5, r3f, (W r3f), by unfold State.takes; decide +kernel⟩,
    ⟨(withOp on r37b), (bat r37b), 0, 5, r37b, (W r37b), by unfold State.takes; decide +kernel⟩⟩

theorem witness_ClassifierOperationsStage_1 :
    (∃ (s : State) (b : Batch) (n : Nat) (i : Nat) (tbl : Nat) (w : Nat) (r : List Byte), opIndex r = i ∧ s.takes .tcamWrite b n r ∧ s.tcamUnit (opInst r) = some (tbl, opInst r) ∧ s.tcamWidth tbl = w ∧ restZero r ((8, 8) :: tcamUsed w) = true ∧ i < chainEntries w ∧ i < 4096 ∧ (s.tcamEnt (opInst r) i).state = 0 ∧ s.flag .tcm_TBL_CFG [tbl] f_tcm_TBL_CFG_order_check = false) ∧
    (∃ (s : State) (b : Batch) (n : Nat) (i : Nat) (tbl : Nat) (w : Nat) (r : List Byte), opIndex r = i ∧ s.takes .tcamWrite b n r ∧ s.tcamUnit (opInst r) = some (tbl, opInst r) ∧ s.tcamWidth tbl = w ∧ restZero r ((8, 8) :: tcamUsed w) = true ∧ i < chainEntries w ∧ i < 4096 ∧ 2 ≤ (s.tcamEnt (opInst r) i).state) ∧
    (∃ (s : State) (b : Batch) (n : Nat) (i : Nat) (tbl : Nat) (r : List Byte) (e : TcamEnt), opIndex r = i ∧ s.takes .tcamDelete b n r ∧ s.tcamUnit (opInst r) = some (tbl, opInst r) ∧ restZero r [(8, 8)] = true ∧ i < chainEntries (s.tcamWidth tbl) ∧ i < 4096 ∧ s.tcamEnt (opInst r) i = e ∧ e.state = 0) ∧
    (∃ (s : State) (b : Batch) (n : Nat) (i : Nat) (tbl : Nat) (r : List Byte) (e : TcamEnt), opIndex r = i ∧ s.takes .tcamDelete b n r ∧ s.tcamUnit (opInst r) = some (tbl, opInst r) ∧ restZero r [(8, 8)] = true ∧ i < chainEntries (s.tcamWidth tbl) ∧ i < 4096 ∧ s.tcamEnt (opInst r) i = e ∧ e.state = 2) ∧
    (∃ (s : State) (b : Batch) (n : Nat) (i : Nat) (tbl : Nat) (w : Nat) (pos : Nat) (r : List Byte), opIndex r = i ∧ s.takes .tcamInsert b n r ∧ s.tcamUnit (opInst r) = some (tbl, opInst r) ∧ s.tcamWidth tbl = w ∧ w < 2 ∧ restZero r (tcamUsed w) = true ∧ insertPlan (s.tcamHeld (opInst r)) (tcamP r) (chainEntries w) = .at' pos [] ∧ pos < 4096) :=
  ⟨⟨(withOp (tc on) t1), (bat t1), 0, 17, 2, 0, t1, by unfold State.takes; decide +kernel⟩,
    ⟨((withOp (tc on) t1).tcamPut 4 17 {state := 2}), (bat t1), 0, 17, 2, 0, t1, by unfold State.takes; decide +kernel⟩,
    ⟨(withOp (tc on) t2), (bat t2), 0, 17, 2, t2, {}, by unfold State.takes; decide +kernel⟩,
    ⟨((withOp (tc on) t2).tcamPut 4 17 {state := 2, v := 3}), (bat t2), 0, 17, 2, t2, {state := 2, v := 3}, by unfold State.takes; decide +kernel⟩,
    ⟨((withOp (tc on) t3).tcamPut 4 17 {state := 2, v := 3}), (bat t3), 0, 0, 2, 0, 0, t3, by unfold State.takes; decide +kernel⟩⟩

theorem witness_ClassifierOperationsStage_2 :
    (∃ (s : State) (b : Batch) (n : Nat) (i : Nat) (tbl : Nat) (rule : Nat) (k : Nat) (r : List Byte), opIndex r = i ∧ s.takes .dtcInsert b n r ∧ s.leafCheck r = .ok (tbl, i, rule) ∧ bitsOf (s.nodeWord tbl i 0) 62 2 = 2 ∧ rule < 2 ^ 20 ∧ ((∀ j ∈ leafSlots, s.leafState tbl i j = 1 ∨ s.leafState tbl i j = 2 → s.leafRule tbl i j ≠ rule)) ∧ (leafSlots.find? fun j => s.leafState tbl i j == 0) = some k ∧ (s.dtcPend tbl).length < 256) ∧
    (∃ (s : State) (b : Batch) (n : Nat) (i : Nat) (tbl : Nat) (rule : Nat) (k : Nat) (r : List Byte), opIndex r = i ∧ s.takes .dtcDelete b n r ∧ s.leafCheck r = .ok (tbl, i, rule) ∧ rule < 2 ^ 20 ∧ (leafSlots.find? fun j => s.leafRule tbl i j == rule && s.leafState tbl i j == 1) = some k ∧ (∀ j ∈ leafSlots, s.leafState tbl i j ≠ 2) ∧ (s.dtcPend tbl).length < 256) ∧
    (∃ (s : State) (b : Batch) (n : Nat) (i : Nat) (k : Nat) (off : Nat) (r : List Byte) (x : Nat), opIndex r = i ∧ s.takes .dtcNode b n r ∧ s.dtcValid (opInst r) = true ∧ restZero r [(8, 8), (16, 32)] = true ∧ nodeIndex i = some (k, x) ∧ k < s.dtcLines (opInst r) ∧ s.nodeOk (opInst r) k = true ∧ off < 4) ∧
    (∃ (s : State) (b : Batch) (n : Nat) (i : Nat) (rule : Nat) (off : Nat) (r : List Byte), opIndex r = i ∧ s.takes .dtcRule b n r ∧ s.dtcValid (opInst r) = true ∧ restZero r [(8, 8), (16, 32)] = true ∧ r.length = 64 ∧ ruleIndex i = some (rule, off) ∧ rule < s.dtcRules (opInst r) ∧ s.ruleOk (opInst r) rule = true) ∧
    (∃ (s : State) (b : Batch) (n : Nat) (i : Nat) (k : Nat) (r : List Byte), opIndex r = i ∧ s.takes .dtcRoot b n r ∧ s.dtcValid (opInst r) = true ∧ restZero r [(8, 8), (32, 4)] = true ∧ leAt r 32 4 < 2 ^ 25 ∧ rootIndex i = some k ∧ s.treeOf (opInst r) k = true ∧ bitsOf (leAt r 32 4) 0 24 < s.dtcLines (opInst r) ∧ s.stagedRoot (opInst r) k = none ∧ (s.dtcPend (opInst r)).length < 256) :=
  ⟨⟨((withOp (dt on) d1).putNode 3 7 0 B63), (bat d1), 0, 7, 3, 11, 1, d1, by unfold State.takes; decide +kernel⟩,
    ⟨(((withOp (dt on) d2).putNode 3 7 0 B63).putNode 3 7 2 (slotWord 1 11)), (bat d2), 0, 7, 3, 11, 2, d2, by unfold State.takes; decide +kernel⟩,
    ⟨((withOp (dt on) d3)), (bat d3), 0, A2, 7, 3, d3, 4, by unfold State.takes; decide +kernel⟩,
    ⟨((withOp (dt on) d4)), (bat d4), 0, A3, 7, 32, d4, by unfold State.takes; decide +kernel⟩,
    ⟨((withOp (dt on) d5)), (bat d5), 0, A4, 1, d5, by unfold State.takes; decide +kernel⟩⟩

theorem witness_ShoilanyOperationsStage_1 :
    (∃ (s : State) (b : Batch) (n : Nat) (i : Nat) (c : Nat) (r : List Byte), opIndex r = i ∧ opData r = c ∧ restZero r [(8, 8), (32, 16)] = true ∧ s.takes .queue b n r ∧ i < 589824 ∧ bitsOf c 17 3 = 0 ∧ bitsOf c 89 39 = 0 ∧ (s.q i).state = 0 ∧ qcMinCells c ≤ 786432 ∧ s.fld .qmg_POOL_CFG [qcPool c] f_qmg_POOL_CFG_limit ≠ 0) ∧
    (∃ (s : State) (b : Batch) (n : Nat) (i : Nat) (c : Nat) (r : List Byte), opIndex r = i ∧ opData r = c ∧ restZero r [(8, 8), (32, 16)] = true ∧ s.takes .queue b n r ∧ i < 589824 ∧ bitsOf c 17 3 = 0 ∧ bitsOf c 89 39 = 0 ∧ 786432 < qcMinCells c) ∧
    (∃ (s : State) (b : Batch) (n : Nat) (i : Nat) (c : Nat) (r : List Byte), opIndex r = i ∧ opData r = c ∧ restZero r [(8, 8), (32, 16)] = true ∧ s.takes .sched b n r ∧ i / 65536 ≤ 4 ∧ i % 65536 < levelNodes (i / 65536) ∧ bitsOf c 57 71 = 0 ∧ (ndShaper c < 131072 ∨ ndShaper c = 0x3FFFF) ∧ s.schedRefused (i / 65536) (i % 65536) c = false) ∧
    (∃ (s : State) (b : Batch) (n : Nat) (i : Nat) (c : Nat) (r : List Byte), opIndex r = i ∧ opData r = c ∧ restZero r [(8, 8), (32, 16)] = true ∧ s.takes .sched b n r ∧ i / 65536 ≤ 4 ∧ i % 65536 < levelNodes (i / 65536) ∧ bitsOf c 57 71 = 0 ∧ (ndShaper c < 131072 ∨ ndShaper c = 0x3FFFF) ∧ s.schedRefused (i / 65536) (i % 65536) c = true) ∧
    (∃ (s : State) (b : Batch) (n : Nat) (i : Nat) (c : Nat) (r : List Byte), opIndex r = i ∧ opData r = c ∧ restZero r [(8, 8), (32, 16)] = true ∧ s.takes .shaper b n r ∧ bitsOf c 121 7 = 0 ∧ i ≤ 131071 ∧ (spPir c = 0xFFFFFFFF ∨ (spCir c ≤ spPir c ∧ spCbs c ≤ spPbs c))) :=
  ⟨⟨(withOp (q1 on) (s0 16 5 1)), (bat (s0 16 5 1)), 0, 5, 1, (s0 16 5 1), by unfold State.takes; decide +kernel⟩,
    ⟨(withOp (q1 on) (s0 16 5 c2)), (bat (s0 16 5 c2)), 0, 5, c2, (s0 16 5 c2), by unfold State.takes; decide +kernel⟩,
    ⟨(withOp (q1 on) (s0 17 65536 c3)), (bat (s0 17 65536 c3)), 0, 65536, c3, (s0 17 65536 c3), by unfold State.takes; decide +kernel⟩,
    ⟨(withOp (q1 on) (s0 17 65536 shb)), (bat (s0 17 65536 shb)), 0, 65536, shb, (s0 17 65536 shb), by unfold State.takes; decide +kernel⟩,
    ⟨(withOp (q1 on) (s0 18 5 pirb)), (bat (s0 18 5 pirb)), 0, 5, pirb, (s0 18 5 pirb), by unfold State.takes; decide +kernel⟩⟩

theorem witness_ShoilanyOperationsStage_2 :
    (∃ (s : State) (b : Batch) (n : Nat) (i : Nat) (c : Nat) (r : List Byte), opIndex r = i ∧ opData r = c ∧ restZero r [(8, 8), (32, 16)] = true ∧ s.takes .shaper b n r ∧ bitsOf c 121 7 = 0 ∧ i ≤ 131071 ∧ spPir c ≠ 0xFFFFFFFF ∧ spPir c < spCir c) ∧
    (∃ (s : State) (b : Batch) (n : Nat) (i : Nat) (c : Nat) (r : List Byte), opIndex r = i ∧ opData r = c ∧ restZero r [(8, 8), (32, 16)] = true ∧ s.takes .policer b n r ∧ bitsOf c 115 13 = 0 ∧ i < 2 ^ 20 ∧ bitsOf c 112 2 = 3) ∧
    (∃ (s : State) (b : Batch) (n : Nat) (i : Nat) (c : Nat) (r : List Byte), opIndex r = i ∧ opData r = c ∧ restZero r [(8, 8), (32, 16)] = true ∧ s.takes .policer b n r ∧ bitsOf c 115 13 = 0 ∧ i < 2 ^ 20 ∧ (bitsOf c 112 2 = 0 ∨ bitsOf c 112 2 = 2) ∧ s.polOk i = true) ∧
    (∃ (s : State) (b : Batch) (n : Nat) (i : Nat) (c : Nat) (r : List Byte), opIndex r = i ∧ opData r = c ∧ restZero r [(8, 8), (32, 16)] = true ∧ s.takes .policer b n r ∧ bitsOf c 115 13 = 0 ∧ i < 2 ^ 20 ∧ bitsOf c 112 2 = 0 ∧ s.polOk i = false) ∧
    (∃ (s : State) (b : Batch) (n : Nat) (i : Nat) (c : Nat) (r : List Byte), opIndex r = i ∧ opData r = c ∧ restZero r [(8, 8), (32, 16)] = true ∧ s.takes .excPolicer b n r ∧ bitsOf c 49 79 = 0 ∧ i - 2 ^ 63 < 4096) :=
  ⟨⟨(withOp (q1 on) (s0 18 5 1)), (bat (s0 18 5 1)), 0, 5, 1, (s0 18 5 1), by unfold State.takes; decide +kernel⟩,
    ⟨(withOp (q1 on) (s0 19 5 p3)), (bat (s0 19 5 p3)), 0, 5, p3, (s0 19 5 p3), by unfold State.takes; decide +kernel⟩,
    ⟨(withOp (hb on) (s0 19 5 p2)), (bat (s0 19 5 p2)), 0, 5, p2, (s0 19 5 p2), by unfold State.takes; decide +kernel⟩,
    ⟨(withOp (on) (s0 19 5 1)), (bat (s0 19 5 1)), 0, 5, 1, (s0 19 5 1), by unfold State.takes; decide +kernel⟩,
    ⟨(withOp (on) (s0 19 i8 1)), (bat (s0 19 i8 1)), 0, i8, 1, (s0 19 i8 1), by unfold State.takes; decide +kernel⟩⟩

theorem witness_ShoilanyOperationsStage_3 :
    (∃ (s : State) (b : Batch) (n : Nat) (i : Nat) (c : Nat) (r : List Byte), opIndex r = i ∧ opData r = c ∧ restZero r [(8, 8), (32, 16)] = true ∧ s.takes .gateEntry b n r ∧ i < 65536 ∧ c < 2 ^ 40 ∧ bitsOf c 8 32 ≠ 0) ∧
    (∃ (s : State) (b : Batch) (n : Nat) (i : Nat) (c : Nat) (r : List Byte), opIndex r = i ∧ opData r = c ∧ restZero r [(8, 8), (32, 16)] = true ∧ s.takes .gateControl b n r ∧ bitsOf c 105 23 = 0 ∧ i - 2 ^ 63 < 256 ∧ gcCycle c < 2000) ∧
    (∃ (s : State) (b : Batch) (n : Nat) (i : Nat) (c : Nat) (r : List Byte), opIndex r = i ∧ opData r = c ∧ restZero r [(8, 8), (32, 16)] = true ∧ s.takes .gateControl b n r ∧ bitsOf c 105 23 = 0 ∧ i - 2 ^ 63 < 256 ∧ 2000 ≤ gcCycle c ∧ gcCycle c ≤ 2000000000 ∧ 1 ≤ gcCount c ∧ gcCount c ≤ 256 ∧ s.gateEn (i - 2 ^ 63) = true ∧ ((List.range (gcCount c)).map fun e => (s.gateEntryView (i - 2 ^ 63) e).2).foldl (· + ·) 0 ≤ gcCycle c) :=
  ⟨⟨(withOp (on) (s0 20 300 0x501)), (bat (s0 20 300 0x501)), 0, 300, 0x501, (s0 20 300 0x501), by unfold State.takes; decide +kernel⟩,
    ⟨(withOp (on) (s0 20 i8 1)), (bat (s0 20 i8 1)), 0, i8, 1, (s0 20 i8 1), by unfold State.takes; decide +kernel⟩,
    ⟨(withOp (gt on) (s0 20 i8 gc)), (bat (s0 20 i8 gc)), 0, i8, gc, (s0 20 i8 gc), by unfold State.takes; decide +kernel⟩⟩

theorem witness_TransactionEngineCommandsComplete_1 :
    (∃ (s : State) (ring : Nat) (d : List Byte) (h : List Byte), s.tab.batch = none ∧ s.tab.report = none ∧ s.txnRing = some ring ∧ s.isFollower = false ∧ d.length = 64 ∧ h.length = 64 ∧ descOk d = true ∧ headerOk h = true ∧ leAt h 8 4 + 1 = leAt d 16 4 ∧ s.d2dHealth ≠ 2) ∧
    (∃ (s : State) (b : Batch), s.tab.batch = some b ∧ s.decides b ∧ s.tab.held = [] ∧ s.batchWaits b = none) ∧
    (∃ (s : State) (b : Batch) (u : Nat), s.tab.batch = some b ∧ s.decides b ∧ s.tab.held = [] ∧ s.batchWaits b = some u ∧ u < 2 ^ f_pci_TXN_STATUS_wait_unit.width) ∧
    (∃ (s : State) (b : Batch) (ring : Nat) (v : Nat), s.tab.batch = some b ∧ b.waitSince = some v ∧ (b.ring.isSome = true ∨ b.boot = true) ∧ s.tab.held = [] ∧ s.batchWaits b = none) ∧
    (∃ (s : State) (b : Batch) (ring : Nat) (u : Nat) (v : Nat), s.tab.batch = some b ∧ b.waitSince = some v ∧ (b.ring.isSome = true ∨ b.boot = true) ∧ s.tab.held = [] ∧ s.batchWaits b = some u) :=
  ⟨⟨(rg2 on), 0, dsc, hdr, by decide +kernel⟩,
    ⟨(wb on cb), cb, by unfold State.decides; decide +kernel⟩,
    ⟨((wb on (nb true)).putCell (nhopKey 9) oc), (nb true), 0x600, by unfold State.decides; decide +kernel⟩,
    ⟨(wb on cb4), cb4, 0, 5, by decide +kernel⟩,
    ⟨((wb on cb4).putCell (nhopKey 9) oc), cb4, 0, 0x600, 5, by decide +kernel⟩⟩

theorem witness_TransactionEngineCommandsComplete_2 :
    (∃ (s : State) (b : Batch) (ring : Nat), s.tab.batch = some b ∧ (b.ring = some ring ∨ (b.ring = none ∧ b.boot = true)) ∧ ((∃ w, b.waitSince = some w ∧ (s.batchWaits b).isSome = true ∧ s.passed w (max 1 (s.fld .pci_TXN_CFG [] f_pci_TXN_CFG_wait_limit) * 2000) = true) ∨ (b.waitSince = none ∧ b.failed = false ∧ b.ready = false ∧ b.results.length < b.ops.length ∧ s.passed b.stageSince (max 1 (s.fld .pci_TXN_CFG [] f_pci_TXN_CFG_wait_limit) * 2000) = true)) ∧ b.atomic = false ∧ b.stopOnFail = false ∧ b.results.length + 1 < b.ops.length) ∧
    (∃ (s : State) (b : Batch) (ring : Nat), s.tab.batch = some b ∧ (b.ring = some ring ∨ (b.ring = none ∧ b.boot = true)) ∧ ((∃ w, b.waitSince = some w ∧ (s.batchWaits b).isSome = true ∧ s.passed w (max 1 (s.fld .pci_TXN_CFG [] f_pci_TXN_CFG_wait_limit) * 2000) = true) ∨ (b.waitSince = none ∧ b.failed = false ∧ b.ready = false ∧ b.results.length < b.ops.length ∧ s.passed b.stageSince (max 1 (s.fld .pci_TXN_CFG [] f_pci_TXN_CFG_wait_limit) * 2000) = true)) ∧ b.atomic = true ∧ b.ring = none ∧ 0 < b.ops.length) ∧
    (∃ (s : State) (b : Batch) (ring : Nat), s.tab.batch = some b ∧ (b.ring = some ring ∨ (b.ring = none ∧ b.boot = true)) ∧ ((∃ w, b.waitSince = some w ∧ (s.batchWaits b).isSome = true ∧ s.passed w (max 1 (s.fld .pci_TXN_CFG [] f_pci_TXN_CFG_wait_limit) * 2000) = true) ∨ (b.waitSince = none ∧ b.failed = false ∧ b.ready = false ∧ b.results.length < b.ops.length ∧ s.passed b.stageSince (max 1 (s.fld .pci_TXN_CFG [] f_pci_TXN_CFG_wait_limit) * 2000) = true)) ∧ b.atomic = true ∧ b.ring = some ring ∧ (s.ringState (16 + ring) ≠ 2 ∨ s.ringRoom (16 + ring) = true)) ∧
    (∃ (s : State) (k : Nat) (c : Cell), SMap.find? s.tab.cells k = some c ∧ (s.tab.cells.map (·.1)).Nodup ∧ c.old ≠ none ∧ c.seq ≤ s.feFloor) ∧
    (∃ (s : State), s.d2dHealth = 2) :=
  ⟨⟨(wb on {cb4 with waitSince := none, ready := false, staged := [], ops := [r34,r34,r34]}), {cb4 with waitSince := none, ready := false, staged := [], ops := [r34,r34,r34]}, 0, by decide +kernel⟩,
    ⟨((wb on cb3).putCell (nhopKey 9) oc'), cb3, 0, by decide +kernel⟩,
    ⟨((wb on {cb3 with ring := some 0}).putCell (nhopKey 9) oc'), {cb3 with ring := some 0}, 0, by decide +kernel⟩,
    ⟨s6, nk, oc, by decide +kernel⟩,
    ⟨((rg2 on).setFld .d2d_STATUS [] f_d2d_STATUS_health 2), by decide +kernel⟩⟩

theorem witness_AgeAuditAndScrubComplete :
    (∃ (s : State) (i : Fin 64) (h : List Byte) (blk : Fin 64) (flip : TcamFlip), s.flag .gkp_AUDIT_CFG [i.val] f_gkp_AUDIT_CFG_enable = true ∧ s.boot.mgmtUp = true ∧ s.passed (s.auditAt i 3) (max 1 (s.fld .gkp_AUDIT_CFG [i.val] f_gkp_AUDIT_CFG_interval) * 2000000) = true ∧ leAt h 0 8 = SMap.get 0 s.tab.unitSeq (s.fld .gkp_AUDIT_CFG [i.val] f_gkp_AUDIT_CFG_unit) ∧ leAt h 8 8 = 0 ∧ s.fld .gkp_AUDIT_CFG [i.val] f_gkp_AUDIT_CFG_unit / 256 ≠ 3 ∧ s.flag .tcm_SCRUB_CFG [] f_tcm_SCRUB_CFG_enable = true ∧ s.passed s.cls.scrubAt (max 1 (s.fld .tcm_SCRUB_CFG [] f_tcm_SCRUB_CFG_interval) * 2000) = true ∧ flip.block = blk) ∧
    (∃ (s : State) (i : Fin 64) (k : Nat) (a : Nat) (rest : List Nat) (e : TEntry), SMap.get [] s.tab.ageWalk i.val = k :: rest ∧ s.entryNow k = some e ∧ s.isFollower = false ∧ a = (s.fld .exm_AGE_EPOCH [] f_exm_AGE_EPOCH_epoch + 2 ^ 32 - e.stamp) % 2 ^ 32) :=
  ⟨⟨((au on)), 3, (List.replicate 64 0), 0, ⟨0, false, 5⟩, by decide +kernel⟩,
    ⟨((pres 77 {data := 3} ((aw on).setFld .exm_AGE_EPOCH [] f_exm_AGE_EPOCH_epoch 5)).setFld .pci_RING_STATUS [33] f_pci_RING_STATUS_state 2), 3, 77, 5, [78], {data := 3}, by decide +kernel⟩⟩

/-- In a state with every way free, a fast-break key finds one. -/
theorem fbk_finds_way (s : State) (k : Nat) (hk : isFbk k = true) (hw : ∀ l, s.wayFreeNew l = true) :
    ∃ l, (((s.candidates k).filter s.bucketLive).findSome? fun b => lowestWay b s.wayFreeNew) = some l := by
  have hb : ∀ x, s.bucketLive (33554432 + x) = true := by
    intro x; simp [State.bucketLive]
  have hl : ∀ b, lowestWay b s.wayFreeNew = some (4 * b + 0) := by
    intro b; simp [lowestWay, List.range_succ, hw]
  unfold State.candidates
  rw [if_pos hk]
  dsimp only
  split <;> simp [hb, hl]

theorem witness_BucketOperationsStage_3 :
    (∃ (s : State) (b : Batch) (n k l : Nat) (r : List Byte) (e : TEntry),
      (((s.candidates k).filter s.bucketLive).findSome? fun b => lowestWay b s.wayFreeNew) = some l ∧
      s.takes .fbkInsert b n r ∧ fbkPlace r true = .ok k ∧ s.view k = some e) ∧
    (∃ (s : State) (b : Batch) (n k l : Nat) (r : List Byte),
      (((s.candidates k).filter s.bucketLive).findSome? fun b => lowestWay b s.wayFreeNew) = some l ∧
      s.takes .fbkInsert b n r ∧ fbkPlace r true = .ok k ∧ s.view k = none) ∧
    (∃ (s : State) (b : Batch) (n k l : Nat) (r : List Byte),
      (((s.candidates k).filter s.bucketLive).findSome? fun b => lowestWay b s.wayFreeNew) = some l ∧
      s.takes .fbkDelete b n r ∧ fbkPlace r false = .ok k ∧ s.view k = none) ∧
    (∃ (s : State) (b : Batch) (n k l : Nat) (r : List Byte) (e : TEntry),
      (((s.candidates k).filter s.bucketLive).findSome? fun b => lowestWay b s.wayFreeNew) = some l ∧
      s.takes .fbkDelete b n r ∧ fbkPlace r false = .ok k ∧ s.view k = some e ∧ s.bucketLive (e.loc / 4) = true) ∧
    (∃ (s : State) (b : Batch) (n k l : Nat) (r : List Byte),
      (((s.candidates k).filter s.bucketLive).findSome? fun b => lowestWay b s.wayFreeNew) = some l ∧
      s.takes .fbkModify b n r ∧ fbkPlace r true = .ok k ∧ s.view k = none) ∧
    (∃ (s : State) (b : Batch) (n k l : Nat) (r : List Byte) (e : TEntry),
      (((s.candidates k).filter s.bucketLive).findSome? fun b => lowestWay b s.wayFreeNew) = some l ∧
      s.takes .fbkModify b n r ∧ fbkPlace r true = .ok k ∧ s.view k = some e ∧ s.bucketLive (e.loc / 4) = true) := by
  have slot (op : Nat) (dat p : Bool) := fbk_finds_way (go2 9 op dat p) kf (by decide +kernel)
  have free (op : Nat) (dat p : Bool) (h : (go2 9 op dat p).tab.ways = []) (l : Nat) :
      (go2 9 op dat p).wayFreeNew l = true := by
    simp [State.wayFreeNew, State.way, h, SMap.get, SMap.find?]
  obtain ⟨l1, h1⟩ := slot 1 true true (free 1 true true (by decide +kernel))
  obtain ⟨l2, h2⟩ := slot 1 true false (free 1 true false (by decide +kernel))
  obtain ⟨l3, h3⟩ := slot 2 false false (free 2 false false (by decide +kernel))
  obtain ⟨l4, h4⟩ := slot 2 false true (free 2 false true (by decide +kernel))
  obtain ⟨l5, h5⟩ := slot 3 true false (free 3 true false (by decide +kernel))
  obtain ⟨l6, h6⟩ := slot 3 true true (free 3 true true (by decide +kernel))
  refine ⟨⟨_, bat (xr 9 1 true), 0, kf, l1, xr 9 1 true, e0, h1, ?_⟩, ⟨_, bat (xr 9 1 true), 0, kf, l2, xr 9 1 true, h2, ?_⟩,
    ⟨_, bat (xr 9 2 false), 0, kf, l3, xr 9 2 false, h3, ?_⟩, ⟨_, bat (xr 9 2 false), 0, kf, l4, xr 9 2 false, e0, h4, ?_⟩,
    ⟨_, bat (xr 9 3 true), 0, kf, l5, xr 9 3 true, h5, ?_⟩, ⟨_, bat (xr 9 3 true), 0, kf, l6, xr 9 3 true, e0, h6, ?_⟩⟩ <;>
    unfold State.takes <;> decide +kernel

end Sys2Proof.Tests.W09

/-! ### Witnesses of part 10 of the statements -/

namespace Sys2Proof.Tests.W10
open Sys2Proof.Tests

def QE : Nat := 524288+7
def ad (q : Nat) : AdmPkt := {seq := 3, fid := 1, inMac := 0, ts := 0, bytes := List.replicate 60 0, queue := q, dp := 0}
def wq (s : State) (q : Nat) (x : Queue) : State := s.modQ q fun _ => x
def wa (s : State) (l : List AdmPkt) : State := {s with adm := l}
def b0 : SBlock := {chan := 3, num := 2, mirror := 5, cells := []}
def mc : Nat := ((List.range 128).filter fun i => qcMinCells (2^i) != 0 || qcMaxDepth (2^i) != 0).foldl (fun a i => a + 2^i) 0
def qon : Queue := {state := 2, cfg := mc}
def fr (s : State) : State := s.setFld .qmg_STATUS [] f_qmg_STATUS_free_cells 1000
def sc : Nat := ((List.range 128).filter fun i => qcSpill (2^i) == 1).foldl (fun a i => a + 2^i) 0
def cells (p a n : Nat) : List QCell := (List.range n).map fun i => {pkt := p, idx := a+i, cell := i}
def qp (i : Nat) (len : Nat) : QPkt := {id := i, a := ad 5, len}
def qsp : Queue := {state := 2, cfg := sc, pkts := [qp 0 9000], nextId := 1, head := cells 0 0 16, tail := cells 0 16 20, depth := 9000, count := 1}
def fb (s : State) : State := (s.setFld .tm_hmc_CARVE [] f_tm_hmc_CARVE_spill_blocks 50).setFlag .qmg_CFG [] f_qmg_CFG_spill_en true
def qb (b : SBlock) : Queue := {qsp with blocks := [b]}
def b2 : SBlock := {b0 with cells := cells 0 2 16, stage := 2}
def b4 : SBlock := {b0 with void := true, stage := 4}
def en : Nat := ((List.range 128).filter fun i => ndEnable (2^i) || ndShaper (2^i) != 0 || ndWeight (2^i) == 1).foldl (fun a i => a + 2^i) 0
def nd (p : Nat) : SchedNode := {cfg := en + p}
def net (s : State) : State := {s with tm := {s.tm with nodes := [(0, nd 0), (65536 + 4, nd 0), (131072 + 5, nd 4), (196608 + 6, nd 5), (262144 + 7, nd 6)]}}
def qe : Queue := {state := 2, pkts := [qp 0 300], nextId := 1, head := cells 0 0 2, depth := 300, count := 1}
def sh0 : Shaper := {cfg := 5 + 7 * 2^32 + 2^64 + 2^88 + 2^120}
def gl : GateList := {base := 0, cycleTicks := 1000, entries := [(3, 1000)]}
def qv : Queue := {qe with balance := 1000}
def cr (s : State) : State := ((s.setFld .sch_ING_CFG [] f_sch_ING_CFG_credit_hold 4).setFlag .twn_STATUS [] f_twn_STATUS_serve true).setFlag .fab_SYS_MAP [0] f_fab_SYS_MAP_valid true
def shs (s : State) : State := {s with tm := {s.tm with shapers := [(3, {}), (7, sh0), (9, sh0)], gates := [(0, {pend := some (gl, 5)})]}, pwr := {s.pwr with time := 5120}}
def tf : TxFrame := {a := ad 5, start := 0, whole := true, id := 0, queue := 524293, badEnd := false}
def wt (s : State) (f : TxFrame) : State := {s with tm := {s.tm with tx := [(0, some f)]}}
def off (s : State) (n : Nat) : State := s.setFld .lmac_PORT_STATUS [0] f_lmac_PORT_STATUS_state n

theorem witness_QueueCommandsComplete_1 :
    (∃ (s : State) (a : AdmPkt) (q : Fin 589824) (x : Queue) (b : SBlock) (l : List SBlock) (n : Nat), s.q q = x ∧ n = cellsOf (a.bytes.length + 4) ∧ x.state = 2 ∧ s.wantsSpill x = true ∧ x.ctx = none ∧ s.ctxUsed < 65536 ∧ ((∀ ch < 128, s.excluded ch = false ∧ (s.freeBlock ch (s.mirrorOf ch)).isSome = true)) ∧ x.blocks = b :: l ∧ b.stage = 2 ∧ (l.head?.all fun y => y.stage != 3) = true ∧ s.blockWaits q b false = false ∧ b.bad = false ∧ s.hFrozen b.chan = false ∧ b.chan < 128) ∧
    (∃ (s : State) (a : AdmPkt) (q : Fin 589824) (x : Queue) (n : Nat), s.q q = x ∧ n = cellsOf (a.bytes.length + 4) ∧ s.admNext = some a ∧ (if a.egress then 524288 + a.queue else a.queue) = q.val ∧ isVoq q = !a.egress ∧ a.red = false ∧ x.cfgOld = none ∧ x.state ≠ 2 ∧ x.state ≠ 3) ∧
    (∃ (s : State) (a : AdmPkt) (q : Fin 589824) (x : Queue) (n : Nat), s.q q = x ∧ n = cellsOf (a.bytes.length + 4) ∧ s.admNext = some a ∧ (if a.egress then 524288 + a.queue else a.queue) = q.val ∧ isVoq q = !a.egress ∧ a.red = false ∧ x.cfgOld = none ∧ x.state = 2 ∧ x.stop = false ∧ s.frameState a.fid ≠ 2 ∧ n + s.fld .qmg_CFG [] f_qmg_CFG_refill_reserve ≤ s.freeCells ∧ qcMaxDepth x.cfg = 0xFFFFF ∧ x.ondie + n ≤ qcMinCells x.cfg ∧ qcWredEn x.cfg = false ∧ ((a.egress = true → s.gateEn (s.portOf 4 a.queue) = false))) ∧
    (∃ (s : State) (a : AdmPkt) (q : Fin 589824) (x : Queue) (b : SBlock) (l : List SBlock) (n : Nat), s.q q = x ∧ n = cellsOf (a.bytes.length + 4) ∧ x.blocks = b :: l ∧ b.stage = 0 ∧ s.blockWaits q b true = false) ∧
    (∃ (s : State) (a : AdmPkt) (q : Fin 589824) (x : Queue) (b : SBlock) (l : List SBlock) (n : Nat), s.q q = x ∧ n = cellsOf (a.bytes.length + 4) ∧ x.blocks = b :: l ∧ b.stage = 2 ∧ (l.head?.all fun y => y.stage != 3) = true ∧ s.blockWaits q b false = false ∧ s.hFrozen b.chan = true) :=
  ⟨⟨(wq (fb (fr on)) 5 (qb b2)), (ad 5), 5, (qb b2), b2, [], 1, by decide +kernel⟩,
    ⟨(wa on [ad 5]), (ad 5), 5, {}, 1, by decide +kernel⟩,
    ⟨(wq (wa (fr on) [ad 5]) 5 qon), (ad 5), 5, qon, 1, by decide +kernel⟩,
    ⟨(wq (fb (fr on)) 5 (qb {b0 with cells := cells 0 2 16})), (ad 5), 5, (qb {b0 with cells := cells 0 2 16}), {b0 with cells := cells 0 2 16}, [], 1, by decide +kernel⟩,
    ⟨((wq (fb (fr on)) 5 (qb b2)).hSet 3 f_tm_hmc_CH_STATUS_frozen 1), (ad 5), 5, (qb b2), b2, [], 1, by decide +kernel⟩⟩

theorem witness_QueueCommandsComplete_2 :
    (∃ (s : State) (a : AdmPkt) (q : Fin 589824) (x : Queue) (b : SBlock) (l : List SBlock) (n : Nat), s.q q = x ∧ n = cellsOf (a.bytes.length + 4) ∧ x.blocks = b :: l ∧ b.stage = 4 ∧ (l.head?.all fun y => y.stage != 3) = true ∧ b.void = true ∧ b.mirrorBad = false ∧ s.excluded b.mirror = false) ∧
    (∃ (s : State) (a : AdmPkt) (q : Fin 589824) (x : Queue) (n : Nat), s.q q = x ∧ n = cellsOf (a.bytes.length + 4) ∧ x.state = 1) ∧
    (∃ (s : State) (a : AdmPkt) (q : Fin 589824) (x : Queue) (n : Nat), s.q q = x ∧ n = cellsOf (a.bytes.length + 4) ∧ x.state = 3 ∧ x.partly = false ∧ (x.blocks.all fun y => y.stage == 1 || y.stage == 3) = true) :=
  ⟨⟨(wq (fb (fr on)) 5 (qb b4)), (ad 5), 5, (qb b4), b4, [], 1, by decide +kernel⟩,
    ⟨(wq (fb (fr on)) 5 {state := 1}), (ad 5), 5, {state := 1}, 1, by decide +kernel⟩,
    ⟨(wq (fb (fr on)) 5 {qsp with state := 3}), (ad 5), 5, {qsp with state := 3}, 1, by decide +kernel⟩⟩

theorem witness_SchedulerCommandsComplete :
    (∃ (s : State) (p : Fin 256) (n : Nat) (sh : Shaper) (g : GateList) (sw : Nat), s.tm.refillNext * 5120 ≤ s.pwr.time.toNat ∧ SMap.find? s.tm.shapers n = some sh ∧ (s.tm.shapers.map (·.1)).Nodup ∧ sh.pend = none ∧ spEnable sh.cfg = true ∧ spPir sh.cfg ≠ 0xFFFFFFFF ∧ (s.gatePort p).pend = some (g, sw) ∧ sw ≤ s.pwr.time.toNat) ∧
    (∃ (s : State) (p : Fin 256) (a : Nat) (b : Nat) (c : Nat) (n : Nat) (x0 : SchedNode) (x1 : SchedNode) (x2 : SchedNode) (x3 : SchedNode) (x4 : SchedNode) (k : QPkt), a < 4096 ∧ b < 16384 ∧ c < 65536 ∧ n < 65536 ∧ s.portMaySelect p = true ∧ s.tm.nodes = [(p.val, x0), (65536 + a, x1), (131072 + b, x2), (196608 + c, x3), (262144 + n, x4)] ∧ ([x0, x1, x2, x3, x4].all fun x => ndEnable x.cfg && ndShaper x.cfg == 0x3FFFF) = true ∧ ndParent x1.cfg = p.val ∧ ndParent x2.cfg = a ∧ ndParent x3.cfg = b ∧ ndParent x4.cfg = c ∧ s.gateEn p = false ∧ ndPfcEn x4.cfg = false ∧ s.egressFront n = some k) ∧
    (∃ (s : State) (k : QPkt) (q : Nat) (prio : Nat), s.serves = true ∧ (s.tm.queues.all fun e => !(isVoq e.1 && e.2.partly)) = true ∧ s.voqNext = some (q, prio) ∧ (s.q q).front = some k ∧ k.len ≤ 16004 ∧ 0 < (s.q q).balance ∧ (s.q q).balance < 2 ^ 31 ∧ 0 < s.fld .sch_ING_CFG [] f_sch_ING_CFG_credit_hold) ∧
    (∃ (s : State) (q : Nat) (v : Fin 524288) (cyc : Nat), (s.q v).emptySince = some cyc ∧ (s.q v).pkts = [] ∧ 0 < (s.q v).balance ∧ s.gap = false ∧ s.passed cyc (s.fld .sch_ING_CFG [] f_sch_ING_CFG_credit_hold * 2000) = true) :=
  ⟨⟨(shs on), 0, 7, sh0, gl, 5, by decide +kernel⟩,
    ⟨(wq (net on) QE qe), 0, 4, 5, 6, 7, (nd 0), (nd 0), (nd 4), (nd 5), (nd 6), (qp 0 300), by decide +kernel⟩,
    ⟨(wq (cr on) 5 qv), (qp 0 300), 5, 0, by decide +kernel⟩,
    ⟨(wq (cr on) 5 {balance := 77, emptySince := some 3}), 5, 5, 3, by decide +kernel⟩⟩

theorem witness_LinePortCommandsComplete_1 :
    (∃ (s : State) (m : Fin 256) (f : TxFrame) (v : Word), SMap.get none s.tm.tx m.val = some f ∧ f.whole = true ∧ f.a.bytes.length + 4 ≤ s.txMax m ∧ s.flag .lmac_PORT_STATUS [m.val] f_lmac_PORT_STATUS_link_up = true ∧ s.flag .lmac_MSEC_CFG [m.val] f_lmac_MSEC_CFG_enable = false ∧ s.fld .lmac_PORT_CTRL [m.val] f_lmac_PORT_CTRL_ptp_mode = 0 ∧ (s.port m).pauseQ = [] ∧ (s.port m).tsFifo = [] ∧ s.isPort m = true ∧ f_lmac_PORT_CTRL_enable.get v = 0 ∧ s.portState m = 2 ∧ s.flag .lmac_PORT_STATUS [m.val] f_lmac_PORT_STATUS_stop_pending = false ∧ s.portOn m = true) ∧
    (∃ (s : State) (m : Fin 256) (f : TxFrame), SMap.get none s.tm.tx m.val = some f ∧ f.whole = true ∧ s.txMax m < f.a.bytes.length + 4) ∧
    (∃ (s : State) (m : Fin 256) (f : TxFrame), SMap.get none s.tm.tx m.val = some f ∧ f.whole = true ∧ f.a.bytes.length + 4 ≤ s.txMax m ∧ s.flag .lmac_PORT_STATUS [m.val] f_lmac_PORT_STATUS_link_up = false) ∧
    (∃ (s : State) (m : Fin 256) (ty : Nat) (sq : Nat) (ts : Nat) (rest : List (Nat × Nat × Nat)), (s.port m).tsFifo = (ty, sq, ts) :: rest) ∧
    (∃ (s : State) (m : Fin 256) (v : Word), s.isPort m = true ∧ f_lmac_PORT_CTRL_enable.get v = 1 ∧ s.portState m = 0 ∧ s.flag .lmac_PORT_STATUS [m.val] f_lmac_PORT_STATUS_restart_pending = false ∧ s.pdOn (if m.val < 128 then 12 else 13) = true) :=
  ⟨⟨(wt on tf), 0, tf, 0, by decide +kernel⟩,
    ⟨((wt on {tf with a := {ad 5 with bytes := List.replicate 61 0}})), 0, {tf with a := {ad 5 with bytes := List.replicate 61 0}}, by decide +kernel⟩,
    ⟨((wt on tf).setFlag .lmac_PORT_STATUS [0] f_lmac_PORT_STATUS_link_up false), 0, tf, by decide +kernel⟩,
    ⟨(on.modPort 0 fun p => {p with tsFifo := [(1,2,3)]}), 0, 1, 2, 3, [], by decide +kernel⟩,
    ⟨(off on 0), 0, (f_lmac_PORT_CTRL_enable.mask), by decide +kernel⟩⟩

theorem witness_LinePortCommandsComplete_2 :
    (∃ (s : State) (m : Fin 256), s.portState m = 1) ∧
    (∃ (s : State) (m : Fin 256), s.portState m = 3 ∧ ((s.port m).rx).all (·.ended) = true ∧ SMap.get none s.tm.tx m.val = none) ∧
    (∃ (s : State) (m : Fin 256) (f : TxFrame) (c : Nat) (qn : Nat), SMap.get none s.tm.tx m.val = some f ∧ f.whole = true ∧ (s.port m).pauseQ = [(c, qn)]) :=
  ⟨⟨(off on 1), 0, by decide +kernel⟩,
    ⟨(off on 3), 0, by decide +kernel⟩,
    ⟨((wt on tf).modPort 0 fun p => {p with pauseQ := [(8,5)]}), 0, tf, 8, 5, by decide +kernel⟩⟩

end Sys2Proof.Tests.W10

/-! ### Witnesses of part 12 of the statements -/

namespace Sys2Proof.Tests.W12
open Sys2Proof.Tests

def ls (s : State) (l n : Nat) : State := s.setFld .fab_LANE_STATUS [l] f_fab_LANE_STATUS_state n
def cc : FCell := {kind := 1, dst := 0, src := 7, pkt := 9, idx := 1, len := 700, payload := List.replicate 256 3}
def hh (c : FCell) : BitVec 128 := BitVec.ofNat 128 c.header
def fl : Flow := ⟨4, 6, 2, false, 0, 0⟩
def fl1 : Flow := ⟨4, 6, 2, false, 1000, 0⟩
def rr1 : Reasm := {hdr := cc, since := 4, cells := [(1, ([], 5))]}
def M1 : Nat := 2^60 + 5*2^44 + 3*2^41 + 77
def M2 : Nat := 2*2^60 + 5*2^44 + 3*2^41 + 77
def W (f : TmSt → TmSt) (s : State) : State := {s with tm := f s.tm}
def fr (s : State) : State := s.setFld .qmg_STATUS [] f_qmg_STATUS_free_cells 1000
def cc2 : FCell := {cc with dst := 3}
def badh : BitVec 128 := hh cc2 ^^^ 1
def sv (s : State) : State := (s.setFlag .twn_STATUS [] f_twn_STATUS_serve true)
def qp (i : Nat) (len : Nat) : QPkt := {id := i, a := {seq := 3, fid := 1, inMac := 0, ts := 0, bytes := [], queue := 0, dp := 0}, len}
def wq (s : State) (q : Nat) (x : Queue) : State := s.modQ q fun _ => x
def sm (s : State) : State := (s.setFld .fab_SYS_MAP [5] f_fab_SYS_MAP_dev 4).setFld .fab_SYS_MAP [5] f_fab_SYS_MAP_valid 1
def ccc : FCell := {cc with kind := 2}
def csnd (s : State) : State := s.modLane 5 fun x => {x with tx := [ccc, cc]}
def csn2 (s : State) : State := s.modLane 5 fun x => {x with tx := [cc, ccc, ccc]}
def c9 : FCell := {cc with idx := 0}
def V5 : Word := 32
def MH : Nat := 2^60+2^59+2^58+5*2^48+2^44+3*2^35+256*2^23+32*2^15
def MR : Nat := 2*2^60+3*2^55+0xF0F0F0F0
def MS : Nat := 3*2^60+3
def MC : Nat := 4*2^60+2^59+3
def LK (s : State) (m : Nat) : State := s.modLane 69 fun x => {x with link := [(m,7)], acks := 2, ackSent := true, reach := 2^1024-1, freed0 := 5, recv0 := 1}

theorem witness_FabricCellCommandsComplete_1 :
    (∃ (s : State) (l : Fin 320) (h : BitVec 128) (c : FCell) (cells : List (Nat × FCell)), 2 ≤ s.laneState l ∧ s.laneState l ≤ 4 ∧ crc16 ((natBE 16 h.toNat).take 14) ≠ h.toNat % 65536 ∧ s.tm.rxData = (l.val, c) :: cells ∧ s.tm.reasm = [] ∧ s.freeCells ≠ 0 ∧ 512 < c.len ∧ c.idx < cellsOf c.len) ∧
    (∃ (s : State) (l : Fin 320) (h : BitVec 128) (p : List Byte) (c : FCell), s.laneState l = 4 ∧ crc16 ((natBE 16 h.toNat).take 14) = h.toNat % 65536 ∧ c = FCell.ofHeader h.toNat p ∧ c.kind = 1 ∧ s.cellMine c = true) ∧
    (∃ (s : State) (l : Fin 320) (h : BitVec 128) (p : List Byte) (c : FCell), s.laneState l = 4 ∧ crc16 ((natBE 16 h.toNat).take 14) = h.toNat % 65536 ∧ c = FCell.ofHeader h.toNat p ∧ c.kind = 1 ∧ s.cellMine c = false) ∧
    (∃ (s : State) (l : Fin 320) (h : BitVec 128), s.laneState l = 2 ∧ (s.lane l).good = 7 ∧ crc16 ((natBE 16 h.toNat).take 14) = h.toNat % 65536) ∧
    (∃ (s : State) (l : Fin 320) (c : FCell) (src : Nat) (cells : List (Nat × FCell)) (r : Reasm) (cls : Fin 8), s.tm.rxData = (l.val, c) :: cells ∧ s.tm.reasm.find? (fun r => r.hdr.src == c.src && r.hdr.pkt == c.pkt) = some r ∧ (SMap.find? r.cells c.idx).isSome = true ∧ c.len = r.hdr.len ∧ c.port = r.hdr.port ∧ c.cls = r.hdr.cls ∧ c.dp = r.hdr.dp ∧ c.tag = r.hdr.tag ∧ c.idx < cellsOf c.len) :=
  ⟨⟨(W (fun x => {x with rxData := [(5, cc)]}) (fr (ls on 5 4))), 5, badh, cc, [], by decide +kernel⟩,
    ⟨(ls on 5 4), 5, (hh cc), cc.payload, (FCell.ofHeader (hh cc).toNat cc.payload), by decide +kernel⟩,
    ⟨(ls on 5 4), 5, (hh cc2), cc.payload, (FCell.ofHeader (hh cc2).toNat cc.payload), by decide +kernel⟩,
    ⟨((ls on 5 2).modLane 5 fun x => {x with good := 7}), 5, (hh cc), by decide +kernel⟩,
    ⟨(W (fun x => {x with rxData := [(5, cc)], reasm := [rr1]}) (fr (ls on 5 4))), 5, cc, 0, [], rr1, 0, by decide +kernel⟩⟩

theorem witness_FabricCellCommandsComplete_2 :
    (∃ (s : State) (src : Nat) (r : Reasm) (sr : Fin 1024) (pk : BitVec 23), s.tm.reasm.find? (fun r => r.hdr.src == sr.val && r.hdr.pkt == pk.toNat) = some r ∧ s.passed r.since (2 * max 1 (s.fld .fab_CFG [] f_fab_CFG_reasm_timeout)) = true ∧ r.hdr.src = sr.val ∧ r.hdr.pkt = pk.toNat) ∧
    (∃ (s : State) (src : Nat) (m : Nat) (msgs : List (Nat × Bool × Nat)), s.tm.rxMsgs = (src, false, m) :: msgs ∧ m / 2 ^ 60 = 1 ∧ s.tm.flows = []) ∧
    (∃ (s : State) (src : Nat) (m : Nat) (pr : Bool) (msgs : List (Nat × Bool × Nat)) (q : Fin 524288), s.tm.rxMsgs = (src, pr, m) :: msgs ∧ m / 2 ^ 60 = 2 ∧ s.gap = false ∧ q.val = bitsOf m 44 16 * 8 + bitsOf m 41 3 ∧ s.fld .fab_SYS_MAP [bitsOf m 44 16] f_fab_SYS_MAP_valid = 0) ∧
    (∃ (s : State) (src : Nat) (m : Nat) (pr : Bool) (msgs : List (Nat × Bool × Nat)) (q : Fin 524288), s.tm.rxMsgs = (src, pr, m) :: msgs ∧ m / 2 ^ 60 = 2 ∧ s.gap = false ∧ q.val = bitsOf m 44 16 * 8 + bitsOf m 41 3 ∧ s.fld .fab_SYS_MAP [bitsOf m 44 16] f_fab_SYS_MAP_valid = 1 ∧ s.fld .fab_SYS_MAP [bitsOf m 44 16] f_fab_SYS_MAP_pair = 0 ∧ s.fld .fab_SYS_MAP [bitsOf m 44 16] f_fab_SYS_MAP_dev = src ∧ (s.q q).pkts ≠ [] ∧ 0 ≤ (s.q q).balance ∧ (s.q q).balance < 2 ^ 30) ∧
    (∃ (s : State) (n : Nat) (f : Flow) (sys : Fin 65536) (cls : Fin 8) (po : Fin 256), s.isPort po = true ∧ s.gap = false ∧ s.tm.flows = [f] ∧ f.cls < 8 ∧ f.est ≠ 0 ∧ s.fld .fab_SYS_MAP [f.sys] f_fab_SYS_MAP_port = po.val ∧ s.grantStopped po f.cls = false ∧ n = max 1 (s.fld .fab_GRANT_CFG [] f_fab_GRANT_CFG_quantum) ∧ n * unitBits ≤ (s.budgetNow po).level) :=
  ⟨⟨(W (fun x => {x with reasm := [rr1]}) (fr (ls on 5 4))), 0, rr1, 7, 9, by decide +kernel⟩,
    ⟨(W (fun x => {x with rxMsgs := [(4, false, M1)]}) (fr (ls on 5 4))), 4, M1, [], by decide +kernel⟩,
    ⟨(W (fun x => {x with rxMsgs := [(4, false, M2)]}) (sv on)), 4, M2, false, [], 43, by decide +kernel⟩,
    ⟨(wq (W (fun x => {x with rxMsgs := [(4, false, M2)]}) (sm (sv on))) 43 {state := 2, pkts := [qp 0 3]}), 4, M2, false, [], 43, by decide +kernel⟩,
    ⟨(W (fun x => {x with flows := [fl1], budgets := [(0, {level := 100*unitBits, at' := 0})]}) (sv (on.setFld .fab_GRANT_CFG [] f_fab_GRANT_CFG_quantum 5))), 5, fl1, 0, 0, 0, by decide +kernel⟩⟩

theorem witness_FabricCellCommandsComplete_3 :
    (∃ (s : State) (src : Nat) (fl : List Flow) (f : Flow) (sr : Fin 1024) (sys : Fin 65536) (cls : Fin 8), s.tm.flows = f :: fl ∧ f.src = sr.val ∧ f.sys = sys.val ∧ f.cls = cls.val ∧ f.est = 0 ∧ s.passed f.zeroSince (20 * max 1 (s.fld .fab_GRANT_CFG [] f_fab_GRANT_CFG_req_interval)) = true) ∧
    (∃ (s : State) (n : Nat) (msgs : List (Nat × Bool × Nat)) (q : Fin 524288), (s.q q).pkts ≠ [] ∧ (s.q q).balance ≤ 0 ∧ s.serves = true ∧ s.passed (s.q q).requestAt (2 * max 1 (s.fld .fab_GRANT_CFG [] f_fab_GRANT_CFG_req_interval)) = true ∧ s.fld .fab_SYS_MAP [q.val / 8] f_fab_SYS_MAP_valid = 1 ∧ s.fld .fab_SYS_MAP [q.val / 8] f_fab_SYS_MAP_pair = 0 ∧ s.fld .fab_SYS_MAP [q.val / 8] f_fab_SYS_MAP_dev = n ∧ SMap.get (0, []) s.tm.msgs (n * 2) = (0, [])) ∧
    (∃ (s : State) (src : Nat) (m : Nat) (msgs : List (Nat × Bool × Nat)) (sr : Fin 1024) (b : Bool), SMap.get (0, []) s.tm.msgs (sr.val * 2 + if b then 1 else 0) = (src, [m]) ∧ s.serves = true ∧ s.passed src (2 * max 1 (s.fld .fab_CFG [] f_fab_CFG_ctrl_flush)) = true) ∧
    (∃ (s : State) (l : Fin 320) (c : FCell), s.serves = true ∧ s.d2dHealth ≠ 2 ∧ s.tm.ctrlQ = [c] ∧ c.kind = 2 ∧ c.pair = false ∧ c.trace = 0 ∧ s.laneFor c = some l.val) ∧
    (∃ (s : State) (l : Fin 320) (c : FCell) (l' : List FCell), (s.lane l).tx = c :: l' ∧ c.kind = 2) :=
  ⟨⟨(W (fun x => {x with flows := [fl,fl1]}) (sv on)), 4, [fl1], fl, 4, 6, 2, by decide +kernel⟩,
    ⟨(wq (sm (sv on)) 43 {state := 2, pkts := [qp 0 3], depth := 300}), 4, [], 43, by decide +kernel⟩,
    ⟨(W (fun x => {x with msgs := [(9, (4, [M2]))]}) (sv on)), 4, M2, [], 4, true, by decide +kernel⟩,
    ⟨(((W (fun x => {x with ctrlQ := [ccc]}) (ls (sv on) 5 4))).modLane 5 fun x => {x with offer1 := 9, reach := 1}), 5, ccc, by decide +kernel⟩,
    ⟨(csnd on), 5, ccc, [cc], by decide +kernel⟩⟩

theorem witness_FabricCellCommandsComplete_4 :
    (∃ (s : State) (l : Fin 320) (c : FCell) (src : Nat) (cells : List (Nat × FCell)) (r : Reasm) (cls : Fin 8), s.tm.rxData = (l.val, c) :: cells ∧ s.tm.reasm = [r] ∧ r.hdr.src = c.src ∧ r.hdr.pkt = c.pkt ∧ s.freeCells ≠ 0 ∧ SMap.find? r.cells c.idx = none ∧ c.len = r.hdr.len ∧ c.port = r.hdr.port ∧ c.cls = r.hdr.cls ∧ c.dp = r.hdr.dp ∧ c.tag = r.hdr.tag ∧ c.idx < cellsOf c.len) ∧
    (∃ (s : State) (l : Fin 320) (c : FCell) (l' : List FCell) (d : _), (s.lane l).tx = d :: c :: l' ∧ d.kind = 1 ∧ c.kind = 2) :=
  ⟨⟨(W (fun x => {x with rxData := [(5, c9)], reasm := [rr1]}) (fr (ls on 5 4))), 5, c9, 0, [], rr1, 0, by decide +kernel⟩,
    ⟨(csn2 (ls on 5 4)), 5, ccc, [ccc], cc, by decide +kernel⟩⟩

theorem witness_LaneCommandsComplete_1 :
    (∃ (s : State) (l : Fin 320) (i : Fin 5) (v : Word), s.d2dHealth ≠ 2 ∧ l.val / 64 = i.val ∧ bitOf v.toNat (l.val % 64) = false ∧ s.laneState l = 4 ∧ (s.lane l).reachAt = none) ∧
    (∃ (s : State) (l : Fin 320), s.laneState l = 1 ∧ (s.lane l).posted = false ∧ s.passed (s.lane l).since 200000000 = true) ∧
    (∃ (s : State) (l : Fin 320), s.d2dHealth ≠ 2 ∧ s.laneState l = 3 ∧ (s.lane l).helloAt = 0 ∧ (s.lane l).heard = false ∧ (s.lane l).ackSent = false ∧ s.passed (s.lane l).since 20000000 = true) ∧
    (∃ (s : State) (l : Fin 320) (i : Fin 5) (v : Word), s.d2dHealth ≠ 2 ∧ l.val / 64 = i.val ∧ bitOf v.toNat (l.val % 64) = true ∧ s.laneState l = 0 ∧ (s.lane l).restart = false ∧ s.pdOn (laneDomain l) = true) ∧
    (∃ (s : State) (l : Fin 320), s.laneState l = 5) :=
  ⟨⟨(ls on 69 4), 69, 1, 0, by decide +kernel⟩,
    ⟨({ls on 69 1 with cycle := 200000001}), 69, by decide +kernel⟩,
    ⟨({ls on 69 3 with cycle := 200000001}), 69, by decide +kernel⟩,
    ⟨(ls on 69 0), 69, 1, V5, by decide +kernel⟩,
    ⟨(ls on 69 5), 69, by decide +kernel⟩⟩

theorem witness_LaneCommandsComplete_2 :
    (∃ (s : State) (l : Fin 320) (m : Nat) (k : Nat) (rest : List (Nat × Nat)), (s.lane l).link = (m, k) :: rest ∧ m / 2 ^ 60 = 1 ∧ s.laneState l = 3 ∧ bitsOf m 44 4 = 1 ∧ bitOf m 58 = true ∧ bitOf m 59 = true) ∧
    (∃ (s : State) (l : Fin 320) (m : Nat) (k : Nat) (rest : List (Nat × Nat)), (s.lane l).link = (m, k) :: rest ∧ m / 2 ^ 60 = 2) ∧
    (∃ (s : State) (l : Fin 320) (m : Nat) (k : Nat) (rest : List (Nat × Nat)), (s.lane l).link = (m, k) :: rest ∧ m / 2 ^ 60 = 3 ∧ bitOf m 59 = false) ∧
    (∃ (s : State) (l : Fin 320) (m : Nat) (k : Nat) (rest : List (Nat × Nat)), (s.lane l).link = (m, k) :: rest ∧ m / 2 ^ 60 = 4 ∧ bitOf m 59 = true) ∧
    (∃ (s : State) (l : Fin 320), s.laneState l = 0 ∧ (s.lane l).restart = true ∧ s.pdOn (laneDomain l) = true) :=
  ⟨⟨(LK (ls on 69 3) MH), 69, MH, 7, [], by decide +kernel⟩,
    ⟨(LK (ls on 69 3) MR), 69, MR, 7, [], by decide +kernel⟩,
    ⟨(LK (ls on 69 3) MS), 69, MS, 7, [], by decide +kernel⟩,
    ⟨(LK (ls on 69 3) MC), 69, MC, 7, [], by decide +kernel⟩,
    ⟨((ls on 69 0).modLane 69 fun x => {x with restart := true}), 69, by decide +kernel⟩⟩

end Sys2Proof.Tests.W12

/-! ### Witnesses of part 13 of the statements -/

namespace Sys2Proof.Tests.W13
open Sys2Proof.Tests

def hs (s : State) (k n : Nat) : State := s.hSet k f_tm_hmc_CH_STATUS_state n
def hf (s : State) (k : Nat) : State := s.hSet k f_tm_hmc_CH_STATUS_frozen 1
def q0 : HReq := {tag := 5, home := 3, cls := 3, gran := 77, wdata := none, at' := 3, id := 2}
def qw : HReq := {q0 with wdata := some (List.replicate 64 9)}
def q1 : HReq := {q0 with turn := 4}
def qw1 : HReq := {qw with turn := 4}
def qc : HReq := {q0 with cls := 0}
def X (f : HChan → HChan) (s : State) (k : Nat) : State := s.modH k f
def D : List Byte := List.replicate 64 9
def T0 (s : State) (k : Nat) : Nat := s.fld (hReg .tm_hmc_PAGE_CFG .fe_hmc_PAGE_CFG k []).1 (hReg .tm_hmc_PAGE_CFG .fe_hmc_PAGE_CFG k []).2 f_tm_hmc_PAGE_CFG_idle_timer
def A1 : State := X (fun x => {x with queue := [qw]}) (hs on 177 2) 177
def A3 : State := X (fun x => {x with queue := [q1]}) (hs on 7 2) 7
def A3s : State := X (fun x => {x with queue := [{q1 with scrub := true}]}) (hs on 177 2) 177
def A4 : State := X (fun x => {x with queue := [qw1]}) (hs on 7 2) 7
def qws : HReq := {qw1 with scrub := true}
def A4s : State := X (fun x => {x with queue := [qws]}) (hs on 7 2) 7
def A5 : State := ((hs on 7 2).modBank 7 4 fun x => {x with row := some 3}).setFld .tm_hmc_PAGE_CFG [7] f_tm_hmc_PAGE_CFG_idle_timer 4
def A6 : State := X (fun x => {x with queue := [qc]}) (hs on 7 2) 7
def BK : Fin 96 := Fin.ofNat 96 (A6.bankOf 7 77)
def A8 : State := let s := (A6.modBank 7 BK fun x => {x with row := some (rowOf' 77), lastAt := 0}).setFld .tm_hmc_PAGE_CFG [7] f_tm_hmc_PAGE_CFG_idle_timer 4
  {s with cycle := 9}
def RR (k : Nat) := hReg .tm_hmc_TRAIN_RESULT .fe_hmc_TRAIN_RESULT k []
def RC (k : Nat) := hReg .tm_hmc_CAP_INFO .fe_hmc_CAP_INFO k []
def c0 : HCmd := {cmd := 6, bank := 3}
def tc0 : TrainCmd := {cmd := 1, pc := 1, pattern := 2, bursts := 1}
def BC : State := (hs on 7 2).setFld .d2d_STATUS [] f_d2d_STATUS_health 2
def B1 : State := (hf (hs on 177 2) 177).hSet 177 f_tm_hmc_CH_STATUS_capture_read 1
def B2 : State := X (fun x => {x with releasing := true}) (hs on 177 3) 177
def B3 (k : Nat) (tc : TrainCmd) : State := X (fun x => {x with cmdRunning := some tc}) (hs on k 1) k
def B4 : State := (((hs {on with boot := {on.boot with mgmtUp := true}} 7 2).setFlag .tm_hmc_RETRAIN_CFG [] f_tm_hmc_RETRAIN_CFG_enable true).setFld .tm_hmc_RETRAIN_CFG [] f_tm_hmc_RETRAIN_CFG_retrain_delta 4).setFld .gkp_TASK_STATUS [5] f_gkp_TASK_STATUS_state 2

theorem witness_HbmRequestCommandsComplete_1 :
    (∃ (s : State) (k : Fin 192) (cls : Fin 4) (g : Fin 12582912) (d : List Byte) (q : HReq) (n : Nat) (m : Nat) (t0 : Nat) (b : Fin 96) (mo : Fin 64) (x : HChan), s.hchan k = x ∧ n = min (mo.val + 1) (12582912 - g.val) ∧ t0 = s.fld (hReg .tm_hmc_PAGE_CFG .fe_hmc_PAGE_CFG k []).1 (hReg .tm_hmc_PAGE_CFG .fe_hmc_PAGE_CFG k []).2 f_tm_hmc_PAGE_CFG_idle_timer ∧ (k.val < 128 ∨ 2 ≤ cls.val) ∧ s.hFrozen k = false ∧ x.queue = [q] ∧ x.input = [] ∧ q.gran = g.val ∧ q.n = 1 ∧ q.wdata = some d ∧ d.length = 64 ∧ q.scrub = false ∧ q.turn = 0 ∧ q.promoted = false ∧ 0 < s.ageLimit k q.cls ∧ s.passed q.at' (s.ageLimit k q.cls) = true ∧ s.hState k = 2 ∧ s.hPaused k = false ∧ x.save = none ∧ 0 < q.n ∧ q.fwd = [] ∧ s.hState k ≠ 0 ∧ (s.hbank k b).postponed = m ∧ q.cls ≠ 0) ∧
    (∃ (s : State) (k : Fin 192) (g : Fin 12582912) (q : HReq) (n : Nat) (t0 : Nat) (mo : Fin 64) (x : HChan), s.hchan k = x ∧ n = min (mo.val + 1) (12582912 - g.val) ∧ t0 = s.fld (hReg .tm_hmc_PAGE_CFG .fe_hmc_PAGE_CFG k []).1 (hReg .tm_hmc_PAGE_CFG .fe_hmc_PAGE_CFG k []).2 f_tm_hmc_PAGE_CFG_idle_timer ∧ s.hFrozen k = false ∧ x.save = none ∧ x.queue = [q] ∧ x.input = [] ∧ q.turn ≠ 0 ∧ q.wdata = none ∧ q.scrub = false) ∧
    (∃ (s : State) (k : Fin 192) (g : Fin 12582912) (d : List Byte) (q : HReq) (n : Nat) (t0 : Nat) (mo : Fin 64) (x : HChan), s.hchan k = x ∧ n = min (mo.val + 1) (12582912 - g.val) ∧ t0 = s.fld (hReg .tm_hmc_PAGE_CFG .fe_hmc_PAGE_CFG k []).1 (hReg .tm_hmc_PAGE_CFG .fe_hmc_PAGE_CFG k []).2 f_tm_hmc_PAGE_CFG_idle_timer ∧ s.hFrozen k = false ∧ x.save = none ∧ x.queue = [q] ∧ x.input = [] ∧ q.turn ≠ 0 ∧ q.wdata = some d ∧ q.scrub = false ∧ d.length = 64 ∧ q.n = 1 ∧ k.val < 128 ∧ d.length = 64 * q.n) ∧
    (∃ (s : State) (k : Fin 192) (cls : Fin 4) (g : Fin 12582912) (n : Nat) (m : Nat) (t0 : Nat) (b : Fin 96) (mo : Fin 64) (x : HChan), s.hchan k = x ∧ n = min (mo.val + 1) (12582912 - g.val) ∧ t0 = s.fld (hReg .tm_hmc_PAGE_CFG .fe_hmc_PAGE_CFG k []).1 (hReg .tm_hmc_PAGE_CFG .fe_hmc_PAGE_CFG k []).2 f_tm_hmc_PAGE_CFG_idle_timer ∧ (k.val < 128 ∨ 2 ≤ cls.val) ∧ s.hFrozen k = false ∧ x.queue = [] ∧ x.input = [] ∧ (s.hbank k b).row = some m ∧ 0 < t0 ∧ s.passed (s.hbank k b).lastAt (2 * t0) = true ∧ ((s.hbank k b).lastAt + 2 * t0 + 1 < s.cycle ∨ s.rowChosen k b = false)) ∧
    (∃ (s : State) (k : Fin 192) (cls : Fin 4) (g : Fin 12582912) (q : HReq) (n : Nat) (m : Nat) (t0 : Nat) (b : Fin 96) (mo : Fin 64) (x : HChan), s.hchan k = x ∧ n = min (mo.val + 1) (12582912 - g.val) ∧ t0 = s.fld (hReg .tm_hmc_PAGE_CFG .fe_hmc_PAGE_CFG k []).1 (hReg .tm_hmc_PAGE_CFG .fe_hmc_PAGE_CFG k []).2 f_tm_hmc_PAGE_CFG_idle_timer ∧ (s.hbank k b).row = some m ∧ s.hFrozen k = false ∧ 0 < t0 ∧ s.passed (s.hbank k b).lastAt (2 * t0) = true ∧ s.cycle ≤ (s.hbank k b).lastAt + 2 * t0 + 1 ∧ s.rowChosen k b = true ∧ s.hState k ≠ 0 ∧ x.queue = [q] ∧ (s.hbank k b).postponed = m ∧ q.turn = 0 ∧ (q.cls = 0 ∨ q.promoted = true) ∧ (∃ i < q.n, s.bankOf k (q.gran + i) = b.val)) :=
  ⟨⟨A1, 177, 2, 77, D, qw, (4:Nat), 0, (T0 A1 177), 0, 3, ((A1).hchan 177), by decide +kernel⟩,
    ⟨A3, 7, 77, q1, (4:Nat), (T0 A3 7), 3, ((A3).hchan 7), by decide +kernel⟩,
    ⟨A4, 7, 77, D, qw1, (4:Nat), (T0 A4 7), 3, ((A4).hchan 7), by decide +kernel⟩,
    ⟨A5, 7, 2, 77, (4:Nat), 3, (T0 A5 7), 4, 3, ((A5).hchan 7), by decide +kernel⟩,
    ⟨A8, 7, 2, 77, qc, (4:Nat), (rowOf' 77), (T0 A8 7), BK, 3, ((A8).hchan 7), by decide +kernel⟩⟩

theorem witness_HbmRequestCommandsComplete_2 :
    (∃ (s : State) (k : Fin 192) (cls : Fin 4) (g : Fin 12582912) (n : Nat) (t0 : Nat) (mo : Fin 64) (x : HChan), s.hchan k = x ∧ n = min (mo.val + 1) (12582912 - g.val) ∧ t0 = s.fld (hReg .tm_hmc_PAGE_CFG .fe_hmc_PAGE_CFG k []).1 (hReg .tm_hmc_PAGE_CFG .fe_hmc_PAGE_CFG k []).2 f_tm_hmc_PAGE_CFG_idle_timer ∧ (k.val < 128 ∨ 2 ≤ cls.val) ∧ s.hFrozen k = true) ∧
    (∃ (s : State) (k : Fin 192) (cls : Fin 4) (g : Fin 12582912) (n : Nat) (t0 : Nat) (mo : Fin 64) (x : HChan), s.hchan k = x ∧ n = min (mo.val + 1) (12582912 - g.val) ∧ t0 = s.fld (hReg .tm_hmc_PAGE_CFG .fe_hmc_PAGE_CFG k []).1 (hReg .tm_hmc_PAGE_CFG .fe_hmc_PAGE_CFG k []).2 f_tm_hmc_PAGE_CFG_idle_timer ∧ 128 ≤ k.val ∧ cls.val < 2) ∧
    (∃ (s : State) (k : Fin 192) (g : Fin 12582912) (q : HReq) (n : Nat) (t0 : Nat) (mo : Fin 64) (x : HChan), s.hchan k = x ∧ n = min (mo.val + 1) (12582912 - g.val) ∧ t0 = s.fld (hReg .tm_hmc_PAGE_CFG .fe_hmc_PAGE_CFG k []).1 (hReg .tm_hmc_PAGE_CFG .fe_hmc_PAGE_CFG k []).2 f_tm_hmc_PAGE_CFG_idle_timer ∧ s.hFrozen k = false ∧ x.save = none ∧ x.queue = [q] ∧ x.input = [] ∧ q.turn ≠ 0 ∧ q.wdata = none ∧ q.scrub = true ∧ q.n = 1) ∧
    (∃ (s : State) (k : Fin 192) (g : Fin 12582912) (d : List Byte) (q : HReq) (n : Nat) (t0 : Nat) (mo : Fin 64) (x : HChan), s.hchan k = x ∧ n = min (mo.val + 1) (12582912 - g.val) ∧ t0 = s.fld (hReg .tm_hmc_PAGE_CFG .fe_hmc_PAGE_CFG k []).1 (hReg .tm_hmc_PAGE_CFG .fe_hmc_PAGE_CFG k []).2 f_tm_hmc_PAGE_CFG_idle_timer ∧ s.hFrozen k = false ∧ x.save = none ∧ x.queue = [q] ∧ x.input = [] ∧ q.turn ≠ 0 ∧ q.wdata = some d ∧ q.scrub = true) :=
  ⟨⟨(hf on 7), 7, 2, 77, (4:Nat), (T0 (hf on 7) 7), 3, (((hf on 7)).hchan 7), by decide +kernel⟩,
    ⟨(hf on 177), 177, 1, 77, (4:Nat), (T0 (hf on 177) 177), 3, (((hf on 177)).hchan 177), by decide +kernel⟩,
    ⟨A3s, 177, 77, {q1 with scrub := true}, (4:Nat), (T0 A3s 177), 3, ((A3s).hchan 177), by decide +kernel⟩,
    ⟨A4s, 7, 77, D, qws, (4:Nat), (T0 A4s 7), 3, ((A4s).hchan 7), by decide +kernel⟩⟩

theorem witness_HbmChannelCommandsComplete_1 :
    (∃ (s : State) (k : Fin 192) (i : Fin 64) (tc : TrainCmd) (la : BitVec 8) (r : Reg × List Nat) (ci : Reg × List Nat) (x : HChan), s.hchan k = x ∧ r = hReg .tm_hmc_TRAIN_RESULT .fe_hmc_TRAIN_RESULT k [] ∧ ci = hReg .tm_hmc_CAP_INFO .fe_hmc_CAP_INFO k [] ∧ x.cmds[i.val]? = none ∧ s.tmClosed (ci.1.addr ci.2) = false ∧ s.hState k = 1 ∧ x.pausedAt = 0 ∧ la.toNat ≤ 35 ∧ x.cmdRunning = some tc) ∧
    (∃ (s : State) (k : Fin 192) (n : Nat) (te : Int) (r : Reg × List Nat) (ci : Reg × List Nat) (x : HChan), s.hchan k = x ∧ r = hReg .tm_hmc_TRAIN_RESULT .fe_hmc_TRAIN_RESULT k [] ∧ ci = hReg .tm_hmc_CAP_INFO .fe_hmc_CAP_INFO k [] ∧ s.hState k = 2 ∧ s.tmClosed (ci.1.addr ci.2) = false ∧ s.hFrozen k = false ∧ s.retrainOn k = true ∧ s.taskRuns 5 = true ∧ s.passed x.oscAt (max 1 (s.fld (retrainCfg k).1 (retrainCfg k).2 f_tm_hmc_RETRAIN_CFG_osc_interval) * 2000) = true ∧ n = s.fld (retrainCfg k).1 (retrainCfg k).2 f_tm_hmc_RETRAIN_CFG_retrain_delta ∧ 0 < n ∧ 8 * n ≤ (te - x.trainedTemp).natAbs ∧ (∀ j < 192, (s.hchan j).pausedAt = 0)) ∧
    (∃ (s : State) (k : Fin 192) (i : Fin 64) (c : HCmd) (r : Reg × List Nat) (ci : Reg × List Nat) (x : HChan), s.hchan k = x ∧ r = hReg .tm_hmc_TRAIN_RESULT .fe_hmc_TRAIN_RESULT k [] ∧ ci = hReg .tm_hmc_CAP_INFO .fe_hmc_CAP_INFO k [] ∧ s.hFrozen k = false ∧ x.cmds[i.val]? = some c) ∧
    (∃ (s : State) (k : Fin 192) (r : Reg × List Nat) (ci : Reg × List Nat) (x : HChan), s.hchan k = x ∧ r = hReg .tm_hmc_TRAIN_RESULT .fe_hmc_TRAIN_RESULT k [] ∧ ci = hReg .tm_hmc_CAP_INFO .fe_hmc_CAP_INFO k [] ∧ s.tmClosed (ci.1.addr ci.2) = true) ∧
    (∃ (s : State) (k : Fin 192) (r : Reg × List Nat) (ci : Reg × List Nat) (x : HChan), s.hchan k = x ∧ r = hReg .tm_hmc_TRAIN_RESULT .fe_hmc_TRAIN_RESULT k [] ∧ ci = hReg .tm_hmc_CAP_INFO .fe_hmc_CAP_INFO k [] ∧ s.hState k = 2 ∧ s.tmClosed (ci.1.addr ci.2) = false ∧ s.hFrozen k = true ∧ s.hFlag k f_tm_hmc_CH_STATUS_capture_read = true) :=
  ⟨⟨(B3 177 tc0), 177, 0, tc0, 3, (RR 177), (RC 177), (((B3 177 tc0)).hchan 177), by decide +kernel⟩,
    ⟨B4, 7, 4, 40, (RR 7), (RC 7), ((B4).hchan 7), by decide +kernel⟩,
    ⟨(X (fun x => {x with cmds := [c0]}) (hs on 7 2) 7), 7, 0, c0, (RR 7), (RC 7), (((X (fun x => {x with cmds := [c0]}) (hs on 7 2) 7)).hchan 7), by decide +kernel⟩,
    ⟨BC, 7, (RR 7), (RC 7), ((BC).hchan 7), by decide +kernel⟩,
    ⟨B1, 177, (RR 177), (RC 177), ((B1).hchan 177), by decide +kernel⟩⟩

theorem witness_HbmChannelCommandsComplete_2 :
    (∃ (s : State) (k : Fin 192) (r : Reg × List Nat) (ci : Reg × List Nat) (x : HChan), s.hchan k = x ∧ r = hReg .tm_hmc_TRAIN_RESULT .fe_hmc_TRAIN_RESULT k [] ∧ ci = hReg .tm_hmc_CAP_INFO .fe_hmc_CAP_INFO k [] ∧ s.hState k = 3) ∧
    (∃ (s : State) (k : Fin 192) (r : Reg × List Nat) (ci : Reg × List Nat) (x : HChan), s.hchan k = x ∧ r = hReg .tm_hmc_TRAIN_RESULT .fe_hmc_TRAIN_RESULT k [] ∧ ci = hReg .tm_hmc_CAP_INFO .fe_hmc_CAP_INFO k [] ∧ s.hState k = 0 ∧ x.pausedAt = 0) :=
  ⟨⟨B2, 177, (RR 177), (RC 177), ((B2).hchan 177), by decide +kernel⟩,
    ⟨(hs on 17 0), 17, (RR 17), (RC 17), (((hs on 17 0)).hchan 17), by decide +kernel⟩⟩

end Sys2Proof.Tests.W13

/-! ### Witnesses of part 14 of the statements -/

namespace Sys2Proof.Tests.W14
open Sys2Proof.Tests

def rs (s : State) (i n : Nat) : State := s.setFld .twn_RALLY_LANE [i] f_twn_RALLY_LANE_state n
def ts (s : State) (n src srv : Nat) : State := ((s.setFld .twn_STATUS [] f_twn_STATUS_state n).setFld .twn_STATUS [] f_twn_STATUS_log_source src).setFld .twn_STATUS [] f_twn_STATUS_serve srv
def W (f : TwinSt → TwinSt) (s : State) : State := {s with twin := f s.twin}
def en (s : State) : State := (s.setFlag .twn_CFG [] f_twn_CFG_enable true).setFlag .twn_CTRL [] f_twn_CTRL_in_step_en true
def u0 : UmpireFrame := {type := 0x81, msg := 7, crc := BitVec.ofNat 8 (crc8 (natLE 1 0x81 ++ natBE 4 7))}
def u2 : UmpireFrame := {type := 0x82, msg := 7, crc := BitVec.ofNat 8 (crc8 (natLE 1 0x82 ++ natBE 4 7))}
def ub : UmpireFrame := {type := 0x82, msg := 7, crc := BitVec.ofNat 8 (1+crc8 (natLE 1 0x82 ++ natBE 4 7))}
def b0 : Batch := {ring := some 0, resultAddr := 0, tag := 1, atomic := true, stopOnFail := false, ops := []}
def P0 : List Byte := List.replicate 256 5
def HB (ty fs used : Nat) : Nat := ty * 2 ^ 126 + 2 ^ 120 + fs * 2 ^ 88 + used * 2 ^ 39
def HH (ty fs used : Nat) : BitVec 128 := BitVec.ofNat 128 (HB ty fs used + rallyCrc (HB ty fs used) P0)
def bad : BitVec 128 := HH 1 1 4 ^^^ 1
def one (n : Nat) (x : TwinSt) : TwinSt := {x with pktPos := n}
def rp (x : TwinSt) : TwinSt := {x with linkUp := true, replay := [(9,P0)], ackAt := 0, goodAt := 0}
def HE : List Byte := [1,0,0,0,7,0,0,0]
def HE2 : List Byte := [2,0,0,0,7,0,0,0]
def rec (t low : Nat) (w : List Nat) (x : TwinSt) : TwinSt := {x with rx := (t*2^28+w.length*2^8+low)::w}
def b1 : Batch := {b0 with number := 3, results := [{tag := 0, status := 0, cause := 0, unit := 0},{tag := 0, status := 0, cause := 0, unit := 0}]}
def wb (s : State) (b : Batch) : State := {s with tab := {s.tab with batch := some b}}
def pb : PlaybookInfo := {sigOk := true, stepId := 0, compatible := [], fallback := none, regs := [], programs := [], baseOps := []}
def wp (s : State) : State := {s with boot := {s.boot with playbook := some pb}}
def f0 : RxFrame := {fid := 3, bytes := List.replicate 64 0, raw := [], size := 64, cls := 0, ts := 1000, ended := true}
def pw (kind : Nat) (l : Nat) : List Nat := [0,7,0,1000, 5*2^24+kind*2^22+l*2^14+3]
def E0 (w : List Nat) : PktEntry := entryAtWord w 4 (at64 w 2)
def O0 : OpResult := {tag := 0, status := 0, cause := 0, unit := 0}
def w1 := pw 0 64
def wf (s : State) : State := s.modPort 5 fun x => {x with rx := [f0]}
def w2 := pw 0 65
def w3 : List Nat := [0,7] ++ toWords (natLE 4 5 ++ [0,0,0,0] ++ natLE 4 2 ++ List.replicate 52 0 ++ List.replicate 128 3)
def bf : Batch := {b0 with ring := none, number := 7, ops := [[]], atomic := true}
def bg : Batch := {bf with results := [O0]}
def w4 : List Nat := [0,7,0,1,0,9]
def bs : Batch := {bg with ring := some 3}
def w5 : List Nat := [0,7,0]
def w6 : List Nat := [0,7,64,3] ++ List.replicate 26 0
def of (t : TwinSt) : TwinSt := {t with ownFolds := [(7, 99)]}
def sq (s : State) (n : Nat) : State := {s with fpc := {s.fpc with seqNext := n}}
def fo (t : TwinSt) : TwinSt := {t with folds := [(0, 99)]}
def p2 (t : TwinSt) : TwinSt := {t with phase := 2, linkUp := true}
def p2q (t : TwinSt) : TwinSt := {t with phase := 2, linkUp := true, copyQ := some []}
def p3 (t : TwinSt) : TwinSt := {t with phase := 3, linkUp := true}
def w9 : List Nat := [0x1200,0,3,1] ++ List.replicate 16 9

set_option maxRecDepth 100000 in
theorem witness_TwinLinkCommandsComplete_1 :
    (∃ (s : State) (i : Fin 8) (h : BitVec 128) (p : List Byte) (n : Nat), 2 ≤ s.rallyState i ∧ s.rallyState i ≤ 4 ∧ rallyCrc h.toNat p ≠ h.toNat % 2 ^ 32 ∧ s.twin.linkUp = true ∧ s.twin.replay = [(n, p)] ∧ s.passed s.twin.ackAt 4000 = true ∧ s.rallyNextLane = some i.val ∧ s.passed s.twin.goodAt 4000 = true ∧ s.rallyState i = 4 ∧ s.inStep = true ∧ s.flag .twn_STATUS [] f_twn_STATUS_stop_pending = false) ∧
    (∃ (s : State) (i : Fin 8) (p : List Byte) (l : List (List Byte)), s.rallyState i = 3 ∧ (s.rallyLane i).helloAt = 0 ∧ (s.rallyLane i).heard = false ∧ (s.rallyLane i).ackSent = false ∧ s.passed (s.rallyLane i).since 20000000 = true ∧ (s.rallyLane i).hello = p :: l ∧ leAt p 0 1 = 1 ∧ s.twinState = 0 ∧ s.flag .twn_STATUS [] f_twn_STATUS_restart_pending = false ∧ s.twin.linkUp = false) ∧
    (∃ (s : State) (u : UmpireFrame), s.umpireRuns = true ∧ umpireCrc u.type.toNat u.msg.toNat ≠ u.crc.toNat ∧ s.serves = false ∧ s.passed s.twin.peerAt 16001 = true ∧ s.passed s.twin.beatAt 8000 = true) ∧
    (∃ (s : State) (u : UmpireFrame), s.umpireRuns = true ∧ umpireCrc u.type.toNat u.msg.toNat = u.crc.toNat ∧ u.type = 0x81 ∧ 0 < u.msg.toNat ∧ u.msg.toNat = s.fld .twn_EPOCH [] f_twn_EPOCH_highest ∧ u.msg.toNat = s.fld .twn_EPOCH [] f_twn_EPOCH_held ∧ s.serves = true ∧ s.twin.leaseEnd ≤ s.cycle ∧ s.flag .twn_CFG [] f_twn_CFG_enable = true ∧ s.isSource = false) ∧
    (∃ (s : State) (i : Fin 8) (h : BitVec 128) (p : List Byte), rallyCrc h.toNat p = h.toNat % 2 ^ 32 ∧ bitsOf h.toNat 126 2 ≠ 3 ∧ s.rallyState i = 2 ∧ (s.rallyLane i).good = 7) :=
  ⟨⟨(W rp (rs (ts on 2 0 0) 3 4)), 3, bad, P0, 9, by decide +kernel⟩,
    ⟨((rs on 3 3).modRally 3 fun x => {x with hello := [HE]}), 3, HE, [], by decide +kernel⟩,
    ⟨(en on), ub, by decide +kernel⟩,
    ⟨(((en (ts on 2 0 1)).setFld .twn_EPOCH [] f_twn_EPOCH_highest 7).setFld .twn_EPOCH [] f_twn_EPOCH_held 7), u0, by decide +kernel⟩,
    ⟨((rs on 3 2).modRally 3 fun x => {x with good := 7}), 3, (HH 1 1 4), P0, by decide +kernel⟩⟩

set_option maxRecDepth 100000 in
theorem witness_TwinLinkCommandsComplete_2 :
    (∃ (s : State) (i : Fin 8) (h : BitVec 128) (p : List Byte), rallyCrc h.toNat p = h.toNat % 2 ^ 32 ∧ bitsOf h.toNat 126 2 ≠ 3 ∧ s.rallyState i = 4 ∧ bitsOf h.toNat 126 2 = 1 ∧ bitsOf h.toNat 88 32 = s.twin.rxNext ∧ s.twin.rxNext < 2 ^ 32 ∧ s.twin.rxAhead = [] ∧ 0 < s.twin.pktPos) ∧
    (∃ (s : State) (i : Fin 8) (h : BitVec 128) (p : List Byte), rallyCrc h.toNat p = h.toNat % 2 ^ 32 ∧ bitsOf h.toNat 126 2 ≠ 3 ∧ s.rallyState i = 4 ∧ bitsOf h.toNat 126 2 = 1 ∧ 4096 ≤ (bitsOf h.toNat 88 32 + 2 ^ 32 - s.twin.rxNext) % 2 ^ 32) ∧
    (∃ (s : State) (i : Fin 8), s.rallyState i = 1) ∧
    (∃ (s : State) (i : Fin 8) (p : List Byte) (l : List (List Byte)), (s.rallyLane i).hello = p :: l ∧ leAt p 0 1 ≠ 1) ∧
    (∃ (s : State), s.isSource = true ∧ s.serves = true ∧ s.flag .twn_STATUS [] f_twn_STATUS_handover = false) :=
  ⟨⟨(W (one 1) (rs on 3 4)), 3, (HH 1 1 4), P0, by decide +kernel⟩,
    ⟨(W (one 1) (rs on 3 4)), 3, (HH 1 0 4), P0, by decide +kernel⟩,
    ⟨(W rp (rs (ts on 2 0 0) 3 1)), 3, by decide +kernel⟩,
    ⟨((rs on 3 3).modRally 3 fun x => {x with hello := [HE2]}), 3, HE2, [], by decide +kernel⟩,
    ⟨(ts on 2 1 1), by decide +kernel⟩⟩

theorem witness_TwinLinkCommandsComplete_3 :
    (∃ (s : State) (w : List Nat), s.rallyHead = some (0xA, 5, w, []) ∧ s.isFollower = true ∧ s.serves = true) ∧
    (∃ (s : State) (w : List Nat), s.rallyHead = some (0xA, 5, w, []) ∧ s.isFollower = true ∧ s.serves = false) ∧
    (∃ (s : State), s.flag .twn_STATUS [] f_twn_STATUS_handover = true ∧ s.inStep = true ∧ s.passed s.twin.handAt (2000 * max 1 (s.fld .twn_TUNE [] f_twn_TUNE_handover_limit)) = true) ∧
    (∃ (s : State) (b : Batch), s.tab.batch = some b ∧ s.awaitsPeer b = true ∧ s.passed b.stageSince (max 1 (s.fld .twn_TUNE [] f_twn_TUNE_stage_limit) * 2000) = true) ∧
    (∃ (s : State) (u : UmpireFrame), s.umpireRuns = true ∧ umpireCrc u.type.toNat u.msg.toNat = u.crc.toNat ∧ u.type = 0x81 ∧ u.msg.toNat < s.fld .twn_EPOCH [] f_twn_EPOCH_highest) :=
  ⟨⟨(W (rec 0xA 5 [0,4]) (ts on 2 0 1)), [0,4], by decide +kernel⟩,
    ⟨(W (rec 0xA 5 [0,4]) (ts on 2 0 0)), [0,4], by decide +kernel⟩,
    ⟨((ts on 2 0 0).setFlag .twn_STATUS [] f_twn_STATUS_handover true), by decide +kernel⟩,
    ⟨(wb (ts on 2 1 0) b1), b1, by decide +kernel⟩,
    ⟨((en on).setFld .twn_EPOCH [] f_twn_EPOCH_highest 8), u0, by decide +kernel⟩⟩

theorem witness_TwinLinkCommandsComplete_4 :
    (∃ (s : State) (u : UmpireFrame), s.umpireRuns = true ∧ umpireCrc u.type.toNat u.msg.toNat = u.crc.toNat ∧ u.type = 0x81 ∧ 0 < u.msg.toNat ∧ u.msg.toNat = s.fld .twn_EPOCH [] f_twn_EPOCH_highest ∧ u.msg.toNat = s.fld .twn_EPOCH [] f_twn_EPOCH_held ∧ s.serves = true ∧ s.cycle < s.twin.leaseEnd) ∧
    (∃ (s : State) (u : UmpireFrame), s.umpireRuns = true ∧ umpireCrc u.type.toNat u.msg.toNat = u.crc.toNat ∧ u.type = 0x82) ∧
    (∃ (s : State) (u : UmpireFrame), s.umpireRuns = true ∧ umpireCrc u.type.toNat u.msg.toNat = u.crc.toNat ∧ u.type = 0x81 ∧ s.fld .twn_EPOCH [] f_twn_EPOCH_highest < u.msg.toNat ∧ bitOf s.healthWord 21 = true) ∧
    (∃ (s : State), s.inStep = true ∧ s.flag .twn_STATUS [] f_twn_STATUS_stop_pending = true) ∧
    (∃ (s : State), s.twinState = 0 ∧ s.flag .twn_STATUS [] f_twn_STATUS_restart_pending = true) :=
  ⟨⟨(W (fun x => {x with leaseEnd := 10^20}) (((en (ts on 2 0 1)).setFld .twn_EPOCH [] f_twn_EPOCH_highest 7).setFld .twn_EPOCH [] f_twn_EPOCH_held 7)), u0, by decide +kernel⟩,
    ⟨(en on), u2, by decide +kernel⟩,
    ⟨(wp ((en (ts on 2 0 0)).setFld .twn_EPOCH [] f_twn_EPOCH_highest 6)), u0, by decide +kernel⟩,
    ⟨((ts on 2 0 0).setFlag .twn_STATUS [] f_twn_STATUS_stop_pending true), by decide +kernel⟩,
    ⟨((ts on 0 0 0).setFlag .twn_STATUS [] f_twn_STATUS_restart_pending true), by decide +kernel⟩⟩

theorem witness_RallyRecordCommandsComplete_1 :
    (∃ (s : State) (low : Nat) (w : List Nat) (e : PktEntry), s.twinState ≠ 3 ∧ s.rallyHead = some (1, low, w, []) ∧ w.length = 5 ∧ e = entryAtWord w 4 (at64 w 2) ∧ s.following = false ∧ s.isSource = false) ∧
    (∃ (s : State) (low : Nat) (w : List Nat) (e : PktEntry), s.twinState ≠ 3 ∧ s.rallyHead = some (1, low, w, []) ∧ w.length = 5 ∧ e = entryAtWord w 4 (at64 w 2) ∧ s.isFollower = true ∧ s.flag .twn_STATUS [] f_twn_STATUS_handover = false ∧ s.twin.pktPos = 0 ∧ s.stepRests = false ∧ e.kind = 0 ∧ s.twin.joinT ≤ e.ts ∧ s.ownEvent e.mac = none) ∧
    (∃ (s : State) (low : Nat) (w : List Nat) (f : RxFrame) (e : PktEntry), s.twinState ≠ 3 ∧ s.rallyHead = some (1, low, w, []) ∧ w.length = 5 ∧ e = entryAtWord w 4 (at64 w 2) ∧ s.isFollower = true ∧ s.flag .twn_STATUS [] f_twn_STATUS_handover = false ∧ s.twin.pktPos = 0 ∧ s.stepRests = false ∧ e.kind = 0 ∧ s.twin.joinT ≤ e.ts ∧ s.ownEvent e.mac = some (.frame f) ∧ f.bytes.length % 256 = e.lchk ∧ s.tsNear f.ts.toNat e.ts = true ∧ f.ended = true ∧ s.waitFree e.mac = true ∧ s.pipeHeld (e.mac / 16) = false ∧ s.twin.pktCount = 0 ∧ (s.pwr.time.toNat - at64 w 2) / 2 ≤ max 1 (s.fld .twn_TUNE [] f_twn_TUNE_lag_limit)) ∧
    (∃ (s : State) (low : Nat) (w : List Nat) (f : RxFrame) (e : PktEntry), s.twinState ≠ 3 ∧ s.rallyHead = some (1, low, w, []) ∧ w.length = 5 ∧ e = entryAtWord w 4 (at64 w 2) ∧ s.isFollower = true ∧ s.flag .twn_STATUS [] f_twn_STATUS_handover = false ∧ s.twin.pktPos = 0 ∧ s.stepRests = false ∧ e.kind = 0 ∧ s.twin.joinT ≤ e.ts ∧ s.ownEvent e.mac = some (.frame f) ∧ s.tsNear f.ts.toNat e.ts = true ∧ f.bytes.length % 256 ≠ e.lchk) ∧
    (∃ (s : State) (low : Nat) (w : List Nat), s.twinState ≠ 3 ∧ s.rallyHead = some (2, low, w, []) ∧ s.takesLog = true ∧ s.tab.batch = none ∧ s.tab.report = none) :=
  ⟨⟨(W (rec 1 0 w1) (ts on 0 0 0)), 0, w1, (E0 w1), by decide +kernel⟩,
    ⟨(W (rec 1 0 w1) (ts on 2 0 0)), 0, w1, (E0 w1), by decide +kernel⟩,
    ⟨(wf (W (rec 1 0 w1) (ts on 2 0 0))), 0, w1, f0, (E0 w1), by decide +kernel⟩,
    ⟨(wf (W (rec 1 0 w2) (ts on 2 0 0))), 0, w2, f0, (E0 w2), by decide +kernel⟩,
    ⟨((W (rec 2 0 w3) (ts on 2 0 0))), 0, w3, by decide +kernel⟩⟩

theorem witness_RallyRecordCommandsComplete_2 :
    (∃ (s : State) (w : List Nat) (b : Batch), s.twinState ≠ 3 ∧ s.rallyHead = some (3, 0, w, []) ∧ s.twinState ≠ 0 ∧ s.forwarded (at64 w 0) = some b ∧ b.results.length < min (w.getD 2 0 + w.getD 3 0) b.ops.length) ∧
    (∃ (s : State) (w : List Nat) (b : Batch), s.twinState ≠ 3 ∧ s.rallyHead = some (3, 0, w, []) ∧ s.twinState ≠ 0 ∧ s.forwarded (at64 w 0) = some b ∧ min (w.getD 2 0 + w.getD 3 0) b.ops.length ≤ b.results.length ∧ s.batchWaits b = none ∧ b.atomic = true) ∧
    (∃ (s : State) (w : List Nat) (b : Batch), s.twinState ≠ 3 ∧ s.rallyHead = some (3, 1, w, []) ∧ s.twinState ≠ 0 ∧ s.forwarded (at64 w 0) = some b ∧ b.atomic = true) ∧
    (∃ (s : State) (low : Nat) (w : List Nat), s.twinState ≠ 3 ∧ s.rallyHead = some (2, low, w, []) ∧ s.takesLog = false) ∧
    (∃ (s : State) (low : Nat) (w : List Nat), s.twinState ≠ 3 ∧ s.takesLog = false ∧ s.rallyHead = some (5, low, w, [])) :=
  ⟨⟨(wb (W (rec 3 0 w4) (ts on 2 0 0)) bf), w4, bf, by decide +kernel⟩,
    ⟨(wb (W (rec 3 0 w4) (ts on 2 0 0)) bg), w4, bg, by decide +kernel⟩,
    ⟨(wb (W (rec 3 1 w4) (ts on 2 0 0)) bg), w4, bg, by decide +kernel⟩,
    ⟨((W (rec 2 0 w3) (ts on 0 0 0))), 0, w3, by decide +kernel⟩,
    ⟨((W (rec 5 0 w3) (ts on 0 0 0))), 0, w3, by decide +kernel⟩⟩

theorem witness_RallyRecordCommandsComplete_3 :
    (∃ (s : State) (w : List Nat) (b : Batch), s.twinState ≠ 3 ∧ s.twinState = 0 ∧ s.tab.batch = some b ∧ b.ring = none ∧ b.boot = false ∧ s.rallyHead = some (3, 0, w, [])) ∧
    (∃ (s : State) (w : List Nat) (b : Batch), s.twinState ≠ 3 ∧ s.twinState = 0 ∧ s.tab.batch = some b ∧ b.ring = none ∧ b.boot = false ∧ s.rallyHead = some (3, 1, w, [])) ∧
    (∃ (s : State) (w : List Nat) (b : Batch) (o : OpResult), s.twinState ≠ 3 ∧ s.rallyHead = some (4, 0, w, []) ∧ s.tab.batch = some b ∧ b.ring.isSome = true ∧ b.number = at64 w 0 ∧ b.results[w.getD 2 0]? = some o) ∧
    (∃ (s : State) (w : List Nat), s.twinState ≠ 3 ∧ s.rallyHead = some (5, 0, w, []) ∧ s.takesLog = true ∧ s.ringRoom 32 = true) ∧
    (∃ (s : State) (low : Nat) (w : List Nat), s.twinState ≠ 3 ∧ s.rallyHead = some (6, low, w, []) ∧ s.takesLog = true) :=
  ⟨⟨(wb (W (rec 3 0 w4) (ts on 0 0 0)) bf), w4, bf, by decide +kernel⟩,
    ⟨(wb (W (rec 3 1 w4) (ts on 0 0 0)) bf), w4, bf, by decide +kernel⟩,
    ⟨(wb (W (rec 4 0 w5) (ts on 2 0 0)) bs), w5, bs, O0, by decide +kernel⟩,
    ⟨((W (rec 5 0 w3) (ts on 2 0 0)).setFld .pci_RING_STATUS [32] f_pci_RING_STATUS_state 2), w3, by decide +kernel⟩,
    ⟨((W (rec 6 0 w6) (ts on 2 0 0))), 0, w6, by decide +kernel⟩⟩

theorem witness_RallyRecordCommandsComplete_4 :
    (∃ (s : State) (low : Nat) (w : List Nat), s.twinState ≠ 3 ∧ s.takesLog = false ∧ s.rallyHead = some (6, low, w, [])) ∧
    (∃ (s : State) (w : List Nat), s.twinState ≠ 3 ∧ s.rallyHead = some (7, 0, w, []) ∧ s.isFollower = true) ∧
    (∃ (s : State) (w : List Nat), s.twinState ≠ 3 ∧ s.rallyHead = some (7, 1, w, [])) ∧
    (∃ (s : State) (low : Nat) (w : List Nat), s.twinState ≠ 3 ∧ s.rallyHead = some (8, low, w, []) ∧ s.isFollower = true ∧ SMap.find? s.twin.ownFolds (at64 w 0) = none) ∧
    (∃ (s : State) (low : Nat) (w : List Nat) (x : Word), s.twinState ≠ 3 ∧ s.rallyHead = some (8, low, w, []) ∧ s.isFollower = true ∧ SMap.find? s.twin.ownFolds (at64 w 0) = some x ∧ x ≠ BitVec.ofNat 64 (at64 w 2)) :=
  ⟨⟨((W (rec 6 0 w6) (ts on 0 0 0))), 0, w6, by decide +kernel⟩,
    ⟨((W (rec 7 0 w4) (ts on 2 0 0))), w4, by decide +kernel⟩,
    ⟨((W (rec 7 1 w4) (ts on 2 0 0))), w4, by decide +kernel⟩,
    ⟨((W (rec 8 0 w4) (ts on 2 0 0))), 0, w4, by decide +kernel⟩,
    ⟨(W of (W (rec 8 0 w4) (ts on 2 0 0))), 0, w4, 99, by decide +kernel⟩⟩

theorem witness_RallyRecordCommandsComplete_5 :
    (∃ (s : State) (n : Nat) (y : Word), s.twinState ≠ 3 ∧ s.inStep = true ∧ n = s.twin.nextWindow ∧ (n + 1) * 2 ^ 20 < s.fpc.seqNext ∧ (n + 1) * 2 ^ 20 ≤ s.feFloor ∧ y = SMap.get 0 s.twin.folds n ∧ s.isSource = false ∧ SMap.find? s.twin.peerFolds n = none) ∧
    (∃ (s : State) (n : Nat) (y : Word), s.twinState ≠ 3 ∧ s.inStep = true ∧ n = s.twin.nextWindow ∧ (n + 1) * 2 ^ 20 < s.fpc.seqNext ∧ (n + 1) * 2 ^ 20 ≤ s.feFloor ∧ y = SMap.get 0 s.twin.folds n ∧ s.isSource = true) ∧
    (∃ (s : State), s.twinState ≠ 3 ∧ s.twinState = 1 ∧ s.twin.phase = 2 ∧ s.flag .twn_STATUS [] f_twn_STATUS_log_source = true ∧ s.twin.linkUp = true ∧ s.twin.copyQ = none ∧ s.tab.batch = none) ∧
    (∃ (s : State), s.twinState ≠ 3 ∧ s.twinState = 1 ∧ s.twin.phase = 2 ∧ s.flag .twn_STATUS [] f_twn_STATUS_log_source = true ∧ s.twin.linkUp = true ∧ s.twin.copyQ = some []) ∧
    (∃ (s : State) (low : Nat) (n : Nat) (w : List Nat) (c : CopyItem), s.twinState ≠ 3 ∧ s.twinState = 1 ∧ s.twin.phase = 2 ∧ s.flag .twn_STATUS [] f_twn_STATUS_log_source = false ∧ s.rallyHead = some (9, low, w, []) ∧ s.copyItem (w.getD 0 0) (at64 w 1) (padTo 64 (ofWords (w.drop 4))) = some c ∧ c = .shaper n) :=
  ⟨⟨(W fo (sq (ts on 2 0 0) 2000000)), 0, 99, by decide +kernel⟩,
    ⟨(W fo (sq (ts on 2 1 0) 2000000)), 0, 99, by decide +kernel⟩,
    ⟨(W p2 (ts on 1 1 0)), by decide +kernel⟩,
    ⟨(W p2q (ts on 1 1 0)), by decide +kernel⟩,
    ⟨(W p2 (W (rec 9 0 w9) (ts on 1 0 0))), 0, 3, w9, (.shaper 3), by decide +kernel⟩⟩

theorem witness_RallyRecordCommandsComplete_6 :
    (∃ (s : State) (w : List Nat), s.twinState ≠ 3 ∧ s.twinState = 1 ∧ s.twin.phase = 2 ∧ s.flag .twn_STATUS [] f_twn_STATUS_log_source = false ∧ s.rallyHead = some (0xA, 1, w, [])) ∧
    (∃ (s : State) (w : List Nat), s.twinState ≠ 3 ∧ s.twinState = 1 ∧ s.twin.phase = 3 ∧ s.flag .twn_STATUS [] f_twn_STATUS_log_source = true ∧ s.rallyHead = some (0xA, 2, w, [])) ∧
    (∃ (s : State) (w : List Nat), s.twinState ≠ 3 ∧ s.twinState = 1 ∧ s.twin.phase = 3 ∧ s.flag .twn_STATUS [] f_twn_STATUS_log_source = false ∧ s.rallyHead = some (0xA, 3, w, [])) ∧
    (∃ (s : State) (w : List Nat), s.twinState ≠ 3 ∧ s.rallyHead = some (0xA, 4, w, []) ∧ s.inStep = true) :=
  ⟨⟨(W p2 (W (rec 0xA 1 []) (ts on 1 0 0))), [], by decide +kernel⟩,
    ⟨(W p3 (W (rec 0xA 2 w4) (ts on 1 1 0))), w4, by decide +kernel⟩,
    ⟨(W p3 (W (rec 0xA 3 w4) (ts on 1 0 0))), w4, by decide +kernel⟩,
    ⟨((W (rec 0xA 4 w4) (ts on 2 0 0))), w4, by decide +kernel⟩⟩

end Sys2Proof.Tests.W14

/-! ### Witnesses of part 15 of the statements -/

namespace Sys2Proof.Tests.W15
open Sys2Proof.Tests

def R1 : State := {State.reset with pwr := {State.reset.pwr with pwrGood := true, pllLocked := true}}
def wd (s : State) : State := {s.setFlag .cpr_WDOG [] f_cpr_WDOG_enable true with cycle := 10^10}
def wd2 (s : State) : State := {s with pwr := {s.pwr with wdogFirst := true}}
def ig : ImageInfo := {sigOk := true, secver := 3, schema := 0x0105, reads := [1], migrates := []}
def sl (s : State) : State := {s with boot := {s.boot with sealed := true}}
def pds (s : State) (n st : Nat) : State := s.setFld .cpr_PD_STATUS [n] f_cpr_PD_STATUS_state st
def wt (s : State) (n : Nat) : State := {pds s n 1 with pwr := {s.pwr with pdWait := [n]}}
def st (s : State) (n : Nat) : State := {pds s n 1 with pwr := {s.pwr with pdSlot := some n}}
def rp (s : State) (n : Nat) : State := s.setFlag .cpr_PD_STATUS [n] f_cpr_PD_STATUS_restart_pending true
def sp (s : State) (n : Nat) : State := s.setFlag .cpr_PD_STATUS [n] f_cpr_PD_STATUS_stop_pending true
def sg (s : State) (n : Nat) : State := {s.setFld .glb_BOOT_STATUS [] f_glb_BOOT_STATUS_stage n with boot := {s.boot with running := true, mgmtUp := true}}
def B (f : BootSt → BootSt) (s : State) : State := {s with boot := f s.boot}
def ib : ImageInfo := {ig with sigOk := false}
def pg : PlaybookInfo := {sigOk := true, stepId := 0, compatible := [], fallback := none, regs := [], programs := [], baseOps := []}
def rg (r : Reg) (ix : List Nat) (f : Fld) (v : Nat) : BitVec 28 × Word := (BitVec.ofNat 28 (r.addr ix), f.set 0 v)
def pgood : PlaybookInfo := {pg with regs := ((List.range 4).flatMap fun i => [rg .fe_hmc_MAP_MASK [i] f_fe_hmc_MAP_MASK_mask (2^(11+i)), rg .tm_hmc_MAP_MASK [i] f_tm_hmc_MAP_MASK_mask (2^(11+i))]) ++ [(BitVec.ofNat 28 (Reg.addr .fe_hmc_REGION [5]), f_fe_hmc_REGION_size.set 0 128), (BitVec.ofNat 28 (Reg.addr .fe_hmc_REGION [6]), f_fe_hmc_REGION_base.set (f_fe_hmc_REGION_size.set 0 8) 128)]}
def pbad : PlaybookInfo := {pg with sigOk := false}
def pbf : PlaybookInfo := {pg with sigOk := false, fallback := some 2}
def pbo : PlaybookInfo := {pg with baseOps := [[]]}
def ver (s : State) : State := {s with flash := {s.flash with hdr0 := some {stateA := 3, digestA := sha384 [], secverA := 3}}}
def tiny (s : State) : State := {s with flash := {s.flash with cs0 := 0x1000000}}
def im (s : State) : State := B (fun x => {x with image := some ig, named := some 1}) s
def se (s : State) : State := {s with flash := {s.flash with set0 := .valid 0x0103 1 []}}
def se2 (s : State) : State := {s with flash := {s.flash with set0 := .valid 0x0203 1 [], hdr0 := some {stateB := 3}}}
def pp (pb : PlaybookInfo) (s : State) : State := B (fun x => {x with playbook := some pb}) s
def late (s : State) : State := {s with cycle := 10^12}
def md (s : State) : State := B (fun x => {x with mgmtUp := false}) s
def src1 (s : State) : State := (((s.setFlag .twn_CFG [] f_twn_CFG_enable true).setFld .twn_STATUS [] f_twn_STATUS_state 2).setFlag .twn_STATUS [] f_twn_STATUS_log_source true)

theorem witness_ResetCommandsComplete_1 :
    (∃ (s : State) (n : Nat) (key : BitVec 16), s.pwr.pwrGood = true ∧ s.pwr.pllLocked = true ∧ 100 ≤ n ∧ s.isSource = false ∧ key ≠ 0xD1CE ∧ s.pwr.inReset = true) ∧
    (∃ (s : State) (key : BitVec 16), s.pwr.pwrGood = false ∧ key = 0xD1CE ∧ s.pwr.pllLocked = false) ∧
    (∃ (s : State) (n : Nat), s.pwr.pwrGood = true ∧ n < 100) ∧
    (∃ (s : State), s.flag .cpr_WDOG [] f_cpr_WDOG_enable = true ∧ s.passed s.pwr.wdogSince (max 1 (s.fld .cpr_WDOG [] f_cpr_WDOG_period) * 2000000) = true ∧ s.pwr.wdogFirst = false) ∧
    (∃ (s : State), s.flag .cpr_WDOG [] f_cpr_WDOG_enable = true ∧ s.passed s.pwr.wdogSince (max 1 (s.fld .cpr_WDOG [] f_cpr_WDOG_period) * 2000000) = true ∧ s.pwr.wdogFirst = true) :=
  ⟨⟨R1, 100, 0xD1CF, by decide +kernel⟩,
    ⟨State.reset, 0xD1CE, by decide +kernel⟩,
    ⟨on, 3, by decide +kernel⟩,
    ⟨(wd on), by decide +kernel⟩,
    ⟨(wd2 (wd on)), by decide +kernel⟩⟩

theorem witness_ResetCommandsComplete_2 :
    (∃ (s : State), s.pwr.pwrGood = true ∧ s.isSource = true) :=
  ⟨(src1 on), by decide +kernel⟩

theorem witness_PowerDomainAndTapCommandsComplete_1 :
    (∃ (s : State) (n : Fin 24), n ≠ 0 ∧ s.boot.sealed = true ∧ softDomain n = false ∧ s.pwr.inReset = false) ∧
    (∃ (s : State) (n : Fin 24), n ≠ 0 ∧ (s.boot.sealed = false ∨ softDomain n = true) ∧ s.lc (pdLc n) = 0 ∧ s.flag .cpr_PD_STATUS [n.val] f_cpr_PD_STATUS_restart_pending = false ∧ s.pwr.inReset = true ∧ s.pwr.resetPin = true) ∧
    (∃ (s : State) (n : Fin 24), n ≠ 0 ∧ (s.boot.sealed = false ∨ softDomain n = true) ∧ s.lc (pdLc n) = 2 ∧ s.flag .cpr_PD_STATUS [n.val] f_cpr_PD_STATUS_stop_pending = false) ∧
    (∃ (s : State) (n : Fin 24) (rest : List Nat), s.pwr.pdSlot = none ∧ s.pwr.pdWait = n.val :: rest) ∧
    (∃ (s : State) (n : Fin 24), s.pwr.pdSlot = some n.val ∧ s.lc (pdLc n) = 1) :=
  ⟨⟨(sl on), 18, by decide +kernel⟩,
    ⟨{R1 with pwr := {R1.pwr with resetPin := true}}, 17, by decide +kernel⟩,
    ⟨on, 2, by decide +kernel⟩,
    ⟨(wt on 12), 12, [], by decide +kernel⟩,
    ⟨(st on 12), 12, by decide +kernel⟩⟩

theorem witness_PowerDomainAndTapCommandsComplete_2 :
    (∃ (s : State) (n : Fin 24), s.lc (pdLc n) = 3 ∧ s.fnsOff n = true) ∧
    (∃ (s : State) (n : Fin 24), s.lc (pdLc n) = 0 ∧ s.flag .cpr_PD_STATUS [n.val] f_cpr_PD_STATUS_restart_pending = true) ∧
    (∃ (s : State) (n : Fin 24), s.lc (pdLc n) = 2 ∧ s.flag .cpr_PD_STATUS [n.val] f_cpr_PD_STATUS_stop_pending = true) :=
  ⟨⟨(pds on 17 3), 17, by decide +kernel⟩,
    ⟨(rp (pds on 14 0) 14), 14, by decide +kernel⟩,
    ⟨(sp (pds on 14 2) 14), 14, by decide +kernel⟩⟩

theorem witness_StartupCommandsComplete_1 :
    (∃ (s : State) (ids : List (Fin 6)), s.inStage 3 = true ∧ s.stagePowered 3 = true ∧ ids ≠ [] ∧ s.fallback = none) ∧
    (∃ (s : State) (pb : PlaybookInfo), s.boot.playbook = some pb ∧ s.inStage 4 = true ∧ s.stagePowered 4 = true ∧ s.passed s.boot.stageSince 8000000000 = true ∧ s.fallback = none) ∧
    (∃ (s : State) (x : Bool) (l : List Bool) (a : ImageInfo) (b : ImageInfo), s.inStage 1 = true ∧ s.flash.endsBefore 0x08010000 = false ∧ a.readOk = true ∧ b.readOk = true ∧ a.sigOk = false ∧ b.sigOk = false ∧ s.slotVerified false = false ∧ s.slotVerified true = false ∧ (s.inStage 0 = true ∨ s.inStage 1 = true) ∧ s.passed s.boot.stageSince 2000000000 = true ∧ s.slotOrder = x :: l ∧ s.slotUnread x = false) ∧
    (∃ (s : State) (x : Bool) (a : ImageInfo) (i : ImageInfo) (pb : PlaybookInfo), s.boot.mgmtUp = false ∧ s.boot.image = some i ∧ s.pwr.inReset = false ∧ (x = false ∨ (s.boot.playbook = some pb ∧ imageProvides a pb = false)) ∧ (s.boot.playbook = none ∨ (s.boot.playbook = some pb ∧ imageProvides a pb = true))) ∧
    (∃ (s : State), s.inStage 0 = true ∧ s.pdOn 1 = true) :=
  ⟨⟨(sg on 3), [3], by decide +kernel⟩,
    ⟨(late (pp pg (sg on 4))), pg, by decide +kernel⟩,
    ⟨(late ((sg on 1))), false, [true], ib, ib, by decide +kernel⟩,
    ⟨(md (im (sg on 7))), false, ib, ig, pg, by decide +kernel⟩,
    ⟨(sg on 0), by decide +kernel⟩⟩

theorem witness_StartupCommandsComplete_2 :
    (∃ (s : State) (x : Bool) (l : List Bool) (a : ImageInfo) (b : ImageInfo) (i : ImageInfo), s.inStage 1 = true ∧ s.flash.endsBefore 0x08010000 = false ∧ a.readOk = true ∧ b.readOk = true ∧ s.slotOrder = x :: l ∧ s.slotUnread x = false ∧ i = (if x then b else a) ∧ i.sigOk = true ∧ s.fused ≤ i.secver.val) ∧
    (∃ (s : State) (x : Bool) (l : List Bool) (a : ImageInfo) (b : ImageInfo), s.inStage 1 = true ∧ s.flash.endsBefore 0x08010000 = false ∧ a.readOk = true ∧ b.readOk = true ∧ s.slotOrder = x :: l ∧ s.slotVerified x = true ∧ s.slotUnread x = false ∧ s.fused ≤ s.header.secver x ∧ (if x then b else a).sigOk = false) ∧
    (∃ (s : State), s.inStage 1 = true ∧ s.flash.endsBefore 0x08010000 = true) ∧
    (∃ (s : State) (i : ImageInfo) (pb : PlaybookInfo) (n : Fin 4) (sch : BitVec 16), s.boot.image = some i ∧ s.inStage 2 = true ∧ s.stagePowered 2 = true ∧ s.boot.fallbackUsed = false ∧ s.flash.endsBefore 0x19310000 = false ∧ s.findSettings i = .readable sch ∧ s.boot.named = some n ∧ pb.readOk = true ∧ pb.sigOk = true ∧ imageProvides i pb = true ∧ playbookBroken pb = false ∧ s.needsSpent pb = false) ∧
    (∃ (s : State) (i : ImageInfo), s.boot.image = some i ∧ s.inStage 2 = true ∧ s.stagePowered 2 = true ∧ s.boot.fallbackUsed = false ∧ s.flash.endsBefore 0x19310000 = true) :=
  ⟨⟨(sg on 1), false, [true], ig, ig, ig, by decide +kernel⟩,
    ⟨(ver (sg on 1)), false, [true], ib, ib, by decide +kernel⟩,
    ⟨(tiny (sg on 1)), by decide +kernel⟩,
    ⟨(se (im (sg on 2))), ig, pgood, 1, 0x0103, by decide +kernel⟩,
    ⟨(tiny (im (sg on 2))), ig, by decide +kernel⟩⟩

theorem witness_StartupCommandsComplete_3 :
    (∃ (s : State) (i : ImageInfo) (pb : PlaybookInfo) (n : Fin 4) (sch : BitVec 16), s.boot.image = some i ∧ s.inStage 2 = true ∧ s.stagePowered 2 = true ∧ s.boot.fallbackUsed = false ∧ s.flash.endsBefore 0x19310000 = false ∧ s.findSettings i = .readable sch ∧ s.boot.named = some n ∧ pb.readOk = true ∧ pb.sigOk = false ∧ pb.fallback = none) ∧
    (∃ (s : State) (i : ImageInfo) (pb : PlaybookInfo) (n : Fin 4) (m : Fin 4) (sch : BitVec 16), s.boot.image = some i ∧ s.inStage 2 = true ∧ s.stagePowered 2 = true ∧ s.boot.fallbackUsed = false ∧ s.flash.endsBefore 0x19310000 = false ∧ s.findSettings i = .readable sch ∧ s.boot.named = some n ∧ pb.readOk = true ∧ pb.sigOk = false ∧ pb.fallback = some m) ∧
    (∃ (s : State) (i : ImageInfo) (sch : BitVec 16) (reason : Nat), s.boot.image = some i ∧ s.inStage 2 = true ∧ s.stagePowered 2 = true ∧ s.boot.fallbackUsed = false ∧ s.flash.endsBefore 0x19310000 = false ∧ s.findSettings i = .unreadable reason sch ∧ s.header.slotState (!s.bootSlot) = 3 ∧ s.boot.failAtStart < 3) ∧
    (∃ (s : State) (pb : PlaybookInfo), s.boot.playbook = some pb ∧ s.inStage 5 = true ∧ s.tab.batch = none ∧ s.tab.report = none ∧ pb.baseOps = [] ∧ s.boot.baseFailed = false) ∧
    (∃ (s : State) (pb : PlaybookInfo), s.boot.playbook = some pb ∧ s.inStage 5 = true ∧ s.tab.batch = none ∧ s.tab.report = none ∧ pb.baseOps ≠ [] ∧ s.boot.baseBegun = false) :=
  ⟨⟨(se (im (sg on 2))), ig, pbad, 1, 0x0103, by decide +kernel⟩,
    ⟨(se (im (sg on 2))), ig, pbf, 1, 2, 0x0103, by decide +kernel⟩,
    ⟨(se2 (im (sg on 2))), ig, 0x0203, 1, by decide +kernel⟩,
    ⟨(pp pg (sg on 5)), pg, by decide +kernel⟩,
    ⟨(pp pbo (sg on 5)), pbo, by decide +kernel⟩⟩

theorem witness_StartupCommandsComplete_4 :
    (∃ (s : State) (pb : PlaybookInfo), s.boot.playbook = some pb ∧ s.inStage 5 = true ∧ s.tab.batch = none ∧ s.tab.report = none ∧ s.boot.baseBegun = true ∧ s.boot.baseFailed = true ∧ pb.fallback = none) ∧
    (∃ (s : State) (pb : PlaybookInfo), s.boot.playbook = some pb ∧ s.inStage 6 = true ∧ s.bootReady = false) ∧
    (∃ (s : State), s.inStage 6 = true ∧ s.bootReady = true) ∧
    (∃ (s : State) (i : ImageInfo) (reason : Nat), s.boot.stage7At = some reason ∧ 2 ≤ s.header.slotState s.bootSlot ∧ s.header.slotState s.bootSlot ≤ 4 ∧ s.boot.image = some i ∧ s.inStage 7 = true ∧ s.boot.accepted = false ∧ s.passed reason 120000000000 = true) :=
  ⟨⟨(B (fun x => {x with baseBegun := true, baseFailed := true}) (pp pbo (sg on 5))), pbo, by decide +kernel⟩,
    ⟨(pp pbo (sg on 6)), pbo, by decide +kernel⟩,
    ⟨((pp pg (sg on 6)).setFlag .glb_BOOT_STATUS [] f_glb_BOOT_STATUS_ready true), by decide +kernel⟩,
    ⟨(late (B (fun x => {x with stage7At := some 5}) (ver (im (sg on 7))))), ig, 5, by decide +kernel⟩⟩

end Sys2Proof.Tests.W15

/-! ### Witnesses of part 16 of the statements -/

namespace Sys2Proof.Tests.W16
open Sys2Proof.Tests

def mb (s : State) : State := {((s.setFld .pci_RING_STATUS [42] f_pci_RING_STATUS_state 2).setFld .pci_RING_STATUS [43] f_pci_RING_STATUS_state 2).setFld .pci_RING_PIDX [42] f_pci_RING_PIDX_pidx 5 with boot := {s.boot with mgmtUp := true}, flash := {s.flash with keys := [sha384 (List.replicate 97 0)]}}
def dd (a : Nat) : MboxDesc := {tag := 9, buf := 0x1000, len := 5000, args := BitVec.ofNat 96 a, restZero := true}
def D33 : MboxDesc := dd (2^33)
def cy (s : State) (n : Nat) : State := {s with cycle := n}
def le : LogEntry := {seq := 0, code := 3, severity := 3, calKnown := false, lifeS := 4, taiS := 0, loc := 0, addr := 0, data := []}
def lw (s : State) : State := {s with mgmt := {s.mgmt with logWait := [le]}}
def t7 (s : State) (t : Nat) : State := {s.setFld .gkp_TASK_STATUS [t] f_gkp_TASK_STATUS_state 2 with cycle := 10^15, boot := {s.boot with mgmtUp := true}}
def hi (s : State) : State := {s with mgmt := {s.mgmt with avsLow := [(2,5)], life := {s.mgmt.life with avsTarget := 800}}}
def V1 : Word := f_gkp_TASK_CFG_enable.mask
def LC : Word := BitVec.ofNat 64 (10 * 2^45 + 7*2^35)
def b7 (s : State) : State := {s.setFld .glb_BOOT_STATUS [] f_glb_BOOT_STATUS_stage 7 with boot := {s.boot with mgmtUp := true}}
def ts (s : State) (t n : Nat) : State := s.setFld .gkp_TASK_STATUS [t] f_gkp_TASK_STATUS_state n
def hs (s : State) (k n : Nat) : State := s.hSet k f_tm_hmc_CH_STATUS_state n
def LC2 : Word := BitVec.ofNat 64 (9 * 2^45 + 7*2^35)
def TR : State := (ts (b7 on) 2 0).setFlag .gkp_TASK_STATUS [2] f_gkp_TASK_STATUS_restart_pending true
def TS : State := (ts (b7 on) 2 2).setFlag .gkp_TASK_STATUS [2] f_gkp_TASK_STATUS_stop_pending true
def DP (a b : Bool) (s : State) : State := {s with mgmt := {s.mgmt with deepSram := a, deepHbm := b}}
def pcs : List Byte := List.replicate 16 5
def man (kind : Nat) (dl : Nat) (pcd : List Byte) : List Byte :=
  natLE 4 0x564B554D ++ natLE 2 1 ++ natLE 1 kind ++ natLE 1 (if kind = 1 then 3 else 0) ++ List.replicate 48 0 ++ List.replicate 48 7 ++ natLE 4 100 ++ natLE 4 dl ++ natLE 4 1 ++ natLE 1 (if kind = 0 then 4 else 0) ++ List.replicate 11 0 ++ List.replicate 128 0 ++ natBE 48 (sha384 pcd).toNat ++ List.replicate 96 0
def M0 : List Byte := man 0 16 pcs
def u0 : Session := {state := 1, seq := 1, target := manTarget M0, base := 0, holder := 2, kind := 0, dest := 1, pieceCount := 1, targetLen := 100, deltaLen := 16, secver := 4, lastActivity := 0, manifest := M0}
def F (s : State) (u : Session) (p : SMap (List Byte)) : State := {s with flash := {s.flash with session := some u, pieces := p}}
def HD (s : State) (h : Hdr) : State := {s with flash := {s.flash with hdr0 := some h}}
def fz (s : State) : State := {s with fused := 9}
def ig : ImageInfo := {sigOk := true, secver := 13, schema := 0x0105, reads := [1], migrates := []}
def im (s : State) : State := {s with boot := {s.boot with image := some ig}}
def sh (s : State) : State := (s.setFld .glb_BOOT_STATUS [] f_glb_BOOT_STATUS_stage 8).setFld .glb_BOOT_STATUS [] f_glb_BOOT_STATUS_fail_code 0x20
def fill : List Byte := natLE 1 3 ++ natLE 1 7 ++ natLE 6 100 ++ natLE 8 0
def T0 : List Byte := List.replicate 100 7
def M1 : List Byte := man 0 16 fill
def u3 : Session := {u0 with state := 3, target := sha384 T0, manifest := M1}
def ap (s : State) : State := {s with mgmt := {s.mgmt with applying := true}}
def rec (t low : Nat) (w : List Nat) (s : State) : State := {s with twin := {s.twin with rx := (t*2^28+w.length*2^8+low)::w, linkUp := true}}
def ww : List Nat := [2^24] ++ toWords (natBE 48 u0.target.toNat) ++ toWords (natBE 128 1)
def wd : List Nat := [2*2^24, 16] ++ toWords pcs
def wr : List Nat := [3*2^24+5, 0x0203]
def ub : Session := {u3 with kind := 1, dest := 3, base := 9}
def nk (s : State) : State := {s with flash := {s.flash with keys := []}}

theorem witness_ManagementCommandsComplete_1 :
    (∃ (s : State) (d : MboxDesc) (op : BitVec 16) (p : Fin 4) (i : Fin 158) (v : BitVec 16) (ns : BitVec 16), s.taken 0 d ∧ mboxArg d 0 = p.val ∧ mboxArg d 1 = 0 ∧ s.settingsHeld = false ∧ mboxArg d 4 = 0 ∧ mboxListed op.toNat = false ∧ s.pdOn 23 = true ∧ 48 ≤ i.val ∧ (¬(136 ≤ i.val ∧ i.val < 152)) ∧ (v.toNat ≤ s.droopMv ∨ ns.toNat ≤ 2)) ∧
    (∃ (s : State) (i : Fin 158) (v : BitVec 16) (ns : BitVec 16) (ms : List (BitVec 16)) (c : Fin 32), s.pdOn 23 = true ∧ i.val < 48 ∧ s.mgmt.tripped = false ∧ (∀ k < 48, s.fld .mgs_SENSOR [k] f_mgs_SENSOR_value < 920) ∧ v.toNat < 920 ∧ s.droopMv < v.toNat ∧ 2 < ns.toNat ∧ s.taskRuns 7 = true ∧ s.passed s.mgmt.lifeWrittenAt 1200000000000 = true ∧ s.passed s.mgmt.lastAvs 7200000000000 = true ∧ lowestMargin ms < 40 ∧ s.mgmt.life.avsTarget = 800 ∧ SMap.get 0 s.mgmt.avsLow c.val ≠ 0 ∧ s.passed (SMap.get 0 s.mgmt.avsLow c.val - 1) 172800000000000 = true) ∧
    (∃ (s : State) (d : MboxDesc) (i : Fin 158) (v : BitVec 16), s.taken 0 d ∧ 2 ≤ mboxArg d 4 ∧ s.pdOn 23 = true ∧ i.val < 48 ∧ s.mgmt.tripped = false ∧ 920 ≤ v.toNat) ∧
    (∃ (s : State) (d : MboxDesc), s.taken 0 d ∧ mboxArg d 0 = 0xFF ∧ mboxArg d 1 = 1) ∧
    (∃ (s : State) (d : MboxDesc), s.taken 0 d ∧ 2 ≤ mboxArg d 1) :=
  ⟨⟨(mb on), (dd 2), 9, 2, 60, 7, 5, by unfold State.taken; decide +kernel⟩,
    ⟨(hi (t7 on 7)), 20, 650, 5, [3,4], 2, by decide +kernel⟩,
    ⟨(mb on), D33, 20, 1000, by unfold State.taken; decide +kernel⟩,
    ⟨(mb on), (dd 0x1FF), by unfold State.taken; decide +kernel⟩,
    ⟨(mb on), (dd 0x202), by unfold State.taken; decide +kernel⟩⟩

theorem witness_ManagementCommandsComplete_2 :
    (∃ (s : State) (e : LogEntry) (l : List LogEntry), s.mgmt.logWait = e :: l) :=
  ⟨(lw on), le, [], by decide +kernel⟩

theorem witness_TaskCommandsComplete_1 :
    (∃ (s : State) (t : Fin 16) (v : Word) (loc : Word), t.val < 9 ∧ t ≠ 3 ∧ f_gkp_TASK_CFG_enable.get v = 1 ∧ s.lc (taskLc t) = 0 ∧ s.flag .gkp_TASK_STATUS [t.val] f_gkp_TASK_STATUS_restart_pending = false ∧ s.taskMayRun t = true ∧ s.taskRuns 0 = true ∧ locClass loc = 10 ∧ locIndex loc < 256) ∧
    (∃ (s : State), s.taskRuns 8 = true ∧ s.calendarDue s.mgmt.life.deepTai s.mgmt.life.deepS 2592000 id = true ∧ s.boot.mgmtUp = true ∧ s.calendarDue s.mgmt.life.yearTai s.mgmt.life.yearS 31536000 (· / 12) = true) ∧
    (∃ (t : Fin 16), 9 ≤ t.val) ∧
    (∃ (s : State) (t9 : Fin 9), s.lc (taskLc t9) = 1) ∧
    (∃ (s : State) (t9 : Fin 9), s.lc (taskLc t9) = 3) :=
  ⟨⟨(ts (b7 on) 0 2), 2, V1, LC, by decide +kernel⟩,
    ⟨(cy (ts (b7 on) 8 2) 1000000000000000000), by decide +kernel⟩,
    ⟨9, by decide +kernel⟩,
    ⟨(ts (b7 on) 2 1), 2, by decide +kernel⟩,
    ⟨(ts (b7 on) 2 3), 2, by decide +kernel⟩⟩

theorem witness_TaskCommandsComplete_2 :
    (∃ (s : State) (k : Fin 192) (x : HChan), s.hState k = 2 ∧ s.hFrozen k = false ∧ s.taskRuns 2 = true ∧ s.mgmt.deepHbm = false ∧ s.hchan k = x ∧ x.queue = [] ∧ x.input = []) ∧
    (∃ (s : State) (q : Fin 146), s.taskRuns 4 = true ∧ SMap.find? s.mgmt.life.serdesMargin (q.val * 240 + s.lifeMonth) = none) ∧
    (∃ (s : State), s.taskRuns 6 = true ∧ s.passed s.mgmt.lastNvm 20000000000 = true) ∧
    (∃ (s : State) (loc : Word), s.taskRuns 0 = true ∧ (locClass loc ≠ 10 ∨ 256 ≤ locIndex loc)) ∧
    (∃ (s : State) (t9 : Fin 9), s.lc (taskLc t9) = 0 ∧ s.flag .gkp_TASK_STATUS [t9.val] f_gkp_TASK_STATUS_restart_pending = true ∧ s.taskMayRun t9 = true) :=
  ⟨⟨(hs (ts (b7 on) 2 2) 5 2), 5, (((hs (ts (b7 on) 2 2) 5 2)).hchan 5), by decide +kernel⟩,
    ⟨((ts (b7 on) 4 2)), 5, by decide +kernel⟩,
    ⟨(cy (ts (b7 on) 6 2) 1000000000000), by decide +kernel⟩,
    ⟨(ts (b7 on) 0 2), LC2, by decide +kernel⟩,
    ⟨TR, 2, by decide +kernel⟩⟩

theorem witness_TaskCommandsComplete_3 :
    (∃ (s : State) (t9 : Fin 9), s.lc (taskLc t9) = 2 ∧ s.flag .gkp_TASK_STATUS [t9.val] f_gkp_TASK_STATUS_stop_pending = true) ∧
    (∃ (s : State), s.taskRuns 8 = true ∧ s.mgmt.deepSram = true) ∧
    (∃ (s : State) (k : Fin 192), s.hState k = 2 ∧ s.hFrozen k = false ∧ s.taskRuns 8 = true ∧ s.mgmt.deepHbm = true ∧ s.mgmt.deepSram = false) :=
  ⟨⟨TS, 2, by decide +kernel⟩,
    ⟨(DP true true (ts (b7 on) 8 2)), by decide +kernel⟩,
    ⟨(DP false true (hs (ts (b7 on) 8 2) 5 2)), 5, by decide +kernel⟩⟩

theorem witness_UpdateCommandsComplete_1 :
    (∃ (s : State) (src : Fin 6) (d : MboxDesc) (m : List Byte) (bs : List Byte) (u : Session) (n : Nat) (det : Nat) (w : List Nat), s.taken src d ∧ manFormed m = true ∧ s.keyKnown m = true ∧ s.flash.session = some u ∧ u.target = manTarget m ∧ n = d.args.toNat % 2 ^ 32 ∧ s.isMember u src = true ∧ u.state = 1 ∧ n < u.pieceCount ∧ SMap.find? s.flash.pieces n = none ∧ u.pieceOk n bs = true ∧ (s.isMember u src = false ∨ s.poweredS < u.lastActivity + 86400) ∧ u.state ≠ 3 ∧ (src = 0 ∨ u.holder = src.val) ∧ s.staged < u.pieceCount ∧ s.header.slotState s.runningSlot ≠ 3 ∧ s.settingsHeld = false ∧ s.rallyHead = some (0xB, det, w, []) ∧ s.twinState ≠ 3 ∧ w.headD 0 / 2 ^ 24 = 2 ∧ n = w.headD 0 % 2 ^ 24 ∧ bs = (ofWords ((w.drop 1).drop 1)).take ((w.drop 1).headD 0)) ∧
    (∃ (s : State) (src : Fin 6) (d : MboxDesc) (m : List Byte) (b : Bool), s.taken src d ∧ manFormed m = true ∧ s.keyKnown m = true ∧ s.flash.session = none ∧ s.openRefused m = none ∧ mboxArg d 0 ≤ 1 ∧ b = (mboxArg d 0 == 1) ∧ s.header.slotState b = 2 ∧ s.header.active = !b ∧ s.fused ≤ s.header.secver b) ∧
    (∃ (s : State) (src : Fin 6) (d : MboxDesc) (u : Session), s.taken src d ∧ s.flash.session = some u ∧ s.isMember u src = true ∧ u.lastActivity + 86400 ≤ s.poweredS ∧ u.state ≠ 3 ∧ u.pieceCount ≤ s.staged ∧ s.idleFrom u + 604800 ≤ s.poweredS) ∧
    (∃ (s : State) (src : Fin 6) (d : MboxDesc) (k : Fin 64), s.taken src d ∧ s.header.slotState s.runningSlot = 3 ∧ s.fused + k.val < s.runningSecver) ∧
    (∃ (s : State) (src : Fin 6) (d : MboxDesc) (m : List Byte) (u : Session), s.taken src d ∧ manFormed m = true ∧ s.keyKnown m = true ∧ s.flash.session = some u ∧ u.target ≠ manTarget m ∧ u.state = 3 ∧ s.mgmt.applying = false) :=
  ⟨⟨(rec 0xB 0 wd (F (mb on) u0 [])), 2, (dd 0), M0, pcs, u0, 0, 0, wd, by unfold State.taken; decide +kernel⟩,
    ⟨(HD (mb on) {stateB := 2, secverB := 3}), 2, (dd 1), M0, true, by unfold State.taken; decide +kernel⟩,
    ⟨(cy (F (mb on) u0 [(0,T0)]) 10000000000000000), 2, (dd 0), u0, by unfold State.taken; decide +kernel⟩,
    ⟨(HD (fz (im (mb on))) {stateA := 3, secverB := 3}), 2, (dd 1), 3, by unfold State.taken; decide +kernel⟩,
    ⟨(F (mb on) u3 [(0,fill)]), 2, (dd 0), M0, u3, by unfold State.taken; decide +kernel⟩⟩

theorem witness_UpdateCommandsComplete_2 :
    (∃ (s : State) (src : Fin 6) (d : MboxDesc) (b : Bool), s.taken src d ∧ mboxArg d 0 ≤ 1 ∧ b = (mboxArg d 0 == 1) ∧ s.header.slotState b = 2 ∧ s.header.active = !b ∧ s.header.secver b < s.fused) ∧
    (∃ (s : State) (src : Fin 6) (d : MboxDesc), s.taken src d ∧ s.settingsHeld = true) ∧
    (∃ (s : State) (g : List Byte) (u : Session) (own : Bool) (fe : Bool), s.flash.session = some u ∧ u.state = 3 ∧ s.mgmt.applying = true ∧ s.badPieces u = [] ∧ s.applyBars u = none ∧ s.applyResult u own fe = .ok g) ∧
    (∃ (s : State) (u : Session) (det : Nat) (own : Bool) (fe : Bool), s.flash.session = some u ∧ u.state = 3 ∧ s.mgmt.applying = true ∧ s.badPieces u = [] ∧ s.applyBars u = none ∧ s.applyResult u own fe = .error det) ∧
    (∃ (s : State) (u : Session), s.flash.session = some u ∧ u.state = 3 ∧ s.mgmt.applying = true ∧ s.badPieces u ≠ []) :=
  ⟨⟨(HD (fz (mb on)) {stateB := 2, secverB := 3}), 2, (dd 1), true, by unfold State.taken; decide +kernel⟩,
    ⟨(sh (im (mb on))), 0, (dd 1), by unfold State.taken; decide +kernel⟩,
    ⟨(F (ap (mb on)) u3 [(0,fill)]), T0, u3, true, false, by decide +kernel⟩,
    ⟨(F (ap (mb on)) u3 [(0,fill)]), u3, 14, true, true, by decide +kernel⟩,
    ⟨(F (ap (mb on)) u3 [(0,T0)]), u3, by decide +kernel⟩⟩

theorem witness_UpdateCommandsComplete_3 :
    (∃ (s : State) (bs : List Byte) (u : Session) (n : Nat) (det : Nat) (w : List Nat), s.rallyHead = some (0xB, det, w, []) ∧ s.twinState ≠ 3 ∧ w.headD 0 / 2 ^ 24 = 1 ∧ s.flash.session = some u ∧ u.target.toNat = beNat (ofWords ((w.drop 1).take 12)) ∧ s.flash.pieces = [(n, bs)] ∧ bs.length ≤ 128 ∧ bitOf (beNat (ofWords (((w.drop 1).drop 12).take 32))) n = true ∧ s.twin.linkUp = true ∧ s.twin.pkt = none) ∧
    (∃ (s : State) (det : Nat) (w : List Nat), s.rallyHead = some (0xB, det, w, []) ∧ s.twinState ≠ 3 ∧ w.headD 0 / 2 ^ 24 = 3) ∧
    (∃ (s : State) (src : Fin 6) (d : MboxDesc) (bs : List Byte) (u : Session) (n : Nat), s.taken src d ∧ n = d.args.toNat % 2 ^ 32 ∧ s.flash.session = some u ∧ s.isMember u src = true ∧ u.state = 1 ∧ n < u.pieceCount ∧ SMap.find? s.flash.pieces n = none ∧ u.pieceOk n bs = false) ∧
    (∃ (s : State) (u : Session) (det : Nat), s.flash.session = some u ∧ u.state = 3 ∧ s.mgmt.applying = true ∧ s.badPieces u = [] ∧ s.applyBars u = some det) ∧
    (∃ (s : State) (src : Fin 6) (d : MboxDesc) (u : Session) (b : Bool), s.taken src d ∧ mboxArg d 0 ≤ 1 ∧ b = (mboxArg d 0 == 1) ∧ s.header.slotState b = 2 ∧ s.header.active = !b ∧ s.fused ≤ s.header.secver b ∧ s.flash.session = some u ∧ u.kind = 0 ∧ u.state ≠ 3 ∧ (u.dest == 1) = b) :=
  ⟨⟨(rec 0xB 0 ww (F (mb on) u0 [(0,pcs)])), pcs, u0, 0, 0, ww, by decide +kernel⟩,
    ⟨(rec 0xB 0 wr (F (mb on) u0 [])), 0, wr, by decide +kernel⟩,
    ⟨(F (mb on) u0 []), 2, (dd 0), [], u0, 0, by unfold State.taken; decide +kernel⟩,
    ⟨(F (ap (mb on)) ub [(0,fill)]), ub, 11, by decide +kernel⟩,
    ⟨(HD (F (mb on) {u0 with state := 4} []) {stateB := 2, secverB := 3}), 2, (dd 1), {u0 with state := 4}, true, by unfold State.taken; decide +kernel⟩⟩

theorem witness_UpdateCommandsComplete_4 :
    (∃ (s : State) (src : Fin 6) (d : MboxDesc) (m : List Byte), s.taken src d ∧ s.keyKnown m = false) :=
  ⟨(nk (mb on)), 0, (dd 0), M0, by unfold State.taken; decide +kernel⟩

end Sys2Proof.Tests.W16

/-! ### Witnesses of part 18 of the statements -/

namespace Sys2Proof.Tests.W18
open Sys2Proof.Tests

def MM : Word := f_skp_CNT_CFG_threshold.mask ||| f_skp_CNT_CFG_mode.mask ||| f_skp_CNT_CFG_source.mask
def C (f : CntSt → CntSt) (s : State) : State := {s with cnt := f s.cnt}
def Pw (f : PowerSt → PowerSt) (s : State) : State := {s with pwr := f s.pwr}
def c0 (s : State) : State := C (fun x => {x with cnt := [(27,5),(803,9)]}) s
def ws (s : State) (n : Nat) : State := s.setFld .skp_STATUS [] f_skp_STATUS_whistle_state n
def r0 : TraceRec := {id := 4, slot := 3, seq := 7}
def tr (s : State) : State := C (fun x => {x with openTraces := [r0]}) s
def ms (s : State) : State := C (fun x => {x with msiCount := 4}) s
def sd (s : State) : State := Pw (fun x => {x with step := some (50, 600), time := 49}) s
def pi (s : State) : State := {s.setFld .cpr_TIME_CFG [] f_cpr_TIME_CFG_src 3 with cycle := 4000000000}
def po (s : State) : State := (s.setFld .cpr_TIME_CFG [] f_cpr_TIME_CFG_pps_en 1).setFld .cpr_TIME_CFG [] f_cpr_TIME_CFG_tai_valid 1

theorem witness_ScorekeeperAndTimeCommandsComplete_1 :
    (∃ (s : State) (g : Fin 321) (k : Fin 8) (v : Word) (m : Word) (cg : BitVec 9) (n : Nat) (sl : Fin 64) (r : TraceRec), m = f_skp_CNT_CFG_threshold.mask ||| f_skp_CNT_CFG_mode.mask ||| f_skp_CNT_CFG_source.mask ∧ v &&& m ≠ s.rd .skp_CNT_CFG [g.val, k.val] ∧ cg.toNat ≤ 320 ∧ s.pdOn 23 = true ∧ n = s.cnt.sweepNext ∧ 40000 * n ≤ s.pwr.time.toNat ∧ s.whistleState = 0 ∧ s.cnt.openTraces = [r] ∧ r.slot = sl.val ∧ s.passed r.openedAt (max 1 (s.fld .skp_TRACE_CFG [] f_skp_TRACE_CFG_timeout) * 2000000) = true ∧ s.traceFull = false) ∧
    (∃ (s : State) (g : Fin 321) (k : Fin 8) (v : Word) (m : Word), m = f_skp_CNT_CFG_threshold.mask ||| f_skp_CNT_CFG_mode.mask ||| f_skp_CNT_CFG_source.mask ∧ v &&& m = s.rd .skp_CNT_CFG [g.val, k.val] ∧ s.whistleState = 0 ∧ s.flag .skp_WHISTLE_CTRL [] f_skp_WHISTLE_CTRL_arm = true ∧ (s.rd .skp_WHISTLE_AT []).toNat ≤ s.pwr.time.toNat) ∧
    (∃ (s : State) (m : Word), m = f_skp_CNT_CFG_threshold.mask ||| f_skp_CNT_CFG_mode.mask ||| f_skp_CNT_CFG_source.mask ∧ s.whistleState ≠ 0 ∧ s.whistleState = 1) ∧
    (∃ (s : State) (m : Word), m = f_skp_CNT_CFG_threshold.mask ||| f_skp_CNT_CFG_mode.mask ||| f_skp_CNT_CFG_source.mask ∧ s.isFollower = false ∧ s.fld .cpr_TIME_CFG [] f_cpr_TIME_CFG_src = 3 ∧ s.pwr.ppsLostPosted = false ∧ s.passed s.pwr.ppsEdge 3000000000 = true) ∧
    (∃ (s : State) (m : Word), m = f_skp_CNT_CFG_threshold.mask ||| f_skp_CNT_CFG_mode.mask ||| f_skp_CNT_CFG_source.mask ∧ s.whistleState = 2) :=
  ⟨⟨((tr on).setFld .skp_TRACE_CFG [] f_skp_TRACE_CFG_timeout 1), 3, 3, 0x123, MM, 3, 0, 3, r0, by decide +kernel⟩,
    ⟨((ws (c0 on) 0).setFlag .skp_WHISTLE_CTRL [] f_skp_WHISTLE_CTRL_arm true), 100, 3, 0, MM, by decide +kernel⟩,
    ⟨(ws (c0 on) 1), MM, by decide +kernel⟩,
    ⟨(pi on), MM, by decide +kernel⟩,
    ⟨(ws (c0 on) 2), MM, by decide +kernel⟩⟩

theorem witness_ScorekeeperAndTimeCommandsComplete_2 :
    (∃ (s : State) (m : Word), m = f_skp_CNT_CFG_threshold.mask ||| f_skp_CNT_CFG_mode.mask ||| f_skp_CNT_CFG_source.mask ∧ s.cnt.msiCount ≠ 0 ∧ s.passed s.cnt.msiSince 2000000 = true) ∧
    (∃ (s : State) (m : Word) (n : Nat) (d : Int), m = f_skp_CNT_CFG_threshold.mask ||| f_skp_CNT_CFG_mode.mask ||| f_skp_CNT_CFG_source.mask ∧ s.stepDue = some (n, d)) ∧
    (∃ (s : State) (m : Word), m = f_skp_CNT_CFG_threshold.mask ||| f_skp_CNT_CFG_mode.mask ||| f_skp_CNT_CFG_source.mask ∧ s.ppsOn = true ∧ s.tai % 2000000000 = 0) :=
  ⟨⟨(ms on), MM, by decide +kernel⟩,
    ⟨(sd on), MM, 50, 600, by decide +kernel⟩,
    ⟨(po on), MM, by decide +kernel⟩⟩

end Sys2Proof.Tests.W18
end

section
/-! PROOFS. Which accesses reach the BAR0 map, what an access error records, and the statements about narrow accesses (R7)
and about reads (R8, R9). -/

namespace Sys2Proof.Machine

/-! ### What an access through PF0 BAR0 or of the management cores reaches (R491, R505, R518) -/

/-- The four parts of `State.reaches`, for the access moved to offset 0, where alignment says nothing. -/
theorem State.reaches_zero_iff (s : State) (a : Access) :
    s.reaches { a with off := 0 } = true ↔ s.pwr.inReset = false ∧
      (a.who = .mgmt ∨ a.who = .host (.pf 0) .bar0 ∧ s.host.perst = false ∧
        s.flag .glb_BOOT_STATUS [] f_glb_BOOT_STATUS_ready = true) := by
  simp [State.reaches, and_assoc]

theorem State.isAligned_of_reaches {s : State} {a : Access} (h : s.reaches a = true) : isAligned a = true := by
  simp only [State.reaches, Bool.and_eq_true] at h
  exact h.1.2

theorem State.reaches_zero_of_reaches {s : State} {a : Access} (h : s.reaches a = true) :
    s.reaches { a with off := 0 } = true := by
  simp only [State.reaches, Bool.and_eq_true] at h ⊢
  exact ⟨⟨h.1.1, rfl⟩, h.2⟩

theorem State.target_of_reaches {s : State} {a : Access} (h : s.reaches { a with off := 0 } = true) :
    s.target a = .map a.off.toNat := by
  obtain ⟨hreset, hwho | ⟨hwho, hperst, -⟩⟩ := (s.reaches_zero_iff a).mp h
  · simp [State.target, hreset, hwho]
  · have hoff : ¬ barSize (.pf 0) .bar0 ≤ a.off.toNat := not_le.mpr a.off.isLt
    simp [State.target, hreset, hwho, hperst, State.hostTarget, hoff]

theorem State.notReady_of_reaches {s : State} {a : Access} (t : Target) (h : s.reaches { a with off := 0 } = true) :
    s.notReady a t = false := by
  obtain ⟨-, hwho | ⟨-, -, hready⟩⟩ := (s.reaches_zero_iff a).mp h
  · simp [State.notReady, hwho]
  · simp [State.notReady, hready]

theorem State.isBar0_of_reaches {s : State} {a : Access} (h : s.reaches { a with off := 0 } = true) :
    isBar0 a = true := by
  obtain ⟨-, hwho | ⟨hwho, -, -⟩⟩ := (s.reaches_zero_iff a).mp h <;> simp [isBar0, hwho]

/-- A narrow or unaligned access that reaches BAR0 answers all-ones where it reads, and is an access error of kind 1. -/
theorem State.accessNarrow_of_reaches {s : State} {a : Access} (write : Bool) (l : List (BitVec 32))
    (h : s.reaches { a with off := 0 } = true) :
    s.accessNarrow a write l =
      (s.when (!write) (·.emit (.readData 0xFFFFFFFFFFFFFFFF))).accessError 1 a := by
  simp [State.accessNarrow, State.isBar0_of_reaches h, State.target_of_reaches h, State.notReady_of_reaches _ h]

/-- An aligned read that reaches BAR0 answers what `State.regRead` gives for its offset. -/
theorem exec_readClearAccess_of_reaches {s : State} {a : Access} (h : s.reaches a = true) :
    exec (.readClearAccess a) s =
      .next ((s.regRead a a.off.toNat).2.emit (.readData (s.regRead a a.off.toNat).1)) := by
  change execReadClearAccess a s = _
  have h0 := State.reaches_zero_of_reaches h
  simp [execReadClearAccess, go, State.isAligned_of_reaches h, State.accessRead, State.target_of_reaches h0,
    State.notReady_of_reaches _ h0]

/-! ### Outputs that stay: what posts an event or a message only adds to them -/

theorem State.mem_out_sendMsix {s : State} {o : Output} (fn : Fn) (vec : Nat) (h : o ∈ s.out) :
    o ∈ (s.sendMsix fn vec).out := by
  unfold State.sendMsix; dsimp only; split <;> simp [h]

theorem State.mem_out_ringWrite {s : State} {o : Output} (r : Nat) (addr : Word) (d : List Byte) (h : o ∈ s.out) :
    o ∈ (s.ringWrite r addr d).out := by
  unfold State.ringWrite; split <;> simp [h]

theorem State.mem_out_ringWriteBack {s : State} {o : Output} (r idx : Nat) (h : o ∈ s.out) :
    o ∈ (s.ringWriteBack r idx).out := by
  unfold State.ringWriteBack; split
  · exact State.mem_out_ringWrite _ _ _ h
  · exact h

theorem State.mem_out_ringCoalesce {s : State} {o : Output} (r : Nat) (h : o ∈ s.out) :
    o ∈ (s.ringCoalesce r).out := by
  unfold State.ringCoalesce; dsimp only; split
  · split
    · exact State.mem_out_sendMsix _ _ h
    · exact h
  · exact h

theorem State.mem_out_ringPut {s : State} {o : Output} (r : Nat) (e : List Byte) (h : o ∈ s.out) :
    o ∈ (s.ringPut r e).out := by
  unfold State.ringPut; dsimp only; split
  · exact State.mem_out_ringCoalesce _ (State.mem_out_ringWriteBack _ _ (State.mem_out_ringWrite _ _ _ h))
  · exact h

theorem State.mem_out_postEventAt {s : State} {o : Output} (code : Nat) (loc addr : Word) (d : List Byte)
    (h : o ∈ s.out) : o ∈ (s.postEventAt code loc addr d).out := by
  unfold State.postEventAt; dsimp only; split
  · exact State.mem_out_ringPut _ _ h
  · exact h

/-! ### What an access error records (R508) -/

/-- The ERR_STATUS of an access error, before the event that the first of them posts (R508). -/
def State.recordError (s : State) (kind : Nat) (a : Access) : State :=
  ((((s.addSat .pci_ERR_STATUS [] f_pci_ERR_STATUS_count 1).setFld .pci_ERR_STATUS [] f_pci_ERR_STATUS_last_kind kind).setFld
    .pci_ERR_STATUS [] f_pci_ERR_STATUS_last_func (Requester.func a.who).1).setFld
    .pci_ERR_STATUS [] f_pci_ERR_STATUS_last_vf (Requester.func a.who).2).setFld
    .pci_ERR_STATUS [] f_pci_ERR_STATUS_last_offset a.off.toNat

/-- An access error is its record, with the event ACCESS_ERR where the count was zero. -/
theorem State.accessError_eq (s : State) (kind : Nat) (a : Access) :
    s.accessError kind a =
      if s.fld .pci_ERR_STATUS [] f_pci_ERR_STATUS_count == 0 then
        (s.recordError kind a).postEventAt 0x008 (accessLoc ((s.recordError kind a).bar0Of a)).1
          (accessLoc ((s.recordError kind a).bar0Of a)).2 (natLE 8 ((s.recordError kind a).rd .pci_ERR_STATUS []).toNat)
      else s.recordError kind a := rfl

@[simp] theorem State.recordError_out (s : State) (kind : Nat) (a : Access) : (s.recordError kind a).out = s.out := rfl

/-- The record changes no register but ERR_STATUS. -/
theorem State.recordError_rd_of_ne (s : State) (kind : Nat) (a : Access) {r : Reg} {ix : List Nat}
    (h : Reg.addr .pci_ERR_STATUS [] ≠ r.addr ix) : (s.recordError kind a).rd r ix = s.rd r ix := by
  simp [State.recordError, State.addSat, State.setFld, State.rd_wr_of_ne _ _ r _ ix _ h]

theorem State.recordError_last_offset (s : State) (kind : Nat) (a : Access) :
    (s.recordError kind a).fld .pci_ERR_STATUS [] f_pci_ERR_STATUS_last_offset = a.off.toNat := by
  simp (disch := decide) only [State.recordError, State.fld_setFld_self]
  exact Nat.mod_eq_of_lt a.off.isLt

theorem State.recordError_last_kind (s : State) {kind : Nat} (a : Access) (hk : kind < 16) :
    (s.recordError kind a).fld .pci_ERR_STATUS [] f_pci_ERR_STATUS_last_kind = kind := by
  simp (disch := decide) only [State.recordError, State.fld_setFld_other, State.fld_setFld_self]
  exact Nat.mod_eq_of_lt hk

theorem State.recordError_count (s : State) (kind : Nat) (a : Access) :
    (s.recordError kind a).fld .pci_ERR_STATUS [] f_pci_ERR_STATUS_count =
      min (s.fld .pci_ERR_STATUS [] f_pci_ERR_STATUS_count + 1) 0xFFFF := by
  simp (disch := decide) only [State.recordError, State.addSat, State.fld_setFld_other, State.fld_setFld_self]
  exact Nat.mod_eq_of_lt (lt_of_le_of_lt (min_le_right _ _) (by decide))

/-- The event of an access error leaves the record, and every register that no event changes. -/
theorem State.accessError_rd_of_quietAt (s : State) (kind : Nat) (a : Access) {r : Reg} {ix : List Nat}
    (h : quietAt (r.addr ix)) : (s.accessError kind a).rd r ix = (s.recordError kind a).rd r ix := by
  rw [State.accessError_eq]; split
  · exact State.postEventAt_rd _ _ _ _ _ r ix h
  · rfl

/-- The registers that events change stand in the PCI block, above ERR_STATUS. -/
theorem quietAt_of_outside {off : Nat} (h : off < 0x310000 ∨ 0x400000 ≤ off) : quietAt off := by
  intro q _ _
  have hpidx : Reg.addr .pci_RING_PIDX [q] = 0x310010 + q * 64 := rfl
  have hstatus : Reg.addr .pci_RING_STATUS [q] = 0x310028 + q * 64 := rfl
  omega

theorem State.accessError_fld_errStatus (s : State) (kind : Nat) (a : Access) (f : Fld) :
    (s.accessError kind a).fld .pci_ERR_STATUS [] f = (s.recordError kind a).fld .pci_ERR_STATUS [] f :=
  congrArg f.get (s.accessError_rd_of_quietAt kind a (quietAt_of_outside (.inl (by decide))))

/-- An access error changes no register outside the PCI block. -/
theorem State.accessError_rd_of_outside (s : State) (kind : Nat) (a : Access) {r : Reg} {ix : List Nat}
    (h : r.addr ix < 0x300000 ∨ 0x400000 ≤ r.addr ix) : (s.accessError kind a).rd r ix = s.rd r ix := by
  have herr : Reg.addr .pci_ERR_STATUS [] = 0x300000 := rfl
  rw [State.accessError_rd_of_quietAt _ _ _ (quietAt_of_outside (by omega)),
    State.recordError_rd_of_ne _ _ _ (by omega)]

theorem State.mem_out_accessError {s : State} {o : Output} (kind : Nat) (a : Access) (h : o ∈ s.out) :
    o ∈ (s.accessError kind a).out := by
  rw [State.accessError_eq]; split
  · exact State.mem_out_postEventAt _ _ _ _ h
  · exact h

/-! ### Narrow and unaligned accesses (R7) -/

/-- Settles O3: the access becomes an access error of kind 1 on the state that holds the all-ones answer of a read
(`State.accessNarrow_of_reaches`); the rest is what an access error records and leaves. -/
theorem narrowAccessIsDiscardedAndRecorded : Obligations.NarrowAccessIsDiscardedAndRecorded := by
  unfold Obligations.NarrowAccessIsDiscardedAndRecorded
  intro s a write h
  have hexec : exec (.narrowUnalignedAccess a write) s =
      .next ((s.when (!write) (·.emit (.readData 0xFFFFFFFFFFFFFFFF))).accessError 1 a) :=
    congrArg Host.Outcome.next (State.accessNarrow_of_reaches write _ h)
  refine ⟨_, hexec, fun hread => ?_, ?_, ?_, ?_, fun r ix hr => ?_, ?_⟩
  · exact State.mem_out_accessError 1 a (by simp [State.when, hread])
  · rw [State.accessError_fld_errStatus, State.recordError_count]
    cases write <;> rfl
  · rw [State.accessError_fld_errStatus, State.recordError_last_kind _ _ (by decide)]
  · rw [State.accessError_fld_errStatus, State.recordError_last_offset]
  · rw [State.accessError_rd_of_outside _ _ _ hr]
    cases write <;> rfl
  · cases write <;> simp [State.when]

/-! ### Reads that clear (R9, R535) -/

/-- A read of a register that stands answers its shown bits, and has the effect of reading it. -/
theorem State.regRead_of_held {s : State} {off : Nat} {r : Reg} {ix : List Nat} (a : Access)
    (hopen : s.tmClosed off = false) (hfind : findReg off = some (r, ix)) (hheld : regHeld r ix = true) :
    s.regRead a off = (s.shown r ix &&& r.readableAt ix, s.readEffect r ix) := by
  simp [State.regRead, hopen, hfind, hheld]

/-- A droop detector counts events since the last read of max (R535), so reading its register clears `value`, an RO field,
with the RC field `max`. -/
theorem State.readEffect_droop_value (s : State) {i : Nat} (h : 136 ≤ i ∧ i < 152) :
    (s.readEffect .mgs_SENSOR [i]).fld .mgs_SENSOR [i] f_mgs_SENSOR_value = 0 := by
  simp [State.readEffect, State.when, h, State.fld_setFld_self _ _ _ f_mgs_SENSOR_value _ (by decide)]

/-- A device out of reset whose droop detector 136 has counted 5 events. -/
def droopCounted : State :=
  { State.reset with pwr := { State.reset.pwr with inReset := false } }.setFld .mgs_SENSOR [136] f_mgs_SENSOR_value 5

/-- A read of SENSOR[136] by the management cores. -/
def droopRead : Access := { who := .mgmt, off := 0x201440 }

theorem droopRead_reaches : droopCounted.reaches droopRead = true := by decide +kernel

theorem findReg_droopRead : findReg droopRead.off.toNat = some (.mgs_SENSOR, [136]) := by decide +kernel

theorem droopCounted_value : droopCounted.fld .mgs_SENSOR [136] f_mgs_SENSOR_value = 5 :=
  State.fld_setFld_self _ _ _ _ _ (by decide)

/-- Refutes O2: the statement lets a read change RC fields alone, but a read of a droop detector's SENSOR register also
clears its RO field `value` (R535), and `ownRead` does not leave that register out. -/
theorem not_registerReadShowsFieldsAndClearsRc : ¬ Obligations.RegisterReadShowsFieldsAndClearsRc := by
  unfold Obligations.RegisterReadShowsFieldsAndClearsRc
  intro h
  have hopen : droopCounted.tmClosed droopRead.off.toNat = false := by decide +kernel
  obtain ⟨hplain, -⟩ := h droopCounted droopRead droopRead_reaches hopen
  obtain ⟨t, ht, w, -, hfields, -⟩ := hplain .mgs_SENSOR [136] findReg_droopRead rfl rfl
  obtain ⟨-, -, hkept⟩ := hfields (f_mgs_SENSOR_value, .ro) (by decide)
  rw [exec_readClearAccess_of_reaches droopRead_reaches,
    State.regRead_of_held _ hopen findReg_droopRead rfl] at ht
  obtain rfl := Host.Outcome.next.inj ht
  have hcleared : (droopCounted.readEffect .mgs_SENSOR [136]).fld .mgs_SENSOR [136] f_mgs_SENSOR_value = 0 :=
    droopCounted.readEffect_droop_value (by decide)
  exact absurd (hcleared.symm.trans (hkept.trans droopCounted_value)) (by decide)

end Sys2Proof.Machine
end

section
/-! PROOFS. What a device reset and a power-on reset leave, what a request for a power domain and the begin of a start-up stage
keep, and how far the statement about resets (R597, R615 to R619) is decided: it rests on the severity of WDOG_EXPIRY,
which the spec gives nowhere and the model leaves free. -/

namespace Sys2Proof.Machine

/-! ### Which registers the store lists -/

theorem SMap.mem_insert {α : Type} {m : SMap α} {k : Nat} {v : α} {e : Nat × α} (h : e ∈ SMap.insert m k v) :
    e.1 = k ∨ e ∈ m := by
  induction m with
  | nil => exact .inl (congrArg Prod.fst (List.mem_singleton.mp h))
  | cons x m ih =>
    simp only [SMap.insert] at h
    split at h
    · simp only [List.mem_cons] at h ⊢
      tauto
    · split at h <;> simp only [List.mem_cons] at h ⊢ <;> rcases h with rfl | h <;> tauto

theorem SMap.mem_of_mem_erase {α : Type} {m : SMap α} {k : Nat} {e : Nat × α} (h : e ∈ SMap.erase m k) : e ∈ m := by
  induction m with
  | nil => exact h
  | cons x m ih =>
    simp only [SMap.erase] at h
    split at h
    · exact .tail _ (ih h)
    · simp only [List.mem_cons] at h ⊢
      exact h.imp_right ih

/-- A write lists no register beside its own that was not listed before. -/
theorem State.wr_regs_all {s : State} {p : Nat → Bool} {r : Reg} {ix : List Nat} (v : Word)
    (h : (s.regs.all fun e => p e.1) = true) (hr : p (r.addr ix) = true) :
    ((s.wr r ix v).regs.all fun e => p e.1) = true := by
  simp only [List.all_eq_true] at h ⊢
  intro e he
  simp only [State.wr, SMap.put] at he
  split at he
  · exact h e (SMap.mem_of_mem_erase he)
  · rcases SMap.mem_insert he with hk | hm
    · exact hk ▸ hr
    · exact h e hm

/-! ### The device reset (R615, R616) -/

/-- The registers that a device reset does not return to their reset values (R616, R617). -/
def keptByDeviceReset (off : Nat) : Bool := off == Reg.addr .cpr_RESET_CAUSE [] || off == Reg.addr .glb_IDENT []

/-- A counter that saturates reads the sum, or the most its field holds (R12). -/
theorem State.fld_addSat_self (s : State) (r : Reg) (ix : List Nat) (f : Fld) (n : Nat) (h : f.lo + f.width ≤ 64) :
    (s.addSat r ix f n).fld r ix f = min (s.fld r ix f + n) (2 ^ f.width - 1) := by
  rw [State.addSat, State.fld_setFld_self _ _ _ _ _ h]
  exact Nat.mod_eq_of_lt (lt_of_le_of_lt (min_le_right _ _) (Nat.sub_lt (Nat.two_pow_pos _) one_pos))

theorem State.fld_addSat_of_ne (s : State) (r r' : Reg) (ix ix' : List Nat) (f g : Fld) (n : Nat)
    (h : r.addr ix ≠ r'.addr ix') : (s.addSat r ix f n).fld r' ix' g = s.fld r' ix' g :=
  State.fld_setFld_of_ne _ _ _ _ _ _ _ _ h

/-- A device reset leaves what R615 and R616 say, whatever its cause. -/
theorem State.deviceReset_deviceResetFrom (s : State) {cause : Nat} (h : cause < 256) :
    (s.deviceReset cause).deviceResetFrom s cause := by
  refine ⟨rfl, rfl, rfl, ?cause, ?resets, ?regs, rfl, rfl, rfl, rfl, rfl, rfl, rfl, rfl, rfl, rfl, rfl, rfl, rfl⟩
  case cause =>
    unfold State.deviceReset
    rw [State.fld_setFld_self _ _ _ _ _ (by decide)]
    exact Nat.mod_eq_of_lt h
  case resets =>
    unfold State.deviceReset
    rw [State.fld_setFld_other _ _ _ _ _ _ (by decide) (by decide), State.fld_addSat_self _ _ _ _ _ (by decide)]
    simp only [State.fld]
    rw [State.rd_wr_of_ne _ _ _ _ _ _ (by decide), State.rd_wr_self]
  case regs =>
    refine State.wr_regs_all (p := keptByDeviceReset) _ ?_ (by decide)
    refine State.wr_regs_all (p := keptByDeviceReset) _ ?_ (by decide)
    refine State.wr_regs_all (p := keptByDeviceReset) _ ?_ (by decide)
    exact State.wr_regs_all (p := keptByDeviceReset) _ rfl (by decide)

/-- A device reset leaves the same from any two states that agree on what it keeps. -/
theorem State.deviceResetFrom_of_kept {t u s : State} {cause : Nat} (h : t.deviceResetFrom u cause)
    (hflash : u.flash = s.flash) (hfused : u.fused = s.fused)
    (hcause : u.rd .cpr_RESET_CAUSE [] = s.rd .cpr_RESET_CAUSE []) (hlog : u.mgmt.logWait = s.mgmt.logWait)
    (hcal : u.mgmt.calendar = s.mgmt.calendar) (hpending : u.pending = s.pending) : t.deviceResetFrom s cause := by
  unfold State.deviceResetFrom State.fld at h ⊢
  rwa [hflash, hfused, hcause, hlog, hcal, hpending] at h

/-- What a device reset leaves says of the power state only that the reset is held. -/
theorem State.deviceResetFrom_withPwr {t s : State} {cause : Nat} (h : t.deviceResetFrom s cause) {p : PowerSt}
    (hp : p.inReset = true) : ({ t with pwr := p } : State).deviceResetFrom s cause := by
  obtain ⟨hflash, hfused, -, hrest⟩ := h
  exact ⟨hflash, hfused, hp, hrest⟩

/-- A power-on reset lists no register but the device's identity. -/
theorem State.powerOnReset_regs_all (s : State) :
    (s.powerOnReset.regs.all fun e => e.1 == Reg.addr .glb_IDENT []) = true :=
  State.wr_regs_all (p := fun a => a == Reg.addr .glb_IDENT []) _ rfl (by decide)

/-! ### What an event adds to the log that waits for flash (R536) -/

theorem State.postEvent_calendar (s : State) (code : Nat) (d : List Byte) :
    (s.postEvent code d).mgmt.calendar = s.mgmt.calendar := by
  unfold State.postEvent State.postEventAt
  dsimp only
  split
  · simp [State.logPut]
  · rfl

/-- An event below NOTICE does not wait for flash. -/
theorem State.postEvent_logWait_of_lt (s : State) {code : Nat} (d : List Byte) (h : eventSeverity code < 2) :
    (s.postEvent code d).mgmt.logWait = s.mgmt.logWait := by
  unfold State.postEvent State.postEventAt
  dsimp only
  split
  · simp [State.logPut, Nat.not_le.mpr h]
  · rfl

/-- An event of NOTICE or higher that is posted waits for flash. -/
theorem State.postEvent_logWait_of_le (s : State) {code : Nat} (d : List Byte) (h : 2 ≤ eventSeverity code)
    (hroute : s.flag .glb_EVT_ROUTE [code] f_glb_EVT_ROUTE_enable = true) :
    (s.postEvent code d).mgmt.logWait ≠ s.mgmt.logWait := by
  unfold State.postEvent State.postEventAt
  simp [hroute, State.logPut, h]

/-! ### What a request for a power domain keeps (R612, R620) -/

/-- A lifecycle request changes at most one field of the function's own status register. -/
theorem State.lcRequest_fst (s : State) (d : LcReg) (on canStart : Bool) :
    (s.lcRequest d on canStart).1 = s ∨ ∃ f v, (s.lcRequest d on canStart).1 = s.setFld d.reg d.ix f v := by
  unfold State.lcRequest
  split
  case h_1 | h_6 => split <;> simp
  all_goals exact .inr ⟨_, _, rfl⟩

/-- A lifecycle request keeps every part of the state that a write to the function's status register keeps. -/
theorem State.lcRequest_keeps {β : Type} (g : State → β) (s : State) (d : LcReg) (on canStart : Bool)
    (h : ∀ f v, g (s.setFld d.reg d.ix f v) = g s) : g (s.lcRequest d on canStart).1 = g s := by
  obtain heq | ⟨f, v, heq⟩ := s.lcRequest_fst d on canStart
  · rw [heq]
  · rw [heq, h]

/-- A request for a domain sets its enable; beside that it is a lifecycle request, with or without the begin of a start. -/
theorem State.pdRequestOn_of_ne_zero (s : State) {n : Nat} (h : n ≠ 0) :
    ∃ l, l = ((s.setFlag .cpr_PD_CTRL [n] f_cpr_PD_CTRL_enable true).lcRequest (pdLc n) true true).1 ∧
      (s.pdRequestOn n = l ∨ s.pdRequestOn n = l.pdBegin n) := by
  refine ⟨_, rfl, ?_⟩
  unfold State.pdRequestOn
  rw [if_neg h]
  dsimp only
  split
  · next heq => rw [heq]; exact .inr rfl
  · next heq => rw [heq]; exact .inl rfl

/-- The begin of a domain's start changes the domain's status, and no other register outside the event rings. -/
theorem State.pdBegin_rd_of_ne (s : State) {n : Nat} {r : Reg} {ix : List Nat}
    (hstatus : Reg.addr .cpr_PD_STATUS [n] ≠ r.addr ix) (hquiet : quietAt (r.addr ix)) :
    (s.pdBegin n).rd r ix = s.rd r ix := by
  unfold State.pdBegin State.pdEvent
  rw [State.postEvent_rd _ _ _ _ _ hquiet]
  exact State.rd_wr_of_ne s _ _ _ _ _ hstatus

@[simp] theorem State.pdBegin_boot (s : State) (n : Nat) : (s.pdBegin n).boot = s.boot := by
  simp [State.pdBegin, State.pdEvent]

theorem State.pdBegin_pwr (s : State) (n : Nat) :
    (s.pdBegin n).pwr = { s.pwr with pdWait := s.pwr.pdWait ++ [n], pdSince := SMap.put 0 s.pwr.pdSince n s.cycle } := by
  simp [State.pdBegin, State.pdEvent]

/-- A request for a domain changes, beside its enable, the domain's status and no other register outside the event rings. -/
theorem State.pdRequestOn_rd (s : State) {n : Nat} {r : Reg} {ix : List Nat} (hn : n ≠ 0)
    (hstatus : Reg.addr .cpr_PD_STATUS [n] ≠ r.addr ix) (hquiet : quietAt (r.addr ix)) :
    (s.pdRequestOn n).rd r ix = (s.setFlag .cpr_PD_CTRL [n] f_cpr_PD_CTRL_enable true).rd r ix := by
  obtain ⟨l, rfl, hl⟩ := s.pdRequestOn_of_ne_zero hn
  have hreq := State.lcRequest_keeps (State.rd · r ix) (s.setFlag .cpr_PD_CTRL [n] f_cpr_PD_CTRL_enable true) (pdLc n)
    true true fun f v => State.rd_wr_of_ne _ _ _ _ _ _ hstatus
  rcases hl with hl | hl
  · rw [hl, hreq]
  · rw [hl, State.pdBegin_rd_of_ne _ hstatus hquiet, hreq]

/-- A request for a domain keeps what the lifecycle's registers and the queue for the ramp slot do not hold. -/
theorem State.pdRequestOn_keeps {β : Type} (g : State → β) (s : State) (n : Nat)
    (hset : ∀ (s : State) r ix f v, g (s.setFld r ix f v) = g s) (hbegin : ∀ s : State, g (s.pdBegin n) = g s) :
    g (s.pdRequestOn n) = g s := by
  by_cases hn : n = 0
  · rw [State.pdRequestOn, if_pos hn]
  obtain ⟨l, rfl, hl⟩ := s.pdRequestOn_of_ne_zero hn
  have hreq := State.lcRequest_keeps g (s.setFlag .cpr_PD_CTRL [n] f_cpr_PD_CTRL_enable true) (pdLc n) true true
    fun f v => hset _ _ _ f v
  rcases hl with hl | hl
  · rw [hl, hreq, State.setFlag, hset]
  · rw [hl, hbegin, hreq, State.setFlag, hset]

theorem pdCtrl_addr (n : Nat) : Reg.addr .cpr_PD_CTRL [n] = 0x101000 + n * 8 := rfl
theorem pdStatus_addr (n : Nat) : Reg.addr .cpr_PD_STATUS [n] = 0x101100 + n * 8 := rfl

/-- Registers below the power domains' own are as before a request. -/
theorem State.pdRequestOn_rd_of_lt (s : State) (n : Nat) {r : Reg} {ix : List Nat} (h : r.addr ix < 0x101000) :
    (s.pdRequestOn n).rd r ix = s.rd r ix := by
  by_cases hn : n = 0
  · rw [State.pdRequestOn, if_pos hn]
  have hctrl := pdCtrl_addr n
  have hstatus := pdStatus_addr n
  rw [s.pdRequestOn_rd hn (by omega) (quietAt_of_outside (by omega))]
  exact State.rd_wr_of_ne _ _ _ _ _ _ (by omega)

/-- A request for a domain shows in its enable. -/
theorem State.pdRequestOn_enable_self (s : State) {n : Nat} (hn : n ≠ 0) (hlt : n < 24) :
    (s.pdRequestOn n).flag .cpr_PD_CTRL [n] f_cpr_PD_CTRL_enable = true := by
  have hctrl := pdCtrl_addr n
  have hstatus := pdStatus_addr n
  have hrd := s.pdRequestOn_rd (r := .cpr_PD_CTRL) (ix := [n]) hn (by omega) (quietAt_of_outside (by omega))
  simp only [State.flag, State.fld, hrd]
  exact State.flag_setFlag_self s .cpr_PD_CTRL [n] f_cpr_PD_CTRL_enable true (by decide) (by decide)

/-- A request for a domain clears no enable. -/
theorem State.pdRequestOn_enable_of_enable (s : State) (m : Nat) {n : Nat} (hlt : n < 24)
    (h : s.flag .cpr_PD_CTRL [n] f_cpr_PD_CTRL_enable = true) :
    (s.pdRequestOn m).flag .cpr_PD_CTRL [n] f_cpr_PD_CTRL_enable = true := by
  by_cases hm : m = 0
  · rwa [State.pdRequestOn, if_pos hm]
  by_cases hmn : m = n
  · exact hmn ▸ s.pdRequestOn_enable_self hm (hmn ▸ hlt)
  have hctrl := pdCtrl_addr n
  have hctrl' := pdCtrl_addr m
  have hstatus := pdStatus_addr m
  have hrd := s.pdRequestOn_rd (r := .cpr_PD_CTRL) (ix := [n]) hm (by omega) (quietAt_of_outside (by omega))
  have hne : Reg.addr .cpr_PD_CTRL [m] ≠ Reg.addr .cpr_PD_CTRL [n] := by omega
  simp only [State.flag, State.fld, hrd, State.setFlag, State.setFld, State.rd_wr_of_ne _ _ _ _ _ _ hne] at h ⊢
  exact h

theorem State.each_pdRequestOn_enable_of_enable (l : List Nat) (s : State) {n : Nat} (hlt : n < 24)
    (h : s.flag .cpr_PD_CTRL [n] f_cpr_PD_CTRL_enable = true) :
    (s.each l State.pdRequestOn).flag .cpr_PD_CTRL [n] f_cpr_PD_CTRL_enable = true := by
  induction l generalizing s with
  | nil => exact h
  | cons m l ih => exact ih _ (s.pdRequestOn_enable_of_enable m hlt h)

/-- Requests for a list of domains show in the enable of each of them. -/
theorem State.each_pdRequestOn_enable (l : List Nat) (s : State) {n : Nat} (hn : n ≠ 0) (hlt : n < 24) (h : n ∈ l) :
    (s.each l State.pdRequestOn).flag .cpr_PD_CTRL [n] f_cpr_PD_CTRL_enable = true := by
  induction l generalizing s with
  | nil => cases h
  | cons m l ih =>
    rcases List.mem_cons.mp h with rfl | h
    · exact State.each_pdRequestOn_enable_of_enable l _ hlt (s.pdRequestOn_enable_self hn hlt)
    · exact ih _ h

/-! ### The begin of a start-up stage (R494, R521, R610) -/

/-- The stage that begins, before its domains are requested: it is shown, timed and posted. -/
def State.stageShown (s : State) (n : Nat) : State :=
  let s := s.setFld .glb_BOOT_STATUS [] f_glb_BOOT_STATUS_stage n
  let s := { s with boot := { s.boot with stageSince := s.cycle } }
  s.postEvent 0x100 (natLE 1 n ++ natLE 4 ((s.cycle - s.boot.since) / 2000000))

/-- A stage that begins is shown, and then its domains are requested. -/
theorem State.enterStage_eq (s : State) (n : Nat) :
    s.enterStage n = (s.stageShown n).each (stageDomains n) State.pdRequestOn := rfl

theorem State.stageShown_rd (s : State) (n : Nat) {r : Reg} {ix : List Nat} (hquiet : quietAt (r.addr ix)) :
    (s.stageShown n).rd r ix = (s.setFld .glb_BOOT_STATUS [] f_glb_BOOT_STATUS_stage n).rd r ix := by
  unfold State.stageShown
  exact State.postEvent_rd _ _ _ _ _ hquiet

/-- A stage that begins keeps the power state but for the queue for the ramp slot. -/
theorem State.enterStage_pwr_keeps {β : Type} (g : PowerSt → β) (s : State) (n : Nat)
    (h : ∀ p l m, g { p with pdWait := l, pdSince := m } = g p) : g (s.enterStage n).pwr = g s.pwr := by
  rw [State.enterStage_eq,
    State.each_keeps (fun s => g s.pwr) _ _ _ fun s m => State.pdRequestOn_keeps (fun s => g s.pwr) s m
      (fun _ _ _ _ _ => rfl) fun s => by rw [State.pdBegin_pwr, h]]
  simp [State.stageShown]

theorem State.enterStage_boot (s : State) (n : Nat) : (s.enterStage n).boot = { s.boot with stageSince := s.cycle } := by
  rw [State.enterStage_eq,
    State.each_keeps State.boot _ _ _ fun s m => State.pdRequestOn_keeps State.boot s m
      (fun _ _ _ _ _ => rfl) fun s => s.pdBegin_boot m]
  simp [State.stageShown]

/-- Below the power domains' registers, a stage that begins changes BOOT_STATUS.stage alone. -/
theorem State.enterStage_rd_of_lt (s : State) (n : Nat) {r : Reg} {ix : List Nat} (h : r.addr ix < 0x101000) :
    (s.enterStage n).rd r ix = (s.setFld .glb_BOOT_STATUS [] f_glb_BOOT_STATUS_stage n).rd r ix := by
  rw [State.enterStage_eq, State.each_keeps (State.rd · r ix) _ _ _ fun s m => s.pdRequestOn_rd_of_lt m h,
    State.stageShown_rd _ _ (quietAt_of_outside (by omega))]

theorem State.enterStage_bootStage (s : State) {n : Nat} (h : n < 8) : (s.enterStage n).bootStage = n := by
  unfold State.bootStage State.fld
  rw [s.enterStage_rd_of_lt n (by decide)]
  exact (State.fld_setFld_self s .glb_BOOT_STATUS [] f_glb_BOOT_STATUS_stage n (by decide)).trans
    (Nat.mod_eq_of_lt (lt_of_lt_of_le h (by decide)))

theorem State.enterStage_straps (s : State) (n : Nat) (f : Fld) :
    (s.enterStage n).fld .glb_STRAPS [] f = s.fld .glb_STRAPS [] f := by
  unfold State.fld
  rw [s.enterStage_rd_of_lt n (by decide), State.setFld, State.rd_wr_of_ne _ _ _ _ _ _ (by decide)]

/-! ### A release (R495, R521, R598) -/

/-- A write of the header keeps all but the flash and the count of its erases. -/
theorem State.writeHeader_keeps {β : Type} (g : State → β) (hg : ∀ (s : State) f m, g { s with flash := f, mgmt := m } = g s)
    (s : State) (h : Hdr) : g (s.writeHeader h) = g s := by
  unfold State.writeHeader
  dsimp only
  rw [apply_ite g]
  exact (congrArg₂ (ite _) (hg s _ _) (hg s _ _)).trans (ite_self _)

theorem State.showSlots_fld_of_ne (s : State) {r : Reg} {ix : List Nat} (f : Fld)
    (h : Reg.addr .mgs_SLOT_STATUS [] ≠ r.addr ix) : s.showSlots.fld r ix f = s.fld r ix f := by
  unfold State.showSlots State.setFlag
  simp only [State.fld_setFld_of_ne _ _ _ _ _ _ _ _ h]

theorem State.straps_sampled (s : State) (tw : Bool) (sel : Fin 4) :
    ((s.setFlag .glb_STRAPS [] f_glb_STRAPS_twin_id tw).setFld .glb_STRAPS [] f_glb_STRAPS_playbook_sel sel).flag
        .glb_STRAPS [] f_glb_STRAPS_twin_id = tw ∧
      ((s.setFlag .glb_STRAPS [] f_glb_STRAPS_twin_id tw).setFld .glb_STRAPS [] f_glb_STRAPS_playbook_sel sel).fld
        .glb_STRAPS [] f_glb_STRAPS_playbook_sel = sel.val := by
  constructor
  · rw [State.flag, State.fld_setFld_other _ _ _ _ _ _ (by decide) (by decide)]
    exact State.flag_setFlag_self s _ _ _ _ (by decide) (by decide)
  · rw [State.fld_setFld_self _ _ _ _ _ (by decide)]
    exact Nat.mod_eq_of_lt (lt_of_lt_of_le sel.isLt (by decide))

/-- A release with power good and lock ends the reset, samples the straps and begins stage 0. -/
theorem exec_resetRelease {s : State} (tw : Bool) (sel : Fin 4) (hreset : s.pwr.inReset = true)
    (hgood : s.pwr.pwrGood = true) (hlock : s.pwr.pllLocked = true) :
    ∃ u : State, exec (.resetRelease tw sel) s = .next (u.showSlots.enterStage 0) ∧
      u.pwr.inReset = false ∧ u.pwr.time = 0 ∧ u.boot.running = true ∧
      u.flag .glb_STRAPS [] f_glb_STRAPS_twin_id = tw ∧
      u.fld .glb_STRAPS [] f_glb_STRAPS_playbook_sel = sel.val := by
  change ∃ u : State, execResetRelease tw sel s = _ ∧ _
  unfold execResetRelease
  rw [if_neg (by simp [hreset, hgood, hlock])]
  have hkeeps {β : Type} (g : State → β) (hg : ∀ (s : State) f m, g { s with flash := f, mgmt := m } = g s) (s : State)
      (c : Bool) (h : Hdr) : g (s.when c (·.writeHeader h)) = g s :=
    State.when_keeps g s c _ (State.writeHeader_keeps g hg s h)
  refine ⟨_, rfl, ?_, ?_, ?_, ?_, ?_⟩
  · exact hkeeps (·.pwr.inReset) (fun _ _ _ => rfl) _ _ _
  · exact hkeeps (·.pwr.time) (fun _ _ _ => rfl) _ _ _
  · exact hkeeps (·.boot.running) (fun _ _ _ => rfl) _ _ _
  · exact (hkeeps (·.flag .glb_STRAPS [] f_glb_STRAPS_twin_id) (fun _ _ _ => rfl) _ _ _).trans
      (State.straps_sampled _ tw sel).1
  · exact (hkeeps (·.fld .glb_STRAPS [] f_glb_STRAPS_playbook_sel) (fun _ _ _ => rfl) _ _ _).trans
      (State.straps_sampled _ tw sel).2

/-- What a release leaves, as O48 states it. -/
theorem resetRelease_effects {s : State} (tw : Bool) (sel : Fin 4) (hreset : s.pwr.inReset = true)
    (hgood : s.pwr.pwrGood = true) (hlock : s.pwr.pllLocked = true) : Effects (.resetRelease tw sel) s fun t =>
      t.pwr.inReset = false ∧ t.pwr.time = 0 ∧ t.boot.running = true ∧ t.bootStage = 0 ∧
      t.flag .glb_STRAPS [] f_glb_STRAPS_twin_id = tw ∧ t.fld .glb_STRAPS [] f_glb_STRAPS_playbook_sel = sel.val ∧
      t.flag .cpr_PD_CTRL [1] f_cpr_PD_CTRL_enable = true ∧ t.flag .cpr_PD_CTRL [20] f_cpr_PD_CTRL_enable = true ∧
      t.flag .cpr_PD_CTRL [23] f_cpr_PD_CTRL_enable = true := by
  obtain ⟨u, hexec, hin, htime, hrun, htwin, hsel⟩ := exec_resetRelease tw sel hreset hgood hlock
  have henable {n : Nat} (hn : n ≠ 0) (hlt : n < 24) (hmem : n ∈ stageDomains 0) :
      (u.showSlots.enterStage 0).flag .cpr_PD_CTRL [n] f_cpr_PD_CTRL_enable = true :=
    State.each_pdRequestOn_enable (stageDomains 0) (u.showSlots.stageShown 0) hn hlt hmem
  have hstraps (f : Fld) : (u.showSlots.enterStage 0).fld .glb_STRAPS [] f = u.fld .glb_STRAPS [] f := by
    rw [State.enterStage_straps, State.showSlots_fld_of_ne _ _ (by decide)]
  refine ⟨_, hexec, ?_, ?_, ?_, ?_, ?_, ?_, ?_, ?_, ?_⟩
  · rw [State.enterStage_pwr_keeps (·.inReset) _ _ fun _ _ _ => rfl]
    exact hin
  · rw [State.enterStage_pwr_keeps (·.time) _ _ fun _ _ _ => rfl]
    exact htime
  · rw [State.enterStage_boot]
    exact hrun
  · exact State.enterStage_bootStage _ (by decide)
  · rw [State.flag, hstraps]
    exact htwin
  · rw [hstraps, hsel]
  · exact henable (by decide) (by decide) (by decide)
  · exact henable (by decide) (by decide) (by decide)
  · exact henable (by decide) (by decide) (by decide)

/-! ### The watchdog (R619) -/

/-- The watchdog's expiry counted and posted, with the stage that its event carries (R619, R624). -/
def State.wdogPosted (s : State) (stage : Nat) : State :=
  (s.addSat .cpr_WDOG [] f_cpr_WDOG_expiries 1).postEvent 0x1C5 (natLE 1 stage)

/-- The event of an expiry changes no register but the count of expiries, outside the event rings. -/
theorem State.wdogPosted_fld (s : State) (stage : Nat) {r : Reg} {ix : List Nat} (f : Fld) (h : quietAt (r.addr ix)) :
    (s.wdogPosted stage).fld r ix f = (s.addSat .cpr_WDOG [] f_cpr_WDOG_expiries 1).fld r ix f :=
  State.postEvent_fld _ _ _ _ _ _ h

section
variable {s : State} (henable : s.flag .cpr_WDOG [] f_cpr_WDOG_enable = true)
  (hdue : s.passed s.pwr.wdogSince (max 1 (s.fld .cpr_WDOG [] f_cpr_WDOG_period) * 2000000) = true)
include henable hdue

/-- The first expiry restarts the management and arms the second. -/
theorem exec_wdogExpiry_first (hfirst : s.pwr.wdogFirst = false) :
    exec .wdogExpiry s = .next ({ s.wdogPosted 1 with
      pwr := { s.pwr with wdogSince := s.cycle, wdogFirst := true } } : State).mgmtRestartBegin := by
  change execWdogExpiry s = _
  simp [execWdogExpiry, henable, hdue, hfirst, go, State.wdogPosted]

/-- The second expiry is a device reset with cause 4, after its event. -/
theorem exec_wdogExpiry_second (hsecond : s.pwr.wdogFirst = true) :
    exec .wdogExpiry s = .next ((s.wdogPosted 2).deviceReset 4) := by
  change execWdogExpiry s = _
  simp [execWdogExpiry, henable, hdue, hsecond, go, State.wdogPosted]

theorem wdogExpiry_first_effects (hfirst : s.pwr.wdogFirst = false) : Effects .wdogExpiry s fun t =>
    t.boot.mgmtUp = false ∧ t.pwr.wdogFirst = true ∧ t.pwr.wdogSince = s.cycle ∧
    t.fld .cpr_WDOG [] f_cpr_WDOG_expiries =
      min (s.fld .cpr_WDOG [] f_cpr_WDOG_expiries + 1) (2 ^ f_cpr_WDOG_expiries.width - 1) ∧
    t.fld .cpr_RESET_CAUSE [] f_cpr_RESET_CAUSE_mgmt_restarts =
      min (s.fld .cpr_RESET_CAUSE [] f_cpr_RESET_CAUSE_mgmt_restarts + 1)
        (2 ^ f_cpr_RESET_CAUSE_mgmt_restarts.width - 1) := by
  refine ⟨_, exec_wdogExpiry_first henable hdue hfirst, rfl, rfl, rfl, ?expiries, ?restarts⟩
  case expiries =>
    refine (State.fld_addSat_of_ne _ .cpr_RESET_CAUSE .cpr_WDOG [] [] _ f_cpr_WDOG_expiries 1 (by decide)).trans ?_
    refine (s.wdogPosted_fld 1 _ (quietAt_of_outside (.inl (by decide)))).trans ?_
    exact State.fld_addSat_self _ _ _ _ _ (by decide)
  case restarts =>
    refine (State.fld_addSat_self _ .cpr_RESET_CAUSE [] f_cpr_RESET_CAUSE_mgmt_restarts 1 (by decide)).trans ?_
    have hposted : (s.wdogPosted 1).fld .cpr_RESET_CAUSE [] f_cpr_RESET_CAUSE_mgmt_restarts =
        s.fld .cpr_RESET_CAUSE [] f_cpr_RESET_CAUSE_mgmt_restarts := by
      rw [s.wdogPosted_fld 1 _ (quietAt_of_outside (.inl (by decide))), State.fld_addSat_of_ne _ _ _ _ _ _ _ _ (by decide)]
    exact congrArg (fun v => min (v + 1) _) hposted

/-- With WDOG_EXPIRY below NOTICE, the second expiry leaves what every device reset leaves. -/
theorem wdogExpiry_second_effects (hsecond : s.pwr.wdogFirst = true) (hsev : eventSeverity 0x1C5 < 2) :
    Effects .wdogExpiry s fun t => t.deviceResetFrom s 4 := by
  refine ⟨_, exec_wdogExpiry_second henable hdue hsecond, ?_⟩
  refine State.deviceResetFrom_of_kept (State.deviceReset_deviceResetFrom _ (by decide)) ?_ ?_ ?_ ?_ ?_ ?_
  · simp [State.wdogPosted]
  · simp [State.wdogPosted]
  · rw [State.wdogPosted, State.postEvent_rd _ _ _ _ _ (quietAt_of_outside (.inl (by decide)))]
    exact State.rd_wr_of_ne _ _ _ _ _ _ (by decide)
  · rw [State.wdogPosted, State.postEvent_logWait_of_lt _ _ hsev, State.addSat_mgmt]
  · rw [State.wdogPosted, State.postEvent_calendar, State.addSat_mgmt]
  · simp [State.wdogPosted]

/-- With WDOG_EXPIRY at NOTICE or higher, the second expiry leaves its own log entry waiting for flash. -/
theorem not_wdogExpiry_second_effects (hsecond : s.pwr.wdogFirst = true) (hsev : 2 ≤ eventSeverity 0x1C5)
    (hroute : s.flag .glb_EVT_ROUTE [0x1C5] f_glb_EVT_ROUTE_enable = true) :
    ¬ Effects .wdogExpiry s fun t => t.deviceResetFrom s 4 := by
  rintro ⟨t, hexec, ht⟩
  rw [exec_wdogExpiry_second henable hdue hsecond] at hexec
  obtain rfl := Host.Outcome.next.inj hexec
  obtain ⟨-, -, -, -, -, -, hmgmt, -⟩ := ht
  have hlog : ((s.wdogPosted 2).deviceReset 4).mgmt.logWait = s.mgmt.logWait := by rw [hmgmt]
  refine State.postEvent_logWait_of_le (s.addSat .cpr_WDOG [] f_cpr_WDOG_expiries 1) _ hsev ?_ hlog
  rw [State.flag, State.fld_addSat_of_ne _ _ _ _ _ _ _ _ (by decide)]
  exact hroute

end

/-! ### The begins of a reset, command by command (R595, R597, R615, R618, R633) -/

theorem powerGood_effects {s : State} (h : s.pwr.pwrGood = false) : Effects .powerGood s fun t =>
    t.pwr = { s.pwr with pwrGood := true, pwrAt := s.cycle, inReset := true } ∧ t.regs = s.regs := by
  refine ⟨{ s with pwr := { s.pwr with pwrGood := true, pwrAt := s.cycle, inReset := true } }, ?_, rfl, rfl⟩
  change execPowerGood s = _
  simp [execPowerGood, h, go]

theorem pllLock_effects {s : State} (h : s.pwr.pwrGood = true) : Effects .pllLock s fun t =>
    t.pwr = { s.pwr with pllLocked := true } ∧ t.regs = s.regs :=
  ⟨{ s with pwr := { s.pwr with pllLocked := true } }, if_pos h, rfl, rfl⟩

theorem pllLockLoss_effects {s : State} (h : s.pwr.pllLocked = true) : Effects .pllLockLoss s fun t =>
    t.deviceResetFrom s 5 ∧ t.pwr.pllLocked = false :=
  ⟨_, if_pos h, State.deviceResetFrom_of_kept (State.deviceReset_deviceResetFrom _ (by decide)) rfl rfl rfl rfl rfl rfl,
    rfl⟩

/-- With power good, a device reset by a cause that holds nothing else is the reset with that cause. -/
theorem deviceReset_effects {s : State} (h : s.pwr.pwrGood = true) :
    (Effects (.deviceReset .resetCtrl) s fun t => t.deviceResetFrom s 3) ∧
      (Effects (.deviceReset .watchdog) s fun t => t.deviceResetFrom s 4) := by
  have hexec (c : ResetSource) : exec (.deviceReset c) s = execDeviceReset c s := rfl
  constructor
  · exact ⟨s.deviceReset 3, by simp [hexec, execDeviceReset, h, go], s.deviceReset_deviceResetFrom (by decide)⟩
  · exact ⟨s.deviceReset 4, by simp [hexec, execDeviceReset, h, go], s.deviceReset_deviceResetFrom (by decide)⟩

/-- RESET_N low for 100 cycles or more holds a device reset; a shorter low is ignored (R633). -/
theorem resetPin_effects {s : State} (n : Nat) (h : s.pwr.pwrGood = true) :
    (100 ≤ n → Effects (.deviceReset (.pin n)) s fun t => t.deviceResetFrom s 1 ∧ t.pwr.resetPin = true) ∧
      (n < 100 → Effects (.deviceReset (.pin n)) s fun t => t = s) := by
  have hexec : exec (.deviceReset (.pin n)) s = execDeviceReset (.pin n) s := rfl
  constructor <;> intro hn
  · refine ⟨{ s.deviceReset 1 with pwr := { (s.deviceReset 1).pwr with resetPin := true } }, ?_,
      State.deviceResetFrom_withPwr (s.deviceReset_deviceResetFrom (by decide)) rfl, rfl⟩
    simp [hexec, execDeviceReset, h, go, Nat.not_lt.mpr hn]
  · exact ⟨s, by simp [hexec, execDeviceReset, h, go, hn], rfl⟩

/-- RESTART resets the device, an in-step source after it has left step (R531). -/
theorem restartReset_effects {s : State} (h : s.pwr.pwrGood = true) :
    (s.isSource = false → Effects (.deviceReset .restart) s fun t => t.deviceResetFrom s 2) ∧
      (s.isSource = true → Effects (.deviceReset .restart) s fun t => t.deviceResetFrom (s.stepEnd 1) 2) := by
  have hexec : exec (.deviceReset .restart) s = .next s.restartReset := by
    change execDeviceReset .restart s = _
    simp [execDeviceReset, h, go]
  constructor <;> intro hsource <;> refine ⟨_, hexec, ?_⟩ <;> rw [State.restartReset, hsource]
  · exact s.deviceReset_deviceResetFrom (by decide)
  · exact (s.stepEnd 1).deviceReset_deviceResetFrom (by decide)

/-- RESET_CTRL resets the device for its key alone (R618). -/
theorem resetKeyWrite_effects (s : State) (key : BitVec 16) :
    (key = 0xD1CE → Effects (.resetKeyWrite key) s fun t => t.deviceResetFrom s 3) ∧
      (key ≠ 0xD1CE → Effects (.resetKeyWrite key) s fun t =>
        t.pwr = s.pwr ∧ t.fpc = s.fpc ∧ t.fld .pci_ERR_STATUS [] f_pci_ERR_STATUS_last_kind = 4) := by
  constructor
  · rintro rfl
    exact ⟨_, rfl, s.deviceReset_deviceResetFrom (by decide)⟩
  · intro hkey
    have hne : key.toNat ≠ 0xD1CE := fun h => hkey (BitVec.eq_of_toNat_eq h)
    refine ⟨_, congrArg Host.Outcome.next (if_neg hne), ?_, ?_, ?_⟩
    · exact State.accessError_pwr _ _ _
    · exact State.accessError_fpc _ _ _
    · rw [State.accessError_fld_errStatus, State.recordError_last_kind _ _ (by decide)]

/-- No reset is released before the PLL is locked (R597). -/
theorem resetRelease_without_lock {s : State} (tw : Bool) (sel : Fin 4) (h : s.pwr.pllLocked = false) :
    Effects (.resetRelease tw sel) s fun t => t = s :=
  ⟨s, if_pos (by simp [h]), rfl⟩

/-! ### How far the statement about resets is decided -/

/-- A device whose watchdog is due a second time, with the route of WDOG_EXPIRY enabled. -/
def wdogSecondDue : State :=
  ({ State.reset with cycle := 10 ^ 10, pwr := { State.reset.pwr with wdogFirst := true } }.setFlag
    .cpr_WDOG [] f_cpr_WDOG_enable true).setFlag .glb_EVT_ROUTE [0x1C5] f_glb_EVT_ROUTE_enable true

/-- The statement of O48 holds exactly where WDOG_EXPIRY is below NOTICE. That leaves O48 unsettled: the spec gives the event
no severity (R624), and the model takes the opaque `Config.eventSeverity`. All that O48 says beside the second expiry of the
watchdog holds without a condition; that expiry posts its event before the reset, and an entry of NOTICE or higher joins
those that wait for flash, which the statement has unchanged. -/
theorem resetCommandsComplete_iff_wdogExpiry_below_notice :
    Obligations.ResetCommandsComplete ↔ eventSeverity 0x1C5 < 2 := by
  unfold Obligations.ResetCommandsComplete
  constructor
  · intro h
    obtain ⟨-, -, -, -, -, -, -, -, -, -, hwdog⟩ := h wdogSecondDue 0 0 false 0
    have henable : wdogSecondDue.flag .cpr_WDOG [] f_cpr_WDOG_enable = true := by decide +kernel
    have hdue : wdogSecondDue.passed wdogSecondDue.pwr.wdogSince
        (max 1 (wdogSecondDue.fld .cpr_WDOG [] f_cpr_WDOG_period) * 2000000) = true := by decide +kernel
    have hroute : wdogSecondDue.flag .glb_EVT_ROUTE [0x1C5] f_glb_EVT_ROUTE_enable = true := by decide +kernel
    obtain ⟨-, hsecond⟩ := hwdog henable hdue
    by_contra hsev
    exact not_wdogExpiry_second_effects henable hdue rfl (Nat.not_lt.mp hsev) hroute (hsecond rfl)
  · intro hsev s n key tw sel
    refine ⟨powerGood_effects, pllLock_effects, pllLockLoss_effects, ?powerOn, ?device, (resetKeyWrite_effects s key).1,
      (resetKeyWrite_effects s key).2, resetRelease_effects tw sel, resetRelease_without_lock tw sel, ⟨_, rfl, rfl, rfl⟩,
      ?watchdog⟩
    case powerOn => exact ⟨_, rfl, rfl, rfl, s.powerOnReset_regs_all, rfl, rfl, rfl, rfl, rfl, rfl⟩
    case device =>
      intro hgood
      obtain ⟨hlong, hshort⟩ := resetPin_effects n hgood
      obtain ⟨hplain, hsource⟩ := restartReset_effects hgood
      exact ⟨hlong, hshort, hplain, hsource, deviceReset_effects hgood⟩
    case watchdog =>
      intro henable hdue
      exact ⟨wdogExpiry_first_effects henable hdue, fun hsecond => wdogExpiry_second_effects henable hdue hsecond hsev⟩

end Sys2Proof.Machine
end
